-- ==== Sys2Proof/Word.lean ====
section
/-!
DEFINITION. The words of the part: the byte of a frame, the 2,384 scan inputs, and the sparse table
that holds the part's numbered records.
-/

namespace Sys2Proof

/-- One byte of a frame (R176). -/
abbrev Byte := BitVec 8

/-- A field of two bytes (R176). -/
abbrev Word16 := BitVec 16

/-- The 2,384 scan inputs at one scan instant (R19): bit `p` is 1 when point `p` shows LOOP, or
REVERSED where the point senses polarity, and 0 when it shows OPEN or NORMAL. -/
abbrev ScanInputs := BitVec 2384

/-- A table of numbered records, as plain data: the records that differ from what an unlisted number
holds, numbers strictly rising. -/
abbrev Table (α : Type) := List (Nat × α)

/-- A number as one byte. -/
def b8 (n : Nat) : Byte := BitVec.ofNat 8 n

end Sys2Proof
end

