-- ==== Sys2Proof/Syntax.lean ====
section
/-!
DEFINITION. The commands of the part: one constructor of `Instr` for each row of
spec/opcode_table.json, with its operands. A command is an event at one of the part's inputs or
clocks, a step the part takes by itself at a moment the manual names, or a request frame on a port.
-/

namespace Sys2Proof

/-- The two controllers. -/
inductive Ctl where
  | a | b
  deriving DecidableEq, Repr

/-- The three ports (R169). -/
inductive Port where
  | ctl (c : Ctl)
  | maint
  deriving DecidableEq, Repr

/-- The mode input, sampled at each start-up (R189). -/
inductive ModeInput where
  | autoload | manual
  deriving DecidableEq, Repr

/-- The drive units (R1, R2): a frame unit serves a line frame, a plane unit a plane. -/
inductive DriveUnit where
  | frame (n : Nat)
  | plane (n : Nat)
  deriving DecidableEq, Repr

/-- A party that originates or is called: a line terminal or a junction. -/
inductive Party where
  | line (lt : Nat)
  | junction (j : Nat)
  deriving DecidableEq, Repr

/-- The moment of an event that may bring a tick (R160): the milliseconds since the last tick
produced, as R160 measures them, and the calls whose timer expiry at that tick is taken before the
Charge Unit takes it (R114, R129). -/
structure Moment where
  sinceTick : Nat
  early : List Nat := []
  deriving DecidableEq, Repr

/-- The commands. Each constructor is a row of spec/opcode_table.json; a request carries the tag and
the parameters of its frame (section 10.2), each of the size the frame gives it. -/
inductive Instr where
  /-- POWER_ON (R189). -/
  | powerOn (mode : ModeInput)
  /-- BATTERY_RESET (R188). -/
  | batteryReset (mode : ModeInput)
  /-- BATTERY_SAMPLE (R186): the sample, in tenths of a volt. -/
  | batterySample (tenths : Nat)
  /-- SCAN (R19): the samples, and the points whose event, if this scan brings their run duration to
  its threshold, is left to its own command. -/
  | scan (inputs : ScanInputs) (later : List Nat)
  /-- DIGIT_END (R30), on a cord's O point. -/
  | digitEnd (cord : Nat)
  /-- CALLER_CLEAR (R98), on the point that speaks for the calling line. -/
  | callerClear (point : Nat)
  /-- CALLED_CLEAR (R95), on a cord's T point. -/
  | calledClear (cord : Nat)
  /-- FAR_END_CLEAR (R35, R36), on a junction. -/
  | farEndClear (junction : Nat)
  /-- PARK_END (R28), on a line. -/
  | parkEnd (line : Nat)
  /-- TICK (R154): the divider of the selected source gives a tick; `early` as in `Moment`. -/
  | tick (early : List Nat)
  /-- DIAL_TIMEOUT (R91). -/
  | dialTimeout (call : Nat)
  /-- NO_ANSWER (R93). -/
  | noAnswer (call : Nat)
  /-- HOLD_EXPIRY (R95). -/
  | holdExpiry (call : Nat)
  /-- GRACE_EXPIRY (R128). -/
  | graceExpiry (call : Nat)
  /-- WAIT_LIMIT_EXPIRY (R52). -/
  | waitLimitExpiry (origin : Party)
  /-- PRESENCE_WINDOW_EXPIRY (R183). -/
  | presenceWindowExpiry (c : Ctl)
  /-- MINUTE_BOUNDARY (R165). -/
  | minuteBoundary
  /-- STATION_PULSE (R156). -/
  | stationPulse (moment : Moment)
  /-- STATION_GAP (R156). -/
  | stationGap (moment : Moment)
  /-- CRYSTAL_READY (R155). -/
  | crystalReady (moment : Moment)
  /-- CRYSTAL_FAILURE (R155). -/
  | crystalFailure (moment : Moment)
  /-- DRIVE_CONFIRMATION (R78): the unit, the order it names, and whether it is positive. -/
  | driveConfirmation (unit : DriveUnit) (order : Nat) (positive : Bool)
  /-- DRIVE_TIMEOUT (R78): 100 ms have passed since the dispatch of the order. -/
  | driveTimeout (unit : DriveUnit) (order : Nat)
  /-- ARBITER_GRANT (R60). -/
  | arbiterGrant
  /-- NV_WRITE_END (R141): whether the verify reads back the value written. -/
  | nvWriteEnd (verified : Bool)
  /-- TRICKLE_SLOT (R145). -/
  | trickleSlot
  /-- OUTBOUND_FRAME_END (R169). -/
  | outboundFrameEnd (port : Port)
  /-- PENDING_NOTICE_ENTRY (R179). -/
  | pendingNoticeEntry (c : Ctl)
  /-- MAINTENANCE_PENDING_ENTRY (R181). -/
  | maintenancePendingEntry
  /-- MALFORMED_FRAME (R170): the bytes received. -/
  | malformedFrame (port : Port) (frame : List Byte)
  /-- EXTEND (R66). -/
  | extend (c : Ctl) (tag call kind : Byte) (dest : Word16) (band permission : Byte)
  /-- RELEASE (R100). -/
  | release (c : Ctl) (tag call : Byte)
  /-- READ CALL (R106). -/
  | readCall (c : Ctl) (tag call : Byte)
  /-- READ LINE (R173). -/
  | readLine (c : Ctl) (tag : Byte) (line : Word16)
  /-- PRESENCE (R174). -/
  | presence (c : Ctl) (tag : Byte)
  /-- WRITE TABLE (R16): header, the bytes of the records, and the moment, for a write of the preferred
  source (R158). -/
  | writeTable (tag table : Byte) (first : Word16) (count : Byte) (records : List Byte) (moment : Moment)
  /-- READ TABLE (R16). -/
  | readTable (tag table : Byte) (first : Word16) (count : Byte)
  /-- START SERVICE (R190). -/
  | startService (tag : Byte)
  /-- SAVE CONFIGURATION (R191). -/
  | saveConfiguration (tag : Byte)
  /-- BUSY OUT (R7, R11). -/
  | busyOut (tag kind : Byte) (number : Word16)
  /-- RETURN TO SERVICE (R8, R11). -/
  | returnToService (tag kind : Byte) (number : Word16)
  /-- RELEASE CALL (R101). -/
  | releaseCall (tag call : Byte)
  /-- READ METERS (R149). -/
  | readMeters (tag : Byte) (first : Word16) (count : Byte)
  /-- TAKE SNAPSHOT (R150). -/
  | takeSnapshot (tag : Byte)
  /-- READ SNAPSHOT (R151). -/
  | readSnapshot (tag : Byte) (first : Word16) (count : Byte)
  /-- DROP SNAPSHOT (R151). -/
  | dropSnapshot (tag : Byte)
  /-- CLEAR ROLLOVER (R138). -/
  | clearRollover (tag : Byte) (line : Word16)
  /-- CLEAR NV FAULT (R144). -/
  | clearNvFault (tag : Byte) (line : Word16)
  /-- SET TIME (R162). -/
  | setTime (tag day : Byte) (minute : Word16) (second tenth : Byte)
  /-- READ TIME (R162). -/
  | readTime (tag : Byte)
  /-- SELECT SOURCE (R157). -/
  | selectSource (tag source : Byte) (moment : Moment)
  /-- START CRYSTAL (R155). -/
  | startCrystal (tag : Byte)
  /-- STOP CRYSTAL (R155). -/
  | stopCrystal (tag : Byte)
  /-- FORCE PERIOD (R166). -/
  | forcePeriod (tag period : Byte)
  /-- FORCE CLEAR (R166). -/
  | forceClear (tag : Byte)
  /-- RESTART (R192). -/
  | restart (tag : Byte)
  /-- READ STATUS (R175). -/
  | readStatus (tag : Byte)
  deriving DecidableEq, Repr

end Sys2Proof
end

