-- ==== Sys2Proof/Decode.lean ====
section
/-!
DEFINITION. The words of a command. No row of spec/opcode_table.json gives bits, so no table word
spells a command. A request, though, passes on its link as a frame of bytes (R176): its layout is here,
read and written.
-/

namespace Sys2Proof

/-- The command a word of the opcode table spells: the table gives no row any bits, so none. -/
def decodeTableWord (_nbits _w : Nat) : Option Instr := none

/-- The more significant byte of a field of two bytes (R176). -/
def hi8 (w : Word16) : Byte := BitVec.ofNat 8 (w.toNat / 256)

/-- The less significant byte of a field of two bytes (R176). -/
def lo8 (w : Word16) : Byte := BitVec.ofNat 8 w.toNat

/-- A field of two bytes, most significant byte first (R176). -/
def join8 (h l : Byte) : Word16 := BitVec.ofNat 16 (h.toNat * 256 + l.toNat)

/-- Record sizes of the ten tables, by table code (section 10.3): LINE, FRAME, ROUTE, JUNCTION,
FRAME LINK, CORD, TARIFF, CALENDAR, TIMER, TIME BASE. -/
def recordSize : Nat → Option Nat
  | 0 => some 3
  | 1 => some 2
  | 2 => some 2
  | 3 => some 7
  | 4 => some 2
  | 5 => some 2
  | 6 => some 6
  | 7 => some 5
  | 8 => some 15
  | 9 => some 1
  | _ => none

/-- Whether the records of a WRITE TABLE have the length its header asks for (R172); a table code
outside the ten names no size, and is refused by R172 when the request is taken. -/
def recordsFit (table count : Byte) (records : List Byte) : Bool :=
  match recordSize table.toNat with
  | some n => decide (records.length = count.toNat * n)
  | none => true

/-- The frame of a request: tag, request code (its position in its port's table, section 10.2), and
parameters (R176). A command that is no request has none. -/
def requestFrame : Instr → Option (Port × List Byte)
  | .extend c tag call kind dest band permission =>
    some (.ctl c, [tag, 1, call, kind, hi8 dest, lo8 dest, band, permission])
  | .release c tag call => some (.ctl c, [tag, 2, call])
  | .readCall c tag call => some (.ctl c, [tag, 3, call])
  | .readLine c tag line => some (.ctl c, [tag, 4, hi8 line, lo8 line])
  | .presence c tag => some (.ctl c, [tag, 5])
  | .writeTable tag table first count records _ =>
    some (.maint, tag :: 1 :: table :: hi8 first :: lo8 first :: count :: records)
  | .readTable tag table first count => some (.maint, [tag, 2, table, hi8 first, lo8 first, count])
  | .startService tag => some (.maint, [tag, 3])
  | .saveConfiguration tag => some (.maint, [tag, 4])
  | .busyOut tag kind number => some (.maint, [tag, 5, kind, hi8 number, lo8 number])
  | .returnToService tag kind number => some (.maint, [tag, 6, kind, hi8 number, lo8 number])
  | .releaseCall tag call => some (.maint, [tag, 7, call])
  | .readMeters tag first count => some (.maint, [tag, 8, hi8 first, lo8 first, count])
  | .takeSnapshot tag => some (.maint, [tag, 9])
  | .readSnapshot tag first count => some (.maint, [tag, 10, hi8 first, lo8 first, count])
  | .dropSnapshot tag => some (.maint, [tag, 11])
  | .clearRollover tag line => some (.maint, [tag, 12, hi8 line, lo8 line])
  | .clearNvFault tag line => some (.maint, [tag, 13, hi8 line, lo8 line])
  | .setTime tag day minute second tenth =>
    some (.maint, [tag, 14, day, hi8 minute, lo8 minute, second, tenth])
  | .readTime tag => some (.maint, [tag, 15])
  | .selectSource tag source _ => some (.maint, [tag, 16, source])
  | .startCrystal tag => some (.maint, [tag, 17])
  | .stopCrystal tag => some (.maint, [tag, 18])
  | .forcePeriod tag period => some (.maint, [tag, 19, period])
  | .forceClear tag => some (.maint, [tag, 20])
  | .restart tag => some (.maint, [tag, 21])
  | .readStatus tag => some (.maint, [tag, 22])
  | _ => none

/-- The request a controller's frame carries, by its request code and the length the code requires. -/
def decodeCtlRequest (c : Ctl) (tag : Byte) : Nat → List Byte → Option Instr
  | 1, [call, kind, d1, d0, band, permission] =>
    some (.extend c tag call kind (join8 d1 d0) band permission)
  | 2, [call] => some (.release c tag call)
  | 3, [call] => some (.readCall c tag call)
  | 4, [l1, l0] => some (.readLine c tag (join8 l1 l0))
  | 5, [] => some (.presence c tag)
  | _, _ => none

/-- The request a maintenance frame carries, taken at the moment `m`. -/
def decodeMaintRequest (m : Moment) (tag : Byte) : Nat → List Byte → Option Instr
  | 1, table :: f1 :: f0 :: count :: records =>
    if recordsFit table count records then
      some (.writeTable tag table (join8 f1 f0) count records m)
    else none
  | 2, [table, f1, f0, count] => some (.readTable tag table (join8 f1 f0) count)
  | 3, [] => some (.startService tag)
  | 4, [] => some (.saveConfiguration tag)
  | 5, [kind, n1, n0] => some (.busyOut tag kind (join8 n1 n0))
  | 6, [kind, n1, n0] => some (.returnToService tag kind (join8 n1 n0))
  | 7, [call] => some (.releaseCall tag call)
  | 8, [f1, f0, count] => some (.readMeters tag (join8 f1 f0) count)
  | 9, [] => some (.takeSnapshot tag)
  | 10, [f1, f0, count] => some (.readSnapshot tag (join8 f1 f0) count)
  | 11, [] => some (.dropSnapshot tag)
  | 12, [l1, l0] => some (.clearRollover tag (join8 l1 l0))
  | 13, [l1, l0] => some (.clearNvFault tag (join8 l1 l0))
  | 14, [day, m1, m0, second, tenth] => some (.setTime tag day (join8 m1 m0) second tenth)
  | 15, [] => some (.readTime tag)
  | 16, [source] => some (.selectSource tag source m)
  | 17, [] => some (.startCrystal tag)
  | 18, [] => some (.stopCrystal tag)
  | 19, [period] => some (.forcePeriod tag period)
  | 20, [] => some (.forceClear tag)
  | 21, [] => some (.restart tag)
  | 22, [] => some (.readStatus tag)
  | _, _ => none

/-- The request a frame carries, taken at the moment `m`; none where the frame has no tag and code, its
code is not one of the port, or its length is not the one the code requires (R170). -/
def decodeRequest (m : Moment) : Port → List Byte → Option Instr
  | .ctl c, tag :: code :: params => decodeCtlRequest c tag code.toNat params
  | .maint, tag :: code :: params => decodeMaintRequest m tag code.toNat params
  | _, _ => none

/-- A frame is well-formed when it passes the first two checks of R170. -/
def wellFormedFrame (p : Port) (frame : List Byte) : Bool :=
  (decodeRequest { sinceTick := 0 } p frame).isSome

/-- The moment a request carries beside its frame: of a write that may apply the preferred-source policy
(R158), and of SELECT SOURCE (R157). -/
def requestMoment : Instr → Option Moment
  | .writeTable _ _ _ _ _ m => some m
  | .selectSource _ _ m => some m
  | _ => none

end Sys2Proof
end

