-- ==== Sys2Proof/Config.lean ====
section
/-!
DEFINITION. What is fixed for this part: its principal figures (00_scope.md), its thresholds, and the
free values, which the manual leaves open and no proof can see.
-/

namespace Sys2Proof.Config

/-- Line terminals (R1). -/
def lines : Nat := 2048
/-- Line frames (R1). -/
def frames : Nat := 32
/-- Frame links (R1). -/
def frameLinks : Nat := 384
/-- Planes (R1). -/
def planes : Nat := 12
/-- Cords (R2). -/
def cords : Nat := 96
/-- Junctions (R2). -/
def junctions : Nat := 48
/-- Routes (R2). -/
def routes : Nat := 8
/-- Scan points (R19). -/
def points : Nat := 2384
/-- Call records (R85). -/
def calls : Nat := 128
/-- The most digits of a call (R30). -/
def maxDigits : Nat := 24
/-- Places of the origination wait queue (R50). -/
def waitPlaces : Nat := 64
/-- Places of the drive order table (R76). -/
def orderPlaces : Nat := 64
/-- Places kept back for releases (R60), and the places a release needs (R80). -/
def releasePlaces : Nat := 5
/-- The charge scale Q, fractions to one unit (section 6.1). -/
def q : Nat := 1048576
/-- One more than the top of a meter count (R136). -/
def meterTop : Nat := 10000000
/-- The top of the units charged (R115). -/
def unitsTop : Nat := 65535
/-- The top of the credit (R125). -/
def creditTop : Nat := 99
/-- The top of the deposits (R125). -/
def depositsTop : Nat := 999
/-- The owed count at which a call is released (R126). -/
def owedTop : Nat := 60
/-- Notices a controller's queue holds (R177). -/
def ctlQueue : Nat := 64
/-- Notices the maintenance queue holds (R177). -/
def maintQueue : Nat := 32
/-- Ticks of the presence window (R183). -/
def window : Nat := 20
/-- The top of a run duration (R20). -/
def durationTop : Nat := 1023
/-- The top of a candidate run (R20). -/
def runTop : Nat := 15
/-- The top of a pulse count, which stands for more than 10 (R20). -/
def pulseTop : Nat := 11
/-- WARN, in tenths of a volt (section 11.1). -/
def warn : Nat := 450
/-- HOLD, in tenths of a volt (section 11.1). -/
def hold : Nat := 420
/-- The sample at which LOW returns to NORMAL, in tenths of a volt (R186). -/
def normalAgain : Nat := 461
/-- Consecutive samples below HOLD that decide a battery reset (R188). -/
def rideLimit : Nat := 5
/-- Pulses of a first qualification of the station clock (R156). -/
def firstQualification : Nat := 10
/-- Pulses of a requalification after a loss (R156). -/
def requalification : Nat := 600
/-- Milliseconds between ticks (R160). -/
def tickMs : Nat := 100
/-- Least milliseconds from the last tick to a station tick (R160). -/
def stationTickMs : Nat := 50
/-- Minutes of a day (R161). -/
def dayMinutes : Nat := 1440
/-- Minutes of a week. -/
def weekMinutes : Nat := 10080
/-- Writes of a configuration save (R191): the marker cleared, 2,698 records, the marker set. -/
def saveWrites : Nat := 2700
/-- The top of a merged count (R180). -/
def mergedTop : Nat := 255
/-- The top of the lost CLEARED count (R184). -/
def lostTop : Nat := 65535

/-- FREE VALUE (R139, R143): what the `n`-th failed or cut-short meter write leaves as the record's
count. -/
opaque failedCount : Nat → Nat

/-- FREE VALUE (R139, R143): what the `n`-th failed or cut-short meter write leaves as the record's
rollover flag. -/
opaque failedFlag : Nat → Bool

/-- FREE VALUE (R191): what the `n`-th failed or cut-short write of the validity marker leaves. -/
opaque failedMarker : Nat → Bool

end Sys2Proof.Config
end

