-- ==== Sys2Proof/Machine/State.lean ====
section
/-!
DEFINITION. The state of the part, as plain data, block by block (00_scope.md), and its value after
reset. Numbered records are kept in sparse tables; the record an unlisted number holds is the `{}` of
its type.
-/

namespace Sys2Proof.Machine

/-! ## The Network Map (chapter 1) -/

/-- Occupancy of an element (section 1.2). -/
inductive Occupancy where
  | free | reserved | held | releasing | faulty
  deriving DecidableEq, Repr

/-- Administrative state of an element or line (section 1.2). -/
inductive Admin where
  | inService | busyOut | busyOutPending
  deriving DecidableEq, Repr

/-- An element record (R3, R4). -/
structure Element where
  occ : Occupancy := .free
  admin : Admin := .inService
  deriving DecidableEq, Repr

/-- An element: a frame link by its number 12f + k, a cord, or a junction (R1, R2). -/
inductive ElemId where
  | fl (n : Nat)
  | cord (n : Nat)
  | junction (n : Nat)
  deriving DecidableEq, Repr

/-- Line classes (R10). -/
inductive LineClass where
  | ordinary | coin | essential | unequipped
  deriving DecidableEq, Repr

/-- Supervision state of a line (R26). -/
inductive LineSup where
  | idle | originating
  | inCall (call : Nat)
  | parked
  deriving DecidableEq, Repr

/-- A line record (R10), with its values in an empty table (R17). -/
structure Line where
  cls : LineClass := .unequipped
  pendCls : Option LineClass := none
  admin : Admin := .inService
  sup : LineSup := .idle
  marked : Bool := false
  deriving DecidableEq, Repr

/-- A frame table entry (R13), and the frame's hunt pointer, a plane (R63). -/
structure Frame where
  home : Option Ctl := none
  seize : Nat := 6
  hunt : Nat := 0
  deriving DecidableEq, Repr

/-- A route table entry (R14). -/
structure Route where
  home : Option Ctl := none
  hunt : Nat := 0
  deriving DecidableEq, Repr

/-- Direction of a junction (R15). -/
inductive Direction where
  | outgoing | incoming | bothway
  deriving DecidableEq, Repr

/-- Glare preference of a junction (R15). -/
inductive Glare where
  | hold | yield
  deriving DecidableEq, Repr

/-- The use of a junction in a call (R34). -/
inductive Use where
  | incoming | outgoing
  deriving DecidableEq, Repr

/-- Supervision state of a junction (R34). -/
inductive JunctionSup where
  | idle | originating
  | inCall (use : Use) (call : Nat)
  | heldUnserved
  deriving DecidableEq, Repr

/-- A junction table entry with its element record (R15) and its supervision state (R34). -/
structure Junction where
  route : Option Nat := none
  dir : Direction := .outgoing
  glare : Glare := .hold
  elem : Element := {}
  pendRoute : Option Nat := none
  pendDir : Option Direction := none
  sup : JunctionSup := .idle
  marked : Bool := false
  deriving DecidableEq, Repr

/-- The Network Map. -/
structure Net where
  lines : Table Line := []
  frames : Table Frame := []
  routes : Table Route := []
  junctions : Table Junction := []
  fls : Table Element := []
  cords : Table Element := []
  deriving DecidableEq, Repr

/-! ## The Line Scanner (chapter 2) -/

/-- What a point is taken to show (R20): LOOP or OPEN, or the polarity of a junction in outgoing use. -/
inductive PointState where
  | open_ | loop | normal | reversed
  deriving DecidableEq, Repr

/-- The pending events (R22). -/
inductive ScanEvent where
  | callerClear | parkEnd | digitEnd | calledClear | farEndClear
  deriving DecidableEq, Repr

/-- An entry of the scan point table (R20), with its value after reset (R41). -/
structure ScanEntry where
  accepted : PointState := .open_
  candidate : PointState := .loop
  run : Nat := 0
  duration : Nat := 0
  pulses : Nat := 0
  pending : Option ScanEvent := none
  deriving DecidableEq, Repr

/-- The Line Scanner: the scan point table; inside a scan, the point being processed, and the points
that a hand-over has already counted for this scan (R24). -/
structure Scanner where
  points : Table ScanEntry := []
  pos : Option Nat := none
  skip : List Nat := []
  deriving DecidableEq, Repr

/-! ## The Origination Server (chapter 3) -/

/-- An entry of the origination wait queue (R50). -/
structure WaitEntry where
  origin : Party
  wait : Nat := 0
  limit : Nat
  deriving DecidableEq, Repr

/-- An entry of the re-hunt list (R55, R57); `made` is its state, WAITING or MADE. -/
structure Rehunt where
  call : Nat
  route : Nat
  junction : Nat
  made : Bool := false
  deriving DecidableEq, Repr

/-- The Origination Server (R43). The request flag is set when `request` holds a worst case (R47). -/
structure OrigServer where
  queue : List WaitEntry := []
  pointer : Nat := 0
  rehunts : List Rehunt := []
  request : Option Nat := none
  deriving DecidableEq, Repr

/-! ## The Path Engine and the Drive Order Unit (chapter 4) -/

/-- The clients of the search arbiter (R59), in their cyclic order (R60). -/
inductive Client where
  | server
  | ctl (c : Ctl)
  | release
  deriving DecidableEq, Repr

/-- The arbiter's memory: the client last granted at each priority 0 to 3 (R60, R84), and the release
wait list (R80). -/
structure Arbiter where
  last : List Client := [.release, .release, .release, .release]
  releaseWait : List Nat := []
  deriving DecidableEq, Repr

/-- The two ends of a cord (R1). -/
inductive CordEnd where
  | o | t
  deriving DecidableEq, Repr

/-- A crosspoint (R76). -/
inductive Xp where
  | line (lt fl : Nat)
  | plane (fl cord : Nat) (side : CordEnd)
  | junctor (j cord : Nat) (side : CordEnd)
  deriving DecidableEq, Repr

/-- State of a crosspoint of a call (R62). -/
inductive XpState where
  | operating | operated | releasing
  deriving DecidableEq, Repr

/-- The action of a drive order with its object (R76). -/
inductive Action where
  | operate (x : Xp)
  | release (x : Xp)
  | ringOn (cord : Nat)
  | ringOff (cord : Nat)
  | reverse (cord : Nat)
  | collect (cord : Nat)
  | refund (cord : Nat)
  deriving DecidableEq, Repr

/-- A drive order in the table (R76). Its unit follows from its action, and it is DISPATCHED exactly when
it is the first order of its unit (R77). `id` is how a confirmation names it (R78). -/
structure Order where
  id : Nat
  call : Nat
  act : Action
  deriving DecidableEq, Repr

/-- The outcomes of an order (R78). -/
inductive DriveOutcome where
  | done | refused | timeout
  deriving DecidableEq, Repr

/-! ## The Call Table (chapter 5) -/

/-- States of a call record (R85). -/
inductive CallState where
  | free | settingOrigin | dialling | settingTerm | ringing | awaitingAnswer | answered
  | calledCleared | releasing | closed
  deriving DecidableEq, Repr

/-- Release reasons (R98). -/
inductive Reason where
  | callerCleared | calledCleared | dialTimeout | noAnswer | creditExhausted | controller
  | maintenance | reswitchFailed | restart
  deriving DecidableEq, Repr

/-- Kinds of the call timer (R88). -/
inductive TimerKind where
  | firstDigit | interdigit | noAnswer | hold
  deriving DecidableEq, Repr

/-- A running call timer, limits and counts in ticks (R88). -/
structure CallTimer where
  kind : TimerKind
  limit : Nat
  count : Nat := 0
  deriving DecidableEq, Repr

/-- An element set of a call (R2, R62): the origin's frame link or junction, the cord with its ring state
and polarity, and the terminating frame link or junction. -/
structure ElemSet where
  fl : Option Nat := none
  junction : Option Nat := none
  cord : Option Nat := none
  ring : Bool := false
  reversed : Bool := false
  tfl : Option Nat := none
  tjunction : Option Nat := none
  deriving DecidableEq, Repr

/-- The destination of an EXTEND (R66). -/
inductive Dest where
  | line (lt : Nat)
  | route (r : Nat)
  deriving DecidableEq, Repr

/-- The coin context (R124); the grace timer, with its limit and count, is present while RUNNING. -/
structure Coin where
  credit : Nat := 0
  owed : Nat := 0
  deposits : Nat := 0
  grace : Option (Nat × Nat) := none
  deriving DecidableEq, Repr

/-- Kinds of call-bound notices, in the kind order of R178. -/
inductive CallKind where
  | callTransferred | originReady | incomingReady | setFailed | ringing | awaitingAnswer | digit
  | digitFault | digitOverflow | answered | calledCleared | ringFault | depositDue | cleared
  deriving DecidableEq, Repr

/-- The operation of the Path Engine that a call's orders belong to (R78). -/
inductive Operation where
  | idle
  /-- An origin search's OPERATE orders; `again` at its one retry (R65). -/
  | origin (again : Bool)
  /-- The releases of an origin attempt that failed (R65). -/
  | originBack (again : Bool)
  /-- An extension or a re-hunt (R67, R68, R57). -/
  | extension
  /-- An extension whose junction yields to glare (R55). -/
  | yielding
  /-- The reversal of a failed extension (R70). -/
  | reversal
  /-- The two steps of a reswitch (R73, R74). -/
  | reswitch1 | reswitch2
  /-- The answer orders (R71). -/
  | answer
  /-- The two steps of a release (R82, R83). -/
  | release1 | release2
  deriving DecidableEq, Repr

/-- A call record (R86), with what the Path Engine keeps beside it (R61, R62). A FREE record is `{}`. -/
structure Call where
  state : CallState := .free
  owner : Option Ctl := none
  /-- The origin (R86), kept for the CLEARED notice (R102). -/
  origin : Option Party := none
  /-- The origin is still in the call (R10, R25). -/
  originHeld : Bool := false
  term : Option Party := none
  /-- The destination of the EXTEND being set, for SET FAILED (R92). -/
  dest : Option Dest := none
  set : ElemSet := {}
  old : ElemSet := {}
  new : ElemSet := {}
  /-- A reswitch is in flight (R72). -/
  reswitch : Bool := false
  /-- The calling line's own point speaks, in and after a reswitch (R23, R24). -/
  lineSpeaks : Bool := false
  band : Option Nat := none
  charged : Option Nat := none
  digits : List Nat := []
  timer : Option CallTimer := none
  accum : Nat := 0
  incr : Nat := 0
  units : Nat := 0
  degraded : Bool := false
  /-- The record is in the charging set (R111). -/
  charging : Bool := false
  coin : Option Coin := none
  /-- An answer has been taken (R94), for the coin order of the release (R82). -/
  answered : Bool := false
  reason : Option Reason := none
  relPending : Bool := false
  /-- The pending notice set, in kind order, with the parameters fixed at raising (R177, R178). -/
  pend : List (CallKind × List Byte) := []
  claim : Nat := 0
  xps : List (Xp × XpState) := []
  op : Operation := .idle
  /-- A crosspoint order of the operation has failed (R65, R70). -/
  opFailed : Bool := false
  /-- The junction of the operation yields to glare (R55). -/
  yielded : Bool := false
  /-- The entries of the O and T points as they stood when the cord left the record (R25). -/
  lastO : Option ScanEntry := none
  lastT : Option ScanEntry := none
  deriving DecidableEq, Repr

/-- The timer table (section 10.3), with its defaults; times in seconds (R45, R50, R59, R88, R127). -/
structure TimerTable where
  firstNormal : Nat := 20
  firstHeavy : Nat := 10
  interNormal : Nat := 15
  interHeavy : Nat := 10
  reserveNormal : Nat := 4
  reserveHeavy : Nat := 10
  noAnswer : Nat := 120
  hold : Nat := 60
  waitLimit : Nat := 30
  grace : Nat := 10
  prioServer : Nat := 1
  prioA : Nat := 2
  prioB : Nat := 2
  prioRelease : Nat := 3
  deriving DecidableEq, Repr

/-! ## The Charge Unit (chapter 6) -/

/-- Tariff periods (R108). -/
inductive Period where
  | day | evening | night | holiday
  deriving DecidableEq, Repr

/-- A tariff entry: unit period in tenths of a second, and answer units (R108). -/
structure Tariff where
  unitPeriod : Nat := 0
  answerUnits : Nat := 0
  deriving DecidableEq, Repr

/-- The Charge Unit: the tariff table by index 4b + n (R108), the period in force, and the band
increment table, by band (R110). -/
structure ChargeUnit where
  tariff : Table Tariff := []
  period : Period := .day
  incs : List Nat := List.replicate 16 0
  deriving DecidableEq, Repr

/-! ## The Time Base and the Tariff Calendar (chapter 9) -/

/-- Tick sources (R154). -/
inductive Source where
  | station | crystal | internal
  deriving DecidableEq, Repr

/-- States of the crystal (R155). -/
inductive Crystal where
  | stopped | starting | ready
  deriving DecidableEq, Repr

/-- States of the station clock (R156). -/
inductive Station where
  | absent | qualifying | valid
  deriving DecidableEq, Repr

/-- The Time Base, with its value after reset (R167). -/
structure TimeBase where
  selection : Source := .internal
  crystal : Crystal := .starting
  station : Station := .absent
  count : Nat := 0
  requirement : Nat := 10
  preferred : Source := .crystal
  fallback : Bool := false
  day : Nat := 0
  minute : Nat := 0
  second : Nat := 0
  tenth : Nat := 0
  valid : Bool := false
  deriving DecidableEq, Repr

/-- Traffic profiles (R163). -/
inductive Profile where
  | normal | heavy
  deriving DecidableEq, Repr

/-- A calendar entry (R163): the day mask as a byte with bit 7 clear. -/
structure CalEntry where
  mask : Byte := 0
  minute : Nat := 0
  period : Period := .day
  profile : Profile := .normal
  deriving DecidableEq, Repr

/-- The Tariff Calendar (R165, R166); `due` holds from a minute boundary tick to its evaluation. -/
structure Calendar where
  entries : Table CalEntry := []
  period : Period := .day
  calPeriod : Period := .day
  profile : Profile := .normal
  entry : Option Nat := none
  force : Option Period := none
  due : Bool := false
  deriving DecidableEq, Repr

/-! ## The Meter Store (chapter 8) and the configuration image (section 11.4) -/

/-- A meter entry (R136); its save state follows from the dirty list and the engine. -/
structure MeterEntry where
  count : Nat := 0
  rollover : Bool := false
  nvFault : Bool := false
  deriving DecidableEq, Repr

/-- A meter record, or the value of a meter write, or a snapshot item (R139, R141, R150). -/
structure MeterValue where
  count : Nat := 0
  rollover : Bool := false
  deriving DecidableEq, Repr

/-- The configuration image (section 11.4): the validity marker and one record for each record of the
ten tables, in the form a start-up loads. -/
structure Image where
  marker : Bool := false
  lines : Table Line := []
  frames : Table Frame := []
  routes : Table Route := []
  junctions : Table Junction := []
  fls : Table Element := []
  cords : Table Element := []
  tariff : Table Tariff := []
  entries : Table CalEntry := []
  timers : TimerTable := {}
  preferred : Source := .crystal
  deriving DecidableEq, Repr

/-- What one write of a configuration save writes (R191). -/
inductive ConfigValue where
  | marker (valid : Bool)
  | line (i : Nat) (r : Line)
  | frame (i : Nat) (r : Frame)
  | route (i : Nat) (r : Route)
  | junction (i : Nat) (r : Junction)
  | fl (i : Nat) (r : Element)
  | cord (i : Nat) (r : Element)
  | tariff (i : Nat) (r : Tariff)
  | entry (i : Nat) (r : CalEntry)
  | timers (r : TimerTable)
  | preferred (r : Source)
  deriving DecidableEq, Repr

/-- The nonvolatile write engine (R141, R143, R147); `retry` while the retry of the write is in progress. -/
inductive Engine where
  | idle
  | meter (line : Nat) (value : MeterValue) (retry : Bool)
  | config (value : ConfigValue) (retry : Bool)
  deriving DecidableEq, Repr

/-- A configuration save in progress (R147, R191): the number of its next or present write, the
configuration records verified, and whether its last write was a configuration write. -/
structure Save where
  next : Nat := 0
  verified : Nat := 0
  configLast : Bool := false
  deriving DecidableEq, Repr

/-- The stamp of a snapshot (R150). -/
structure Stamp where
  day : Nat
  minute : Nat
  second : Nat
  tenth : Nat
  valid : Bool
  deriving DecidableEq, Repr

/-- A snapshot (R150). -/
structure Snapshot where
  stamp : Stamp
  items : Table MeterValue
  deriving DecidableEq, Repr

/-- The Meter Store: entries, the nonvolatile meter records, the dirty list, the engine, the save in
progress, the snapshot table and the configuration image. -/
structure MeterStore where
  entries : Table MeterEntry := []
  records : Table MeterValue := []
  dirty : List Nat := []
  engine : Engine := .idle
  save : Option Save := none
  snapshot : Option Snapshot := none
  image : Image := {}
  deriving DecidableEq, Repr

/-! ## The ports (chapter 10) -/

/-- Result codes of a reply, in their order (section 10.3). -/
inductive ResultCode where
  | done | doneClamped | busy | format | notReady | badState | notOwner | noSuch | lineBusy
  | congested | unavailable | held
  deriving DecidableEq, Repr

/-- A reply; `immediate` as R170 gives. -/
structure Reply where
  tag : Byte
  code : ResultCode
  data : List Byte := []
  immediate : Bool := false
  deriving DecidableEq, Repr

/-- Kinds of maintenance notices (section 10.4); the presence notices are held once for each
controller (R180). -/
inductive MaintKind where
  | controllerAbsent (c : Ctl)
  | controllerPresent (c : Ctl)
  | elementFaulty | timebaseFallback | timebaseRestored | batteryLow | batteryNormal | rollover
  | nvFault | coinFault | configurationSaved
  deriving DecidableEq, Repr

/-- A notice in a queue, with its data as it entered (R177). -/
inductive Notice where
  | call (kind : CallKind) (call : Nat) (data : List Byte)
  | peer (present : Bool)
  | maint (kind : MaintKind) (merged : Nat) (data : List Byte)
  deriving DecidableEq, Repr

/-- An outbound frame (R169). -/
inductive OutFrame where
  | reply (r : Reply)
  | notice (n : Notice)
  deriving DecidableEq, Repr

/-- What every port holds (R169): the frame being sent, the replies waiting, the notice queue. -/
structure PortIo where
  sending : Option OutFrame := none
  replies : List Reply := []
  queue : List Notice := []
  deriving DecidableEq, Repr

/-- An EXTEND in flight (R66, R171). -/
structure ExtendRequest where
  tag : Byte
  call : Nat
  dest : Dest
  band : Nat
  allow : Bool
  deriving DecidableEq, Repr

/-- A controller port with its Presence Monitor state (R169, R182). -/
structure CtlPort where
  io : PortIo := {}
  extend : Option ExtendRequest := none
  pointer : Nat := 0
  peer : Option Bool := none
  present : Bool := false
  window : Nat := 0
  deriving DecidableEq, Repr

/-- A RESTART in flight (R192): its tag, and the calls it found active that are not yet CLOSED. -/
structure RestartRequest where
  tag : Byte
  waiting : List Nat
  deriving DecidableEq, Repr

/-- The maintenance port: its pending set in order (R180), its rotating pointer (R181), and the lost
CLEARED count (R184). -/
structure MaintPort where
  io : PortIo := {}
  restart : Option RestartRequest := none
  pointer : Nat := 0
  held : List (MaintKind × Nat × List Byte) := []
  lost : Nat := 0
  deriving DecidableEq, Repr

/-! ## The Supply Monitor and start-up (chapter 11) -/

/-- Battery states (R186). -/
inductive Battery where
  | normal | low | rideThrough
  deriving DecidableEq, Repr

/-- Start-up causes (R189). -/
inductive Cause where
  | powerOn | battery
  deriving DecidableEq, Repr

/-- The Supply Monitor and the part state (R186, R188 to R190). -/
structure Supply where
  inService : Bool := false
  cause : Cause := .powerOn
  mode : ModeInput := .manual
  battery : Battery := .normal
  ride : Nat := 0
  sample : Nat := 0
  decided : Bool := false
  deriving DecidableEq, Repr

/-! ## The whole -/

/-- The part: its thirteen blocks, and two counters of the model's own: `serial`, the name the next
drive order gets (R78), and `fresh`, the number of free values drawn so far. -/
structure Part where
  supply : Supply := {}
  net : Net := {}
  scan : Scanner := {}
  orig : OrigServer := {}
  arb : Arbiter := {}
  orders : List Order := []
  calls : Table Call := []
  timers : TimerTable := {}
  charge : ChargeUnit := {}
  meters : MeterStore := {}
  tb : TimeBase := {}
  cal : Calendar := {}
  a : CtlPort := {}
  b : CtlPort := {}
  m : MaintPort := {}
  serial : Nat := 0
  fresh : Nat := 0
  deriving DecidableEq, Repr

end Sys2Proof.Machine

namespace Sys2Proof.Machine

/-- The machine: the part, and the commands that wait, first in, first out. -/
structure State where
  pending : List Instr
  part : Part
deriving DecidableEq, Repr

/-- The machine right after a power-on in which the part stays LOADING (R17, R41, R58, R84, R107, R122,
R152, R167, R185, R193), with blank nonvolatile areas and no command waiting. -/
def State.reset : State := { pending := [], part := {} }

/-- Why the machine may stop with a fault. The manual describes nothing that stops the part, and no
command raises a fault; safe. -/
inductive Fault where
  /-- Raised by nobody: kept so that a stop, were one ever found, has a name. Safe. -/
  | stopped
  deriving DecidableEq, Repr

/-- Why a command may be refused by the model. -/
inductive Refusal where
  /-- Raised only by an arm of `exec` whose command has no meaning yet; safe. -/
  | notModelled (mnemonic : String)
  deriving DecidableEq, Repr

end Sys2Proof.Machine
end

