-- ==== Sys2Proof/Machine/Ops.lean ====
section
/-!
DEFINITION. The named operations over the part's records: sparse tables, the numbering of the network,
reading and changing one record, availability, orders and claims.
-/

namespace Sys2Proof.Machine

/-! ## Sparse tables -/

/-- The record of number `k`: the listed one, or `d`. -/
def Table.get {α : Type} (d : α) : Table α → Nat → α
  | [], _ => d
  | (i, v) :: t, k => if i = k then v else Table.get d t k

/-- The table with the record of number `k` set to `v`; a record equal to `d` is not listed. -/
def Table.put {α : Type} [DecidableEq α] (d : α) : Table α → Nat → α → Table α
  | [], k, v => if v = d then [] else [(k, v)]
  | (i, w) :: t, k, v =>
    if k < i then (if v = d then (i, w) :: t else (k, v) :: (i, w) :: t)
    else if i = k then (if v = d then t else (k, v) :: t)
    else (i, w) :: Table.put d t k v

/-- The canonical form of a table: numbers strictly rising, no listed record equal to `d`. -/
def Table.wf {α : Type} [DecidableEq α] (d : α) (t : Table α) : Bool :=
  decide (t.Pairwise (fun x y => x.1 < y.1)) && t.all (fun x => decide (x.2 ≠ d))

/-! ## The numbering of the network (R1, R2, R19) -/

/-- The frame of a line terminal (R1). -/
def lineFrame (lt : Nat) : Nat := lt / 64
/-- The number of the frame link FL(f,k) (R1). -/
def flNumber (f k : Nat) : Nat := 12 * f + k
/-- The frame of a frame link (R1). -/
def flFrame (n : Nat) : Nat := n / 12
/-- The plane a frame link lands on (R1). -/
def flPlane (n : Nat) : Nat := n % 12
/-- The plane of a cord (R2). -/
def cordPlane (c : Nat) : Nat := c / 8
/-- The plane of a junction (R2). -/
def junctionPlane (j : Nat) : Nat := j % 12
/-- The cords of a plane, in ascending number (R2). -/
def planeCords (k : Nat) : List Nat := (List.range 8).map (fun i => 8 * k + i)
/-- The scan point of a cord's O end (R19). -/
def oPoint (c : Nat) : Nat := 2048 + c
/-- The scan point of a cord's T end (R19). -/
def tPoint (c : Nat) : Nat := 2144 + c
/-- The scan point of a cord's coin contact (R19). -/
def coinPoint (c : Nat) : Nat := 2240 + c
/-- The scan point of a junction (R19). -/
def junctionPoint (j : Nat) : Nat := 2336 + j
/-- The scan point at which an origin is searched for (R48). -/
def partyPoint : Party → Nat
  | .line lt => lt
  | .junction j => junctionPoint j

/-! ## One record of the part -/

/-- A line record. -/
def line (lt : Nat) (s : Part) : Line := Table.get {} s.net.lines lt
/-- A frame table entry. -/
def frame (f : Nat) (s : Part) : Frame := Table.get {} s.net.frames f
/-- A route table entry. -/
def route (r : Nat) (s : Part) : Route := Table.get {} s.net.routes r
/-- A junction table entry. -/
def junction (j : Nat) (s : Part) : Junction := Table.get {} s.net.junctions j
/-- An element record (R3). -/
def elem : ElemId → Part → Element
  | .fl n, s => Table.get {} s.net.fls n
  | .cord c, s => Table.get {} s.net.cords c
  | .junction j, s => (junction j s).elem
/-- A call record. -/
def call (id : Nat) (s : Part) : Call := Table.get {} s.calls id
/-- An entry of the scan point table. -/
def point (p : Nat) (s : Part) : ScanEntry := Table.get {} s.scan.points p
/-- A meter entry. -/
def meter (lt : Nat) (s : Part) : MeterEntry := Table.get {} s.meters.entries lt
/-- A controller's port. -/
def ctl (c : Ctl) (s : Part) : CtlPort :=
  match c with
  | .a => s.a
  | .b => s.b

/-- Change a line record. -/
def modLine (lt : Nat) (f : Line → Line) (s : Part) : Part :=
  { s with net.lines := Table.put {} s.net.lines lt (f (line lt s)) }
/-- Change a frame table entry. -/
def modFrame (n : Nat) (f : Frame → Frame) (s : Part) : Part :=
  { s with net.frames := Table.put {} s.net.frames n (f (frame n s)) }
/-- Change a route table entry. -/
def modRoute (n : Nat) (f : Route → Route) (s : Part) : Part :=
  { s with net.routes := Table.put {} s.net.routes n (f (route n s)) }
/-- Change a junction table entry. -/
def modJunction (j : Nat) (f : Junction → Junction) (s : Part) : Part :=
  { s with net.junctions := Table.put {} s.net.junctions j (f (junction j s)) }
/-- Change an element record. -/
def modElem (e : ElemId) (f : Element → Element) (s : Part) : Part :=
  match e with
  | .fl n => { s with net.fls := Table.put {} s.net.fls n (f (elem (.fl n) s)) }
  | .cord n => { s with net.cords := Table.put {} s.net.cords n (f (elem (.cord n) s)) }
  | .junction j => modJunction j (fun r => { r with elem := f r.elem }) s
/-- Change a call record. -/
def modCall (id : Nat) (f : Call → Call) (s : Part) : Part :=
  { s with calls := Table.put {} s.calls id (f (call id s)) }
/-- Change an entry of the scan point table. -/
def modPoint (p : Nat) (f : ScanEntry → ScanEntry) (s : Part) : Part :=
  { s with scan.points := Table.put {} s.scan.points p (f (point p s)) }
/-- Change a meter entry. -/
def modMeter (lt : Nat) (f : MeterEntry → MeterEntry) (s : Part) : Part :=
  { s with meters.entries := Table.put {} s.meters.entries lt (f (meter lt s)) }
/-- Change a controller's port. -/
def modCtl (c : Ctl) (f : CtlPort → CtlPort) (s : Part) : Part :=
  match c with
  | .a => { s with a := f s.a }
  | .b => { s with b := f s.b }
/-- Change the maintenance port. -/
def modMaint (f : MaintPort → MaintPort) (s : Part) : Part := { s with m := f s.m }

/-- The other controller. -/
def otherCtl : Ctl → Ctl
  | .a => .b
  | .b => .a

/-! ## Elements (R3, R4) -/

/-- Set an element's occupancy. -/
def setOcc (e : ElemId) (o : Occupancy) (s : Part) : Part := modElem e (fun r => { r with occ := o }) s

/-- An element is available (R3). -/
def avail (e : ElemId) (s : Part) : Bool :=
  decide ((elem e s).admin = .inService ∧ (elem e s).occ = .free) &&
    match e with
    | .junction j => decide ((junction j s).sup = .idle)
    | _ => true

/-- The lowest-numbered available cord of a plane (R3). -/
def lowestCord (k : Nat) (s : Part) : Option Nat := (planeCords k).find? (fun c => avail (.cord c) s)

/-- The count of available cords in the whole network (R3). -/
def cordCount (s : Part) : Nat := ((List.range Config.cords).filter (fun c => avail (.cord c) s)).length

/-- The entry of a scan point after reset (R41): OPEN accepted, candidate run 0, run duration 0, pulse
count 0, no pending event. -/
def resetPoint (p : Nat) (s : Part) : Part := modPoint p (fun _ => {}) s

/-- A search takes an element: it becomes RESERVED (R4). A cord that leaves FREE has its three points
reset (R23). -/
def reserve (e : ElemId) (s : Part) : Part :=
  let s := setOcc e .reserved s
  match e with
  | .cord c => resetPoint (coinPoint c) (resetPoint (tPoint c) (resetPoint (oPoint c) s))
  | _ => s

/-- The elements of a set. -/
def ElemSet.elems (x : ElemSet) : List ElemId :=
  (x.fl.map ElemId.fl).toList ++ (x.junction.map ElemId.junction).toList ++
    (x.cord.map ElemId.cord).toList ++ (x.tfl.map ElemId.fl).toList ++
    (x.tjunction.map ElemId.junction).toList

/-- A set without an element. -/
def ElemSet.without (e : ElemId) (x : ElemSet) : ElemSet :=
  match e with
  | .fl n =>
    { x with fl := if x.fl = some n then none else x.fl, tfl := if x.tfl = some n then none else x.tfl }
  | .cord c => { x with cord := if x.cord = some c then none else x.cord }
  | .junction j =>
    { x with
      junction := if x.junction = some j then none else x.junction
      tjunction := if x.tjunction = some j then none else x.tjunction }

/-! ## Calls (R85, R86) -/

/-- A record is active in every state but FREE and CLOSED (R85). -/
def Call.active (c : Call) : Bool := decide (c.state ≠ .free ∧ c.state ≠ .closed)

/-- A release has been taken for the record (R99). -/
def Call.released (c : Call) : Bool := c.relPending || decide (c.state = .releasing ∨ c.state = .closed)

/-- The call's origin is a line. -/
def Call.lineOrigin (c : Call) : Option Nat :=
  match c.origin with
  | some (.line lt) => some lt
  | _ => none

/-- The origin is an incoming junction, which holds one place for REVERSE (R59, R61). -/
def Call.answerPlaces (c : Call) : Nat :=
  match c.origin with
  | some (.junction _) => 1
  | _ => 0

/-- An active record names a line or junction as origin or terminating side (R10). -/
def Call.namesParty (x : Party) (c : Call) : Bool :=
  c.active && (decide (c.origin = some x) && c.originHeld || decide (c.term = some x))

/-- The elements a record names, in all its sets. -/
def Call.elems (c : Call) : List ElemId := c.set.elems ++ c.old.elems ++ c.new.elems

/-- The record without an element, in every set (R4, R5). -/
def Call.without (e : ElemId) (c : Call) : Call :=
  { c with set := c.set.without e, old := c.old.without e, new := c.new.without e }

/-- The lowest call id whose record meets a test; only listed records, which are the records not FREE. -/
def findCall (p : Call → Bool) (s : Part) : Option Nat := (s.calls.find? (fun x => p x.2)).map Prod.fst

/-- The ids of the records that meet a test, ascending. -/
def callsWith (p : Call → Bool) (s : Part) : List Nat := (s.calls.filter (fun x => p x.2)).map Prod.fst

/-- The active call that names a party, if any (R10, R87). -/
def callOf (x : Party) (s : Part) : Option Nat := findCall (Call.namesParty x) s

/-- The active call that names a cord, in any of its sets (R33). -/
def callOfElem (e : ElemId) (s : Part) : Option Nat :=
  findCall (fun c => c.active && c.elems.contains e) s

/-- The FREE record with the lowest call id (R87). -/
def lowestFree (s : Part) : Option Nat :=
  (List.range Config.calls).find? (fun id => decide ((call id s).state = .free))

/-! ## Drive orders (R76, R77) and claims (R61) -/

/-- The unit that operates a crosspoint (R1, R2). -/
def Xp.unit : Xp → DriveUnit
  | .line lt _ => .frame (lineFrame lt)
  | .plane _ c _ => .plane (cordPlane c)
  | .junctor _ c _ => .plane (cordPlane c)

/-- The unit of an action (R1, R2). -/
def Action.unit : Action → DriveUnit
  | .operate x => x.unit
  | .release x => x.unit
  | .ringOn c => .plane (cordPlane c)
  | .ringOff c => .plane (cordPlane c)
  | .reverse c => .plane (cordPlane c)
  | .collect c => .plane (cordPlane c)
  | .refund c => .plane (cordPlane c)

/-- The elements a crosspoint joins (R4). -/
def Xp.elems : Xp → List ElemId
  | .line _ n => [.fl n]
  | .plane n c _ => [.fl n, .cord c]
  | .junctor j c _ => [.junction j, .cord c]

/-- The element a failed order of a crosspoint marks (R79). -/
def Xp.blame : Xp → ElemId
  | .line _ n => .fl n
  | .plane n _ _ => .fl n
  | .junctor j _ _ => .junction j

/-- A crosspoint on the terminating side of its cord, or the line crosspoint of a terminating line. -/
def Xp.isTerm (term : Option Party) : Xp → Bool
  | .line lt _ => decide (term = some (.line lt))
  | .plane _ _ e => decide (e = .t)
  | .junctor _ _ e => decide (e = .t)

/-- The order list of a unit, in the order placed (R76). -/
def orderList (u : DriveUnit) (s : Part) : List Order := s.orders.filter (fun o => decide (o.act.unit = u))

/-- The order a unit has DISPATCHED, the head of its list (R77). -/
def dispatched (u : DriveUnit) (s : Part) : Option Order := (orderList u s).head?

/-- The orders of a call in the table. -/
def ordersOf (id : Nat) (s : Part) : List Order := s.orders.filter (fun o => decide (o.call = id))

/-- An OPERATE order of the call naming an element is in the table (R4). -/
def operating (id : Nat) (e : ElemId) (s : Part) : Bool :=
  (ordersOf id s).any (fun o => match o.act with | .operate x => x.elems.contains e | _ => false)

/-- A RELEASE order of the call naming an element is in the table (R4). -/
def releasingElem (id : Nat) (e : ElemId) (s : Part) : Bool :=
  (ordersOf id s).any (fun o => match o.act with | .release x => x.elems.contains e | _ => false)

/-- The cord an action acts on. -/
def Action.cord? : Action → Option Nat
  | .ringOn c => some c
  | .ringOff c => some c
  | .reverse c => some c
  | .collect c => some c
  | .refund c => some c
  | _ => none

/-- A drive order naming an element is in the table, whatever its call (R8). -/
def ordered (e : ElemId) (s : Part) : Bool :=
  s.orders.any (fun o =>
    match o.act with
    | .operate x => x.elems.contains e
    | .release x => x.elems.contains e
    | act => decide (e = .cord ((act.cord?).getD Config.cords)))

/-- Place an order for a call (R76). -/
def place (id : Nat) (act : Action) (s : Part) : Part :=
  { s with orders := s.orders ++ [{ id := s.serial, call := id, act := act }], serial := s.serial + 1 }

/-- The crosspoint list with a crosspoint's state set, added at the end if it is not listed. -/
def setXp (x : Xp) (st : XpState) : List (Xp × XpState) → List (Xp × XpState)
  | [] => [(x, st)]
  | (y, t) :: l => if y = x then (x, st) :: l else (y, t) :: setXp x st l

/-- Place an OPERATE order; the crosspoint enters the list as OPERATING (R62). -/
def placeOperate (id : Nat) (x : Xp) (s : Part) : Part :=
  place id (.operate x) (modCall id (fun c => { c with xps := setXp x .operating c.xps }) s)

/-- Place a RELEASE order; the crosspoint becomes RELEASING in the list (R62). -/
def placeRelease (id : Nat) (x : Xp) (s : Part) : Part :=
  place id (.release x) (modCall id (fun c => { c with xps := setXp x .releasing c.xps }) s)

/-- The crosspoint leaves the call's list (R62). -/
def dropXp (id : Nat) (x : Xp) (s : Part) : Part :=
  modCall id (fun c => { c with xps := c.xps.filter (fun y => decide (y.1 ≠ x)) }) s

/-- A crosspoint that joins only FAULTY elements, for which no release order is composed (R5, R62). -/
def onlyFaulty (x : Xp) (s : Part) : Bool := x.elems.all (fun e => decide ((elem e s).occ = .faulty))

/-- The operated crosspoints of a call that a release order is composed for (R83). -/
def operatedXps (id : Nat) (s : Part) : List Xp :=
  ((call id s).xps.filter (fun y => decide (y.2 = .operated) && !onlyFaulty y.1 s)).map Prod.fst

/-- The sum of all claims (R61). -/
def claims (s : Part) : Nat := (s.calls.map (fun x => x.2.claim)).sum

/-- The free places of the drive order table (R61). -/
def freePlaces (s : Part) : Nat := Config.orderPlaces - claims s

/-- Set a call's claim (R61). -/
def setClaim (id n : Nat) (s : Part) : Part := modCall id (fun c => { c with claim := n }) s

/-! ## The form of a command's meaning -/

/-- A command changes the part and leaves the queue as it stands. -/
def onPart (f : Part → Part) (s : State) : Host.Outcome State Fault Refusal :=
  .next { s with part := f s.part }

/-! ## Timers (R88) -/

/-- The first-digit limit of the profile in force, in ticks. -/
def firstDigitLimit (s : Part) : Nat :=
  10 * (match s.cal.profile with | .normal => s.timers.firstNormal | .heavy => s.timers.firstHeavy)

/-- The interdigit limit of the profile in force, in ticks. -/
def interdigitLimit (s : Part) : Nat :=
  10 * (match s.cal.profile with | .normal => s.timers.interNormal | .heavy => s.timers.interHeavy)

/-- Start a call timer (R88). -/
def startTimer (id : Nat) (k : TimerKind) (limit : Nat) (s : Part) : Part :=
  modCall id (fun c => { c with timer := some { kind := k, limit := limit } }) s

/-- Start the INTERDIGIT timer under the profile in force (R88, R91). -/
def startInterdigit (id : Nat) (s : Part) : Part := startTimer id .interdigit (interdigitLimit s) s

end Sys2Proof.Machine
end

