-- ==== Sys2Proof/Machine/Flags.lean ====
section
/-!
DEFINITION. The states that follow from others: the freeze, the pace, the save state, the units' state,
and the classification of a scan point.
-/

namespace Sys2Proof.Machine

/-- The Line Scanner is frozen while the battery is in RIDE-THROUGH (R39). -/
def frozen (s : Part) : Bool := decide (s.supply.battery = .rideThrough)

/-- The engine's pace is URGENT (R146). -/
def urgent (s : Part) : Bool := decide (s.supply.battery ≠ .normal)

/-- A drive unit is BUSY while one of its orders is DISPATCHED (R77). -/
def unitBusy (u : DriveUnit) (s : Part) : Bool := (dispatched u s).isSome

/-- Save states of a meter entry (R136). -/
inductive SaveState where
  | clean | listed | writing
  deriving DecidableEq, Repr

/-- The line whose meter write is in progress (R141). -/
def writingLine (s : Part) : Option Nat :=
  match s.meters.engine with
  | .meter lt _ _ => some lt
  | _ => none

/-- The save state of a line's meter entry (R136, R141, R142): WRITING to the end of its write, LISTED
in the dirty list, CLEAN otherwise. -/
def saveState (lt : Nat) (s : Part) : SaveState :=
  if writingLine s = some lt then .writing else if lt ∈ s.meters.dirty then .listed else .clean

/-- The handling of a line as BUSY OUT (R10): its class is UNEQUIPPED or its state BUSY OUT. -/
def Line.out (l : Line) : Bool := decide (l.cls = .unequipped ∨ l.admin = .busyOut)

/-- A line's own point speaks for it (R23): out of a call, or while its call's origin path is moved. -/
def linePointSpeaks (lt : Nat) (s : Part) : Bool :=
  match (line lt s).sup with
  | .inCall id => (call id s).lineSpeaks && decide ((call id s).origin = some (.line lt))
  | _ => true

/-- Kinds of scan point by number (R19). -/
inductive PointKind where
  | line (lt : Nat)
  | oEnd (cord : Nat)
  | tEnd (cord : Nat)
  | coin (cord : Nat)
  | junction (j : Nat)
  deriving DecidableEq, Repr

/-- The five ranges of R19. -/
def pointKind (p : Nat) : PointKind :=
  if p < 2048 then .line p
  else if p < 2144 then .oEnd (p - 2048)
  else if p < 2240 then .tEnd (p - 2144)
  else if p < 2336 then .coin (p - 2240)
  else .junction (p - 2336)

/-- The entry of a point is updated at a scan (R19, R23, R38). -/
def updated (p : Nat) (s : Part) : Bool :=
  match pointKind p with
  | .line lt => !(line lt s).out && linePointSpeaks lt s
  | .oEnd c => decide ((elem (.cord c) s).occ ≠ .free)
  | .tEnd c => decide ((elem (.cord c) s).occ ≠ .free)
  | .coin c => decide ((elem (.cord c) s).occ ≠ .free)
  | .junction j =>
    decide ((junction j s).elem.admin ≠ .busyOut ∧ (junction j s).elem.occ ≠ .faulty)

/-- A point that senses polarity: a junction in outgoing use (R37). -/
def sensesPolarity (p : Nat) (s : Part) : Bool :=
  match pointKind p with
  | .junction j => match (junction j s).sup with | .inCall .outgoing _ => true | _ => false
  | _ => false

/-- What a sample shows at a point (R19, R37). -/
def sampleState (p : Nat) (bit : Bool) (s : Part) : PointState :=
  if sensesPolarity p s then (if bit then .reversed else .normal) else (if bit then .loop else .open_)

/-- A junction point is classified as idle (R34): supervision state IDLE, IN SERVICE or BUSY OUT PENDING, and
FREE or RESERVED. -/
def Junction.idle (r : Junction) : Bool :=
  decide (r.sup = .idle ∧ r.elem.admin ≠ .busyOut ∧ (r.elem.occ = .free ∨ r.elem.occ = .reserved))

/-- The persistence of a change at a point (R21): the frame's seize persistence for OPEN to LOOP on an
idle line, 6 scans on an idle INCOMING or BOTHWAY junction, 2 otherwise. -/
def persistence (p : Nat) (e : ScanEntry) (s : Part) : Nat :=
  if e.accepted = .open_ then
    match pointKind p with
    | .line lt => if (line lt s).sup = .idle then (frame (lineFrame lt) s).seize else 2
    | .junction j =>
      if (junction j s).idle = true ∧ (junction j s).dir ≠ .outgoing then 6 else 2
    | _ => 2
  else 2

/-- The threshold of an event in scans (R22). -/
def ScanEvent.threshold : ScanEvent → Nat
  | .callerClear => 50
  | .parkEnd => 25
  | .digitEnd => 25
  | .calledClear => 50
  | .farEndClear => 50

/-- The states in which a line-originated call's O point is watched for a caller clear (R22). -/
def CallState.clears : CallState → Bool
  | .dialling | .settingTerm | .ringing | .awaitingAnswer | .answered | .calledCleared => true
  | _ => false

/-- The event that R22 arms for a point's classification and accepted state. -/
def armed (p : Nat) (s : Part) : Option ScanEvent :=
  let e := point p s
  match pointKind p with
  | .line lt =>
    if e.accepted ≠ .open_ then none
    else
      match (line lt s).sup with
      | .parked => some .parkEnd
      | .originating => if (callOf (.line lt) s).isSome then some .callerClear else none
      | .inCall id =>
        if linePointSpeaks lt s && (call id s).state.clears then some .callerClear else none
      | .idle => none
  | .oEnd c =>
    match callOfElem (.cord c) s with
    | none => none
    | some id =>
      let r := call id s
      if r.set.cord ≠ some c || r.lineSpeaks then none
      else if e.accepted = .loop then
        (if r.state = .dialling ∧ 1 ≤ e.pulses then some .digitEnd else none)
      else if r.lineOrigin.isSome && r.state.clears then some .callerClear
      else none
  | .tEnd c =>
    match callOfElem (.cord c) s with
    | none => none
    | some id =>
      let r := call id s
      match r.term with
      | some (.line _) =>
        if r.set.cord = some c ∧ r.state = .answered ∧ e.accepted = .open_ then some .calledClear
        else none
      | _ => none
  | .coin _ => none
  | .junction j =>
    if e.accepted ≠ .open_ then none
    else
      match (junction j s).sup with
      | .originating => some .farEndClear
      | .heldUnserved => some .farEndClear
      | .inCall .incoming _ => some .farEndClear
      | _ => none

/-- The armed event of a point has reached its threshold and may be produced (R22, R39). -/
def eventDue (p : Nat) (s : Part) : Option ScanEvent :=
  match (point p s).pending with
  | some ev => if ev.threshold ≤ (point p s).duration ∧ !frozen s then some ev else none
  | none => none

/-- The reserve of the traffic profile in force (R45). -/
def reserveInForce (s : Part) : Nat :=
  match s.cal.profile with
  | .normal => s.timers.reserveNormal
  | .heavy => s.timers.reserveHeavy

/-- A source is usable (R157). -/
def usable (src : Source) (s : Part) : Bool :=
  match src with
  | .station => decide (s.tb.station = .valid)
  | .crystal => decide (s.tb.crystal = .ready)
  | .internal => true

end Sys2Proof.Machine
end

