-- ==== Sys2Proof/Machine/Operands.lean ====
section
/-!
DEFINITION. The fields of frames and records (R176, section 10.3): the codes of enumerated values, the
layouts of summaries, reports and table records, and the bytes of outbound frames.
-/

namespace Sys2Proof.Machine

/-! ## Fields (R176) -/

/-- A field of two bytes, most significant byte first. -/
def b16 (n : Nat) : List Byte := [b8 (n / 256), b8 n]
/-- A field of three bytes, most significant byte first. -/
def b24 (n : Nat) : List Byte := [b8 (n / 65536), b8 (n / 256), b8 n]
/-- An optional field of one byte; absent is every bit one. -/
def o8 (n : Option Nat) : Byte := b8 (n.getD 255)
/-- An optional field of two bytes; absent is every bit one. -/
def o16 (n : Option Nat) : List Byte := b16 (n.getD 65535)
/-- A flag: 1 when set, 0 when clear. -/
def flag (b : Bool) : Byte := if b then 1 else 0

/-! ## Codes of enumerated values, in the order the manual lists them -/

/-- Administrative states. -/
def Admin.code : Admin → Nat
  | .inService => 0 | .busyOut => 1 | .busyOutPending => 2
/-- A written administrative state; BUSY OUT PENDING is taken as BUSY OUT (R176). -/
def Admin.ofCode : Nat → Option Admin
  | 0 => some .inService | 1 => some .busyOut | 2 => some .busyOut | _ => none
/-- Occupancies. -/
def Occupancy.code : Occupancy → Nat
  | .free => 0 | .reserved => 1 | .held => 2 | .releasing => 3 | .faulty => 4
/-- Classes. -/
def LineClass.code : LineClass → Nat
  | .ordinary => 0 | .coin => 1 | .essential => 2 | .unequipped => 3
/-- A written class. -/
def LineClass.ofCode : Nat → Option LineClass
  | 0 => some .ordinary | 1 => some .coin | 2 => some .essential | 3 => some .unequipped | _ => none
/-- Directions. -/
def Direction.code : Direction → Nat
  | .outgoing => 0 | .incoming => 1 | .bothway => 2
/-- A written direction. -/
def Direction.ofCode : Nat → Option Direction
  | 0 => some .outgoing | 1 => some .incoming | 2 => some .bothway | _ => none
/-- Glare preferences. -/
def Glare.code : Glare → Nat
  | .hold => 0 | .yield => 1
/-- A written glare preference. -/
def Glare.ofCode : Nat → Option Glare
  | 0 => some .hold | 1 => some .yield | _ => none
/-- Controllers, as home controllers and owners are coded: none, A, B. -/
def ctlCode : Option Ctl → Nat
  | none => 0 | some .a => 1 | some .b => 2
/-- A written home controller; none is not accepted (R176). -/
def homeOfCode : Nat → Option Ctl
  | 1 => some .a | 2 => some .b | _ => none
/-- Controllers in CONTROLLER ABSENT and CONTROLLER PRESENT, which list no values: A, B (log entry 65). -/
def ctlIndex : Ctl → Nat
  | .a => 0 | .b => 1
/-- Periods. -/
def Period.code : Period → Nat
  | .day => 0 | .evening => 1 | .night => 2 | .holiday => 3
/-- A written period. -/
def Period.ofCode : Nat → Option Period
  | 0 => some .day | 1 => some .evening | 2 => some .night | 3 => some .holiday | _ => none
/-- Profiles. -/
def Profile.code : Profile → Nat
  | .normal => 0 | .heavy => 1
/-- A written profile. -/
def Profile.ofCode : Nat → Option Profile
  | 0 => some .normal | 1 => some .heavy | _ => none
/-- Sources. -/
def Source.code : Source → Nat
  | .station => 0 | .crystal => 1 | .internal => 2
/-- A written source. -/
def Source.ofCode : Nat → Option Source
  | 0 => some .station | 1 => some .crystal | 2 => some .internal | _ => none
/-- Crystal states. -/
def Crystal.code : Crystal → Nat
  | .stopped => 0 | .starting => 1 | .ready => 2
/-- Station states. -/
def Station.code : Station → Nat
  | .absent => 0 | .qualifying => 1 | .valid => 2
/-- Battery states. -/
def Battery.code : Battery → Nat
  | .normal => 0 | .low => 1 | .rideThrough => 2
/-- Start-up causes. -/
def Cause.code : Cause → Nat
  | .powerOn => 0 | .battery => 1
/-- Call states, in the order of R85. -/
def CallState.code : CallState → Nat
  | .free => 0 | .settingOrigin => 1 | .dialling => 2 | .settingTerm => 3 | .ringing => 4
  | .awaitingAnswer => 5 | .answered => 6 | .calledCleared => 7 | .releasing => 8 | .closed => 9
/-- The call states in the order of R85. -/
def callStates : List CallState :=
  [.free, .settingOrigin, .dialling, .settingTerm, .ringing, .awaitingAnswer, .answered,
    .calledCleared, .releasing, .closed]
/-- Call timer kinds, none first. -/
def timerCode : Option CallTimer → Nat
  | none => 0
  | some t => match t.kind with | .firstDigit => 1 | .interdigit => 2 | .noAnswer => 3 | .hold => 4
/-- Release reasons, none first. -/
def reasonCode : Option Reason → Nat
  | none => 0
  | some .callerCleared => 1 | some .calledCleared => 2 | some .dialTimeout => 3
  | some .noAnswer => 4 | some .creditExhausted => 5 | some .controller => 6
  | some .maintenance => 7 | some .reswitchFailed => 8 | some .restart => 9
/-- Supervision states of a line. -/
def LineSup.code : LineSup → Nat
  | .idle => 0 | .originating => 1 | .inCall _ => 2 | .parked => 3
/-- Accepted states. -/
def PointState.code : PointState → Nat
  | .open_ => 0 | .loop => 1 | .normal => 2 | .reversed => 3
/-- Pending events, none first. -/
def eventCode : Option ScanEvent → Nat
  | none => 0
  | some .callerClear => 1 | some .parkEnd => 2 | some .digitEnd => 3 | some .calledClear => 4
  | some .farEndClear => 5
/-- Save states. -/
def SaveState.code : SaveState → Nat
  | .clean => 0 | .listed => 1 | .writing => 2
/-- Result codes, in the order of section 10.3. -/
def ResultCode.code : ResultCode → Nat
  | .done => 0 | .doneClamped => 1 | .busy => 2 | .format => 3 | .notReady => 4 | .badState => 5
  | .notOwner => 6 | .noSuch => 7 | .lineBusy => 8 | .congested => 9 | .unavailable => 10
  | .held => 11
/-- Kind of a party: LINE, JUNCTION. -/
def partyCode : Party → Nat
  | .line _ => 0 | .junction _ => 1
/-- Number of a party. -/
def partyNumber : Party → Nat
  | .line lt => lt | .junction j => j

/-- The place of a notice kind in the kind order (R178). -/
def CallKind.rank : CallKind → Nat
  | .callTransferred => 0 | .originReady => 1 | .incomingReady => 2 | .setFailed => 3 | .ringing => 4
  | .awaitingAnswer => 5 | .digit => 6 | .digitFault => 7 | .digitOverflow => 8 | .answered => 9
  | .calledCleared => 10 | .ringFault => 11 | .depositDue => 12 | .cleared => 13

/-- The notice code on a controller port: its position in the table of section 10.4. -/
def CallKind.code : CallKind → Nat
  | .originReady => 1 | .incomingReady => 2 | .digit => 3 | .digitFault => 4 | .digitOverflow => 5
  | .ringing => 6 | .awaitingAnswer => 7 | .setFailed => 8 | .answered => 9 | .calledCleared => 10
  | .depositDue => 11 | .ringFault => 12 | .callTransferred => 13 | .cleared => 14

/-- The notice code on the maintenance port: its position in the table of section 10.4. -/
def MaintKind.code : MaintKind → Nat
  | .controllerAbsent _ => 1 | .controllerPresent _ => 2 | .elementFaulty => 3
  | .timebaseFallback => 4 | .timebaseRestored => 5 | .batteryLow => 6 | .batteryNormal => 7
  | .rollover => 8 | .nvFault => 9 | .coinFault => 10 | .configurationSaved => 11

/-! ## Outbound frames (R176) -/

/-- The bytes of a notice on a port: kind NOTICE, notice code, data. -/
def Notice.bytes (p : Port) : Notice → List Byte
  | .call k _ data =>
    (match p with
      | .ctl _ => [b8 1, b8 k.code]
      | .maint => [b8 1, b8 12]) ++ data
  | .peer present => [b8 1, b8 (if present then 16 else 15)]
  | .maint k merged data => [b8 1, b8 k.code, b8 merged] ++ data

/-- The bytes of an outbound frame on a port: a reply is kind REPLY, tag, result code, data. -/
def OutFrame.bytes (p : Port) : OutFrame → List Byte
  | .reply r => [b8 0, r.tag, b8 r.code.code] ++ r.data
  | .notice n => n.bytes p

/-! ## Summaries and reports (section 10.3) -/

/-- The kind and number of a terminating side, or none and absent. -/
def termFields : Option Party → Byte × List Byte
  | none => (0, o16 none)
  | some x => (b8 (partyCode x + 1), b16 (partyNumber x))

/-- The set whose cord and origin frame link a summary gives: during a reswitch the old set. -/
def Call.shownSet (c : Call) : ElemSet := if c.reswitch then c.old else c.set

/-- The terminating frame link of a call; during a reswitch that of the new set. -/
def Call.termFl (c : Call) : Option Nat := if c.reswitch then c.new.tfl else c.set.tfl

/-- The call summary of a record (R106), 36 bytes and the digits. The credit, the owed units and the deposits of a
record without a coin context are 0 (log entry 53); the cord of a record whose set names none is absent, and
during a reswitch the cord and the origin's frame link are those of the old set, which may have become empty
(log entries 23 and 60). -/
def callSummary (id : Nat) (s : Part) : List Byte :=
  let c := call id s
  let origin := c.origin.getD (.line 0)
  let term := termFields c.term
  [b8 id, b8 c.state.code, b8 (ctlCode c.owner), b8 (partyCode origin)] ++ b16 (partyNumber origin) ++
    o16 c.shownSet.fl ++
    [o8 c.shownSet.cord, o8 (if c.reswitch then c.new.cord else none), flag c.reswitch, term.1] ++
    term.2 ++ o16 c.termFl ++ [o8 c.band, b8 (timerCode c.timer)] ++
    o16 (c.timer.map (fun t => t.limit - t.count)) ++ b16 c.units ++ b24 c.accum ++
    [flag c.degraded, flag c.coin.isSome, b8 ((c.coin.map Coin.credit).getD 0),
      b8 ((c.coin.map Coin.owed).getD 0)] ++
    b16 ((c.coin.map Coin.deposits).getD 0) ++
    o16 ((c.coin.bind Coin.grace).map (fun g => g.1 - g.2)) ++
    [flag c.relPending, b8 (reasonCode c.reason), b8 c.digits.length] ++ c.digits.map b8

/-- The number of the point that speaks for a line (R23, R173): for a line IN CALL the cord point, and once the
cord has left the record the line's own (log entry 52). -/
def speakingPoint (lt : Nat) (s : Part) : Nat :=
  match (line lt s).sup with
  | .inCall id =>
    let c := call id s
    if linePointSpeaks lt s then lt
    else if c.term = some (.line lt) then
      match (if c.reswitch then c.new.cord else c.set.cord) with
      | some cord => tPoint cord
      | none => lt
    else
      match c.set.cord with
      | some cord => oPoint cord
      | none => lt
  | _ => lt

/-- The line summary of a line (R173), 15 bytes. -/
def lineSummary (lt : Nat) (s : Part) : List Byte :=
  let l := line lt s
  let p := speakingPoint lt s
  let e := point p s
  b16 lt ++
    [b8 l.cls.code, o8 (l.pendCls.map LineClass.code), b8 l.admin.code, b8 l.sup.code,
      o8 (match l.sup with | .inCall id => some id | _ => none), flag l.marked,
      flag (s.orig.queue.any (fun w => decide (w.origin = .line lt)))] ++
    b16 p ++ [b8 e.accepted.code] ++ b16 e.duration ++ [b8 (eventCode e.pending)]

/-- A stamp (R150), 6 bytes. -/
def Stamp.bytes (t : Stamp) : List Byte :=
  [b8 t.day] ++ b16 t.minute ++ [b8 t.second, b8 t.tenth, flag t.valid]

/-- The time of week with its validity, as a stamp (R150, R161). -/
def timeStamp (s : Part) : Stamp :=
  { day := s.tb.day, minute := s.tb.minute, second := s.tb.second, tenth := s.tb.tenth,
    valid := s.tb.valid }

/-- The time report (R162), 21 bytes. -/
def timeReport (s : Part) : List Byte :=
  (timeStamp s).bytes ++
    [b8 s.tb.selection.code, b8 s.tb.crystal.code, b8 s.tb.station.code] ++ b16 s.tb.count ++
    b16 s.tb.requirement ++
    [b8 s.tb.preferred.code, flag s.tb.fallback, b8 s.cal.period.code, b8 s.cal.calPeriod.code,
      b8 s.cal.profile.code, o8 s.cal.entry, flag s.cal.force.isSome,
      o8 (s.cal.force.map Period.code)]

/-- The number of call records in a state (R85). -/
def countState (st : CallState) (s : Part) : Nat :=
  ((List.range Config.calls).filter (fun id => decide ((call id s).state = st))).length

/-- The number of marked origins (R43). -/
def markedCount (s : Part) : Nat :=
  (s.net.lines.filter (fun x => x.2.marked)).length +
    (s.net.junctions.filter (fun x => x.2.marked)).length

/-- The number of lines carrying NV FAULT (R140). -/
def faultCount (s : Part) : Nat := (s.meters.entries.filter (fun x => x.2.nvFault)).length

/-- The status report (R175), 32 bytes. -/
def statusReport (s : Part) : List Byte :=
  [flag s.supply.inService, b8 s.supply.cause.code, b8 s.supply.battery.code, flag s.a.present,
      flag s.b.present] ++
    callStates.map (fun st => b8 (countState st s)) ++ [b8 s.orig.queue.length] ++
    b16 (markedCount s) ++ [b8 s.orders.length, b8 (claims s)] ++ b16 s.meters.dirty.length ++
    b16 (faultCount s) ++
    [flag (urgent s), b8 s.a.io.queue.length, b8 s.b.io.queue.length, b8 s.m.io.queue.length] ++
    b16 s.m.lost ++ b16 s.supply.sample

/-- A meter item (R149), 4 bytes. -/
def meterItem (lt : Nat) (s : Part) : List Byte :=
  let e := meter lt s
  b24 e.count ++
    [b8 ((if e.rollover then 1 else 0) + (if e.nvFault then 2 else 0) + 4 * (saveState lt s).code)]

/-- A snapshot item (R151), 4 bytes. -/
def snapshotItem (lt : Nat) (t : Snapshot) : List Byte :=
  let v := Table.get {} t.items lt
  b24 v.count ++ [flag v.rollover]

/-- The increment of a unit period (R110): ceiling(Q / P), and 0 for P = 0. -/
def increment (p : Nat) : Nat := if p = 0 then 0 else (Config.q + p - 1) / p

/-! ## Table records (section 10.3) -/

/-- A LINE record. -/
def lineRecord (i : Nat) (s : Part) : List Byte :=
  let l := line i s
  [b8 l.cls.code, b8 l.admin.code, o8 (l.pendCls.map LineClass.code)]
/-- A FRAME record. -/
def frameRecord (i : Nat) (s : Part) : List Byte :=
  [b8 (ctlCode (frame i s).home), b8 (frame i s).seize]
/-- A ROUTE record. -/
def routeRecord (i : Nat) (s : Part) : List Byte :=
  [b8 (ctlCode (route i s).home), b8 (route i s).hunt]
/-- A JUNCTION record; a route of none reads as absent (log entry 56). -/
def junctionRecord (i : Nat) (s : Part) : List Byte :=
  let j := junction i s
  [o8 j.route, b8 j.dir.code, b8 j.glare.code, b8 j.elem.admin.code, b8 j.elem.occ.code,
    o8 j.pendRoute, o8 (j.pendDir.map Direction.code)]
/-- A FRAME LINK or CORD record. -/
def elemRecord (e : ElemId) (s : Part) : List Byte := [b8 (elem e s).admin.code, b8 (elem e s).occ.code]
/-- A TARIFF record. -/
def tariffRecord (i : Nat) (s : Part) : List Byte :=
  let t := Table.get {} s.charge.tariff i
  b16 t.unitPeriod ++ [b8 t.answerUnits] ++ b24 (increment t.unitPeriod)
/-- A CALENDAR record. -/
def calRecord (i : Nat) (s : Part) : List Byte :=
  let e := Table.get {} s.cal.entries i
  [e.mask] ++ b16 e.minute ++ [b8 e.period.code, b8 e.profile.code]
/-- The TIMER record. -/
def timerRecord (s : Part) : List Byte :=
  let t := s.timers
  [b8 t.firstNormal, b8 t.firstHeavy, b8 t.interNormal, b8 t.interHeavy, b8 t.reserveNormal,
      b8 t.reserveHeavy] ++ b16 t.noAnswer ++
    [b8 t.hold, b8 t.waitLimit, b8 t.grace, b8 t.prioServer, b8 t.prioA, b8 t.prioB,
      b8 t.prioRelease]

/-- A record of a table by its code, as it stands (R16, section 10.3). -/
def tableRecord (table i : Nat) (s : Part) : List Byte :=
  match table with
  | 0 => lineRecord i s
  | 1 => frameRecord i s
  | 2 => routeRecord i s
  | 3 => junctionRecord i s
  | 4 => elemRecord (.fl i) s
  | 5 => elemRecord (.cord i) s
  | 6 => tariffRecord i s
  | 7 => calRecord i s
  | 8 => timerRecord s
  | 9 => [b8 s.tb.preferred.code]
  | _ => []

/-- The number of records of a table, by its code (section 11.4). -/
def tableLength : Nat → Nat
  | 0 => 2048 | 1 => 32 | 2 => 8 | 3 => 48 | 4 => 384 | 5 => 96 | 6 => 64 | 7 => 16 | 8 => 1
  | 9 => 1 | _ => 0

/-- A value clamped to a range (R16). -/
def clamp (lo hi n : Nat) : Nat := if n < lo then lo else if hi < n then hi else n

end Sys2Proof.Machine
end

