-- ==== Sys2Proof/Machine/Server.lean ====
section
/-!
DEFINITION. The Origination Server's tests (sections 3.2 and 3.3): the handling controller, admission,
whether an origin can be served now, the work it would choose, and its request at the arbiter.
-/

namespace Sys2Proof.Machine

/-- The home controller of an origin: of the line's frame, or of the junction's route (R44). -/
def homeOf (o : Party) (s : Part) : Option Ctl :=
  match o with
  | .line lt => (frame (lineFrame lt) s).home
  | .junction j => (junction j s).route.bind (fun r => (route r s).home)

/-- The handling controller of an origin (R44). -/
def handling (o : Party) (s : Part) : Option Ctl :=
  match homeOf o s with
  | none => none
  | some c =>
    if (ctl c s).present then some c
    else if (ctl (otherCtl c) s).present then some (otherCtl c)
    else none

/-- Admission of an origin (R45). -/
def admitted (o : Party) (s : Part) : Bool :=
  match o with
  | .line lt =>
    match (line lt s).cls with
    | .ordinary => decide (reserveInForce s < cordCount s)
    | .coin => decide (reserveInForce s < cordCount s)
    | .essential => true
    | .unequipped => false
  | .junction _ => true

/-- A path exists for an origin (R46). -/
def pathExists (o : Party) (s : Part) : Bool :=
  match o with
  | .line lt =>
    (List.range Config.planes).any (fun k =>
      avail (.fl (flNumber (lineFrame lt) k)) s && (lowestCord k s).isSome)
  | .junction j => (lowestCord (junctionPlane j) s).isSome

/-- An origin can be served now (R46). -/
def canServe (o : Party) (s : Part) : Bool :=
  (handling o s).isSome && admitted o s && (lowestFree s).isSome && pathExists o s

/-- The marked origins in scan order from the point after the rotating pointer, cyclically (R48). -/
def markedOrigins (s : Part) : List Party :=
  let all := (s.net.lines.filter (fun x => x.2.marked)).map (fun x => Party.line x.1) ++
    (s.net.junctions.filter (fun x => x.2.marked)).map (fun x => Party.junction x.1)
  all.filter (fun o => decide (s.orig.pointer < partyPoint o)) ++
    all.filter (fun o => decide (partyPoint o ≤ s.orig.pointer))

/-- A re-hunt entry is a candidate: WAITING, and its call names no junction (R47, R57). -/
def rehuntReady (e : Rehunt) (s : Part) : Bool :=
  !e.made && decide ((call e.call s).term = none) && decide ((call e.call s).set.tjunction = none)

/-- A marked origin is a candidate (R47). -/
def markedCandidate (o : Party) (s : Part) : Bool :=
  (handling o s).isSome && (canServe o s || decide (s.orig.queue.length < Config.waitPlaces))

/-- One piece of the server's work (R48). -/
inductive Work where
  | rehunt (e : Rehunt)
  | serve (o : Party)
  | enqueue (o : Party)
  deriving DecidableEq, Repr

/-- The work R48 chooses: the oldest re-hunt, else the first queued origin that can be served now, else
the first marked candidate, served if it can be and queued if not. -/
def chooseWork (s : Part) : Option Work :=
  match s.orig.rehunts.find? (fun e => rehuntReady e s) with
  | some e => some (.rehunt e)
  | none =>
    match s.orig.queue.find? (fun w => canServe w.origin s) with
    | some w => some (.serve w.origin)
    | none =>
      match (markedOrigins s).find? (fun o => markedCandidate o s) with
      | some o => some (if canServe o s then .serve o else .enqueue o)
      | none => none

/-- The worst case of a piece of work (R47, R59): that of a junction extension for a re-hunt, that of an
origin otherwise. -/
def Work.worst (s : Part) : Work → Nat
  | .rehunt e => 1 + (call e.call s).answerPlaces
  | .serve _ => 2
  | .enqueue _ => 2

/-- The claim a piece of work needs (R48, R61). -/
def Work.need (s : Part) : Work → Nat
  | .rehunt e => 1 + (call e.call s).answerPlaces
  | .serve _ => 2
  | .enqueue _ => 0

/-- The server tests for candidates at a retry trigger, and places, changes or withdraws its request
(R47). -/
def retry (s : Part) : Part := { s with orig.request := (chooseWork s).map (Work.worst s) }

/-- An origin's entry leaves the wait queue, if it has one, which is a retry trigger (R53, R47). -/
def dequeue (o : Party) (s : Part) : Part :=
  if s.orig.queue.any (fun w => decide (w.origin = o)) then
    retry { s with orig.queue := s.orig.queue.filter (fun w => decide (w.origin ≠ o)) }
  else s

/-- A call's re-hunt entry is removed, if it has one, which is a retry trigger (R57, R47). -/
def dropRehunt (id : Nat) (s : Part) : Part :=
  if s.orig.rehunts.any (fun e => decide (e.call = id)) then
    retry { s with orig.rehunts := s.orig.rehunts.filter (fun e => decide (e.call ≠ id)) }
  else s

end Sys2Proof.Machine
end

