-- ==== Sys2Proof/Machine/Notices.lean ====
section
/-!
DEFINITION. The ports (chapter 10): what is sent next, replies, the notice queues, the pending sets and
their entry into the queues.
-/

namespace Sys2Proof.Machine

/-! ## The links (R169) -/

/-- What a port holds for its link. -/
def io (p : Port) (s : Part) : PortIo :=
  match p with
  | .ctl c => (ctl c s).io
  | .maint => s.m.io

/-- Change what a port holds for its link. -/
def modIo (p : Port) (f : PortIo → PortIo) (s : Part) : Part :=
  match p with
  | .ctl c => modCtl c (fun x => { x with io := f x.io }) s
  | .maint => modMaint (fun x => { x with io := f x.io }) s

/-- If the data-out line is free, the next frame is chosen: the oldest waiting reply, else the notice at
the head of the queue, which leaves its queue (R169). -/
def PortIo.kick (x : PortIo) : PortIo :=
  match x.sending with
  | some _ => x
  | none =>
    match x.replies with
    | r :: rs => { x with sending := some (.reply r), replies := rs }
    | [] =>
      match x.queue with
      | n :: ns => { x with sending := some (.notice n), queue := ns }
      | [] => x

/-- A reply is built: it waits behind the replies built before it (R171). -/
def reply (p : Port) (tag : Byte) (code : ResultCode) (data : List Byte) (s : Part) : Part :=
  modIo p
    (fun x => PortIo.kick { x with replies := x.replies ++ [{ tag := tag, code := code, data := data }] }) s

/-- An immediate reply: discarded if one is already waiting (R170). -/
def immediate (p : Port) (tag : Byte) (code : ResultCode) (s : Part) : Part :=
  if (io p s).replies.any (fun r => r.immediate) then s
  else
    modIo p
      (fun x => PortIo.kick
        { x with replies := x.replies ++ [{ tag := tag, code := code, immediate := true }] }) s

/-- The capacity of a port's notice queue (R177). -/
def queueSize : Port → Nat
  | .ctl _ => Config.ctlQueue
  | .maint => Config.maintQueue

/-- A port's queue has room (R177). -/
def room (p : Port) (s : Part) : Bool := decide ((io p s).queue.length < queueSize p)

/-- A notice enters a port's queue at the tail (R177). -/
def enter (p : Port) (n : Notice) (s : Part) : Part :=
  modIo p (fun x => PortIo.kick { x with queue := x.queue ++ [n] }) s

/-! ## Call-bound notices (R177, R178) -/

/-- A call record becomes FREE with every field cleared, a retry trigger (R87, R102). -/
def freeRecord (id : Nat) (s : Part) : Part := retry (modCall id (fun _ => {}) s)

/-- The data of a call-bound notice as it enters a queue (R177): built from the record for DIGIT,
DEPOSIT DUE and CLEARED, fixed at raising otherwise. A DEPOSIT DUE that enters while its grace timer is IDLE
carries 0 grace ticks (log entry 57). -/
def noticeData (id : Nat) (k : CallKind) (fixed : List Byte) (s : Part) : List Byte :=
  let c := call id s
  match k with
  | .digit => [b8 id, b8 c.digits.length, b8 ((c.digits.getLast?).getD 0)]
  | .depositDue =>
    [b8 id, b8 ((c.coin.map Coin.credit).getD 0), b8 ((c.coin.map Coin.owed).getD 0)] ++
      b16 (((c.coin.bind Coin.grace).map (fun g => g.1 - g.2)).getD 0)
  | .cleared =>
    let origin := c.origin.getD (.line 0)
    [b8 id, b8 (partyCode origin)] ++ b16 (partyNumber origin) ++ [b8 (reasonCode c.reason)] ++
      b16 c.units ++ [o8 c.band, flag c.degraded] ++ b16 ((c.coin.map Coin.deposits).getD 0) ++
      [b8 c.digits.length] ++ c.digits.map b8
  | _ => fixed

/-- A call-bound notice enters a port's queue; a CLEARED that enters frees its record (R102). -/
def enterCall (p : Port) (id : Nat) (k : CallKind) (fixed : List Byte) (s : Part) : Part :=
  let s := enter p (.call k id (noticeData id k fixed s)) s
  if k = .cleared then freeRecord id s else s

/-- A pending set with a notice set in it, in kind order; a notice of its kind is replaced (R178). -/
def setPending (k : CallKind) (fixed : List Byte) : List (CallKind × List Byte) → List (CallKind × List Byte)
  | [] => [(k, fixed)]
  | (j, d) :: l =>
    if j = k then (k, fixed) :: l
    else if k.rank < j.rank then (k, fixed) :: (j, d) :: l
    else (j, d) :: setPending k fixed l

/-- The next record of a controller with notices pending, from the id after its rotating pointer,
cyclically (R179); one that has come to hold notices since the queue filled is found before the partly emptied one it
stands ahead of (log entry 68). -/
def nextHeld (c : Ctl) (s : Part) : Option Nat :=
  let ids := callsWith (fun r => decide (r.owner = some c) && !r.pend.isEmpty) s
  match ids.find? (fun id => decide ((ctl c s).pointer < id)) with
  | some id => some id
  | none => ids.head?

/-- One held notice of a controller enters its queue, if there is room and one is held: the peer item
first, then the records in turn, each in kind order (R179). -/
def drainOne (c : Ctl) (s : Part) : Option Part :=
  if !room (.ctl c) s then none
  else
    match (ctl c s).peer with
    | some present =>
      some (enter (.ctl c) (.peer present) (modCtl c (fun x => { x with peer := none }) s))
    | none =>
      match nextHeld c s with
      | none => none
      | some id =>
        match (call id s).pend with
        | [] => none
        | (k, d) :: rest =>
          let t := modCall id (fun r => { r with pend := rest }) s
          let t := if rest = [] then modCtl c (fun x => { x with pointer := id }) t else t
          some (enterCall (.ctl c) id k d t)

/-- The maintenance CLEARED next in turn: a CLOSED record without owner whose CLEARED is pending, from
the id after the rotating pointer, cyclically (R181). -/
def nextOwnerless (s : Part) : Option Nat :=
  let ids := callsWith
    (fun r => decide (r.owner = none ∧ r.state = .closed) && r.pend.any (fun x => decide (x.1 = .cleared))) s
  match ids.find? (fun id => decide (s.m.pointer < id)) with
  | some id => some id
  | none => ids.head?

/-- One held maintenance notice enters the queue, if there is room and one is held: the pending set in
its order, then the ownerless CLEARED notices (R181). -/
def drainMaintOne (s : Part) : Option Part :=
  if !room .maint s then none
  else
    match s.m.held with
    | (k, n, d) :: rest => some (enter .maint (.maint k n d) (modMaint (fun x => { x with held := rest }) s))
    | [] =>
      match nextOwnerless s with
      | none => none
      | some id => some (enterCall .maint id .cleared [] (modMaint (fun x => { x with pointer := id }) s))

/-- Repeat a step while it can be made, at most `n` times. -/
def repeatStep (f : Part → Option Part) : Nat → Part → Part
  | 0, s => s
  | n + 1, s => match f s with | some t => repeatStep f n t | none => s

/-- The held notices of a controller enter its queue until it is full or nothing is held (R179): at
most one more than the queue's capacity, since a notice may begin to be sent meanwhile. -/
def drainCtl (c : Ctl) (s : Part) : Part := repeatStep (drainOne c) (Config.ctlQueue + 1) s

/-- The held maintenance notices enter the queue until it is full or nothing is held (R181). -/
def drainMaint (s : Part) : Part := repeatStep drainMaintOne (Config.maintQueue + 1) s

/-- A call-bound notice is raised (R178): it enters the owner's queue at once if there is room and the
record's pending set is empty, and is set pending otherwise. -/
def raiseCall (id : Nat) (k : CallKind) (fixed : List Byte) (s : Part) : Part :=
  match (call id s).owner with
  | some c =>
    if room (.ctl c) s && (call id s).pend.isEmpty then enterCall (.ctl c) id k fixed s
    else drainCtl c (modCall id (fun r => { r with pend := setPending k fixed r.pend }) s)
  | none => modCall id (fun r => { r with pend := setPending k fixed r.pend }) s

/-- A call-bound notice that carries the call id alone. -/
def raisePlain (id : Nat) (k : CallKind) (s : Part) : Part := raiseCall id k [b8 id] s

/-- PEER ABSENT or PEER PRESENT is raised for a controller, if it is PRESENT (R178). -/
def raisePeer (c : Ctl) (present : Bool) (s : Part) : Part :=
  if !(ctl c s).present then s
  else if room (.ctl c) s && (ctl c s).peer.isNone then enter (.ctl c) (.peer present) s
  else modCtl c (fun x => { x with peer := some present }) s

/-! ## Maintenance notices (R180) -/

/-- The pending set of the maintenance port with a notice merged in: an entry of its kind is replaced,
counted and moved to the tail (R180). -/
def mergeHeld (k : MaintKind) (d : List Byte) (l : List (MaintKind × Nat × List Byte)) :
    List (MaintKind × Nat × List Byte) :=
  match l.find? (fun x => decide (x.1 = k)) with
  | some (_, n, _) =>
    l.filter (fun x => decide (x.1 ≠ k)) ++ [(k, min (n + 1) Config.mergedTop, d)]
  | none => l ++ [(k, 0, d)]

/-- A maintenance notice is raised (R180). -/
def raiseMaint (k : MaintKind) (d : List Byte) (s : Part) : Part :=
  if room .maint s && s.m.held.isEmpty then enter .maint (.maint k 0 d) s
  else drainMaint (modMaint (fun x => { x with held := mergeHeld k d x.held }) s)

/-- An outbound frame ends and the next is chosen; a notice that begins frees its room, and the held
notices enter (R169, R179, R181). -/
def frameEnd (p : Port) (s : Part) : Part :=
  match (io p s).sending with
  | none => s
  | some _ =>
    let s := modIo p (fun x => PortIo.kick { x with sending := none }) s
    match p with
    | .ctl c => drainCtl c s
    | .maint => drainMaint s

end Sys2Proof.Machine
end

