-- ==== Sys2Proof/Machine/Meters.lean ====
section
/-!
DEFINITION. The Meter Store (chapter 8): increments, the dirty list, the nonvolatile write engine, the
configuration save, the snapshot table and the meter readout.
-/

namespace Sys2Proof.Machine

/-! ## The nonvolatile write engine (section 8.3) -/

/-- Change the Meter Store. -/
def modMeters (f : MeterStore → MeterStore) (s : Part) : Part := { s with meters := f s.meters }

/-- The write of the head of the dirty list starts, with the entry's value at that moment (R141). -/
def startMeterWrite (s : Part) : Part :=
  match s.meters.dirty with
  | [] => s
  | lt :: rest =>
    let e := meter lt s
    modMeters (fun m =>
      { m with dirty := rest, engine := .meter lt { count := e.count, rollover := e.rollover } false }) s

/-- An ordered administrative state, as the image holds it (R17). -/
def Admin.saved : Admin → Admin
  | .inService => .inService
  | _ => .busyOut

/-- The value of the `i`-th write of a save (R191, R17): the marker cleared, the records of the ten
tables in table order, the marker set. -/
def configValue (i : Nat) (s : Part) : ConfigValue :=
  if i = 0 then .marker false
  else if i < 2049 then
    let l := line (i - 1) s
    .line (i - 1) { cls := l.pendCls.getD l.cls, admin := l.admin.saved }
  else if i < 2081 then
    let f := frame (i - 2049) s
    .frame (i - 2049) { home := f.home, seize := f.seize }
  else if i < 2089 then .route (i - 2081) { home := (route (i - 2081) s).home }
  else if i < 2137 then
    let j := junction (i - 2089) s
    .junction (i - 2089)
      { route := j.pendRoute.or j.route, dir := j.pendDir.getD j.dir, glare := j.glare,
        elem := { admin := j.elem.admin.saved } }
  else if i < 2521 then .fl (i - 2137) { admin := (elem (.fl (i - 2137)) s).admin.saved }
  else if i < 2617 then .cord (i - 2521) { admin := (elem (.cord (i - 2521)) s).admin.saved }
  else if i < 2681 then .tariff (i - 2617) (Table.get {} s.charge.tariff (i - 2617))
  else if i < 2697 then .entry (i - 2681) (Table.get {} s.cal.entries (i - 2681))
  else if i = 2697 then .timers s.timers
  else if i = 2698 then .preferred s.tb.preferred
  else .marker true

/-- The image with one write's value in it (R191). -/
def Image.store (v : ConfigValue) (x : Image) : Image :=
  match v with
  | .marker b => { x with marker := b }
  | .line i r => { x with lines := Table.put {} x.lines i r }
  | .frame i r => { x with frames := Table.put {} x.frames i r }
  | .route i r => { x with routes := Table.put {} x.routes i r }
  | .junction i r => { x with junctions := Table.put {} x.junctions i r }
  | .fl i r => { x with fls := Table.put {} x.fls i r }
  | .cord i r => { x with cords := Table.put {} x.cords i r }
  | .tariff i r => { x with tariff := Table.put {} x.tariff i r }
  | .entry i r => { x with entries := Table.put {} x.entries i r }
  | .timers r => { x with timers := r }
  | .preferred r => { x with preferred := r }

/-- The next configuration write of a save starts (R147, R191). -/
def startConfigWrite (v : Save) (s : Part) : Part :=
  let w := configValue v.next s
  modMeters (fun m => { m with engine := .config w false, save := some { v with configLast := true } }) s

/-- The engine chooses its next write at the moment it is IDLE (R146, R147); none once a battery reset
has been decided (R148). A save's first write comes before the dirty list, in URGENT too (log entry 62). -/
def nextWrite (s : Part) : Part :=
  if s.meters.engine ≠ .idle ∨ s.supply.decided = true then s
  else
    match s.meters.save with
    | some v =>
      if v.next = 0 then startConfigWrite v s
      else if s.meters.dirty ≠ [] ∧ (urgent s = true ∨ v.configLast = true) then
        startMeterWrite (modMeters (fun m => { m with save := some { v with configLast := false } }) s)
      else startConfigWrite v s
    | none => if urgent s = true ∧ s.meters.dirty ≠ [] then startMeterWrite s else s

/-- A trickle slot (R145). -/
def trickle (s : Part) : Part :=
  if s.meters.engine = .idle ∧ s.meters.save = none ∧ urgent s = false ∧ s.supply.decided = false then
    startMeterWrite s
  else s

/-- The engine becomes IDLE and chooses its next write (R141, R148). -/
def engineIdle (s : Part) : Part := nextWrite (modMeters (fun m => { m with engine := .idle }) s)

/-- A meter write ends verified: its record holds the value written (R141). -/
def meterWritten (lt : Nat) (v : MeterValue) (s : Part) : Part :=
  engineIdle (modMeters (fun m => { m with records := Table.put {} m.records lt v }) s)

/-- The value a failed or cut-short meter write leaves in its record (R139): a FREE VALUE within the
range of a count. -/
def failedValue (n : Nat) : MeterValue :=
  { count := Config.failedCount n % Config.meterTop, rollover := Config.failedFlag n }

/-- The line's record holds what a failed write left (R139, R143). -/
def spoilRecord (lt : Nat) (s : Part) : Part :=
  let s := modMeters (fun m => { m with records := Table.put {} m.records lt (failedValue s.fresh) }) s
  { s with fresh := s.fresh + 1 }

/-- A meter write's retry has failed (R143): NV FAULT is set, the line leaves the dirty list, and NV FAULT
is queued with the count of the value written. -/
def meterFault (lt : Nat) (v : MeterValue) (s : Part) : Part :=
  let s := spoilRecord lt s
  let s := modMeter lt (fun e => { e with nvFault := true }) s
  let s := modMeters (fun m => { m with dirty := m.dirty.filter (fun x => decide (x ≠ lt)) }) s
  let s := raiseMaint .nvFault (b16 lt ++ b24 v.count) s
  engineIdle s

/-- CONFIGURATION SAVED is queued and the save ends (R191). -/
def endSave (complete : Bool) (records : Nat) (s : Part) : Part :=
  let s := modMeters (fun m => { m with save := none }) s
  engineIdle (raiseMaint .configurationSaved ([b8 (if complete then 0 else 1)] ++ b16 records) s)

/-- Configuration records a verified write adds to the count of the notice: the marker's writes are not
records (R191). -/
def ConfigValue.counts : ConfigValue → Nat
  | .marker _ => 0
  | _ => 1

/-- A configuration write ends verified (R191). The save's last ends it COMPLETE, also where a battery reset has been
decided meanwhile and waits for this write (log entry 69). -/
def configWritten (w : ConfigValue) (s : Part) : Part :=
  let s := modMeters (fun m => { m with image := m.image.store w }) s
  match s.meters.save with
  | none => engineIdle s
  | some v =>
    let n := v.verified + w.counts
    if Config.saveWrites ≤ v.next + 1 then endSave true n s
    else
      engineIdle (modMeters (fun m => { m with save := some { v with next := v.next + 1, verified := n } }) s)

/-- The marker holds what a failed or cut-short write of it left: a FREE VALUE (R191). -/
def spoilMarker (s : Part) : Part :=
  let s := modMeters (fun m => { m with image.marker := Config.failedMarker s.fresh }) s
  { s with fresh := s.fresh + 1 }

/-- A configuration write's retry has failed: the save ends at that write (R147, R191). -/
def configFault (w : ConfigValue) (s : Part) : Part :=
  let s := match w with | .marker _ => spoilMarker s | _ => s
  endSave false ((s.meters.save.map Save.verified).getD 0) s

/-- A nonvolatile write ends with its verify (R141, R143, R147). -/
def writeEnd (verified : Bool) (s : Part) : Part :=
  match s.meters.engine with
  | .idle => s
  | .meter lt v again =>
    if verified then meterWritten lt v s
    else if again then meterFault lt v s
    else modMeters (fun m => { m with engine := .meter lt v true }) s
  | .config w again =>
    if verified then configWritten w s
    else if again then configFault w s
    else modMeters (fun m => { m with engine := .config w true }) s

/-! ## Increments and the dirty list (R137, R140) -/

/-- A changed line joins the tail of the dirty list, if it is not in it and does not carry NV FAULT
(R140); in URGENT the engine may start at once (R146). -/
def joinDirty (lt : Nat) (s : Part) : Part :=
  if lt ∈ s.meters.dirty ∨ (meter lt s).nvFault = true then s
  else nextWrite (modMeters (fun m => { m with dirty := m.dirty ++ [lt] }) s)

/-- A meter entry raised by `n` increments made within one event (R136, R137): the count wraps at its
top, a wrap sets the rollover flag and queues ROLLOVER, and the line joins the dirty list. -/
def addUnits (lt n : Nat) (s : Part) : Part :=
  if n = 0 then s
  else
    let total := (meter lt s).count + n
    if total < Config.meterTop then joinDirty lt (modMeter lt (fun e => { e with count := total }) s)
    else
      let s := modMeter lt (fun e => { e with count := total % Config.meterTop, rollover := true }) s
      joinDirty lt (raiseMaint .rollover (b16 lt) s)

/-- A line's rollover flag is cleared, which is a change of its entry (R138). -/
def clearRolloverFlag (lt : Nat) (s : Part) : Part :=
  if (meter lt s).rollover then joinDirty lt (modMeter lt (fun e => { e with rollover := false }) s) else s

/-- A line's NV FAULT flag is cleared and the line joins the dirty list (R144). -/
def clearFaultFlag (lt : Nat) (s : Part) : Part :=
  if (meter lt s).nvFault then joinDirty lt (modMeter lt (fun e => { e with nvFault := false }) s) else s

/-! ## The snapshot table (R150) -/

/-- Every count and rollover flag, and the stamp, as they stand at one moment (R150). -/
def snapshotNow (s : Part) : Snapshot :=
  { stamp := timeStamp s
    items := (s.meters.entries.map
      (fun x => (x.1, ({ count := x.2.count, rollover := x.2.rollover } : MeterValue)))).filter
      (fun x => decide (x.2 ≠ {})) }

end Sys2Proof.Machine
end

