-- ==== Sys2Proof/Machine/Network.lean ====
section
/-!
DEFINITION. Lines, junctions and elements as calls take and leave them: hand-overs between scan points
(R24), a line or junction leaving its call (R25), an element freed (R4, R6, R9) or marked FAULTY (R5),
and withdrawal and return (R7 to R12, R38).
-/

namespace Sys2Proof.Machine

/-! ## Scan points -/

/-- The pending event of a point is armed afresh for its classification and accepted state (R22). -/
def rearm (p : Nat) (s : Part) : Part :=
  let ev := armed p s
  modPoint p (fun e => { e with pending := ev }) s

/-- A run duration raised by one scan, saturating (R20). -/
def oneMore (n : Nat) : Nat := if n < Config.durationTop then n + 1 else n

/-- A point's entry loaded with what another point showed: accepted state, candidate state, candidate run
and run duration; the pulse count is 0 and the event is armed afresh (R24). -/
def loadPoint (e : ScanEntry) (dst : Nat) (s : Part) : Part :=
  rearm dst (modPoint dst (fun _ => { e with pulses := 0, pending := none }) s)

/-- A hand-over from the point that stops speaking to the one that begins (R24). Inside a scan the
receiving point counts that scan once: it is passed over if the stopping point was already updated, and
counts the scan at once if its own turn has passed and the stopping point's has not come. -/
def handOver (src dst : Nat) (s : Part) : Part :=
  let s := loadPoint (point src s) dst s
  match s.scan.pos with
  | none => s
  | some p =>
    if src ≤ p then { s with scan.skip := dst :: s.scan.skip }
    else if dst ≤ p then modPoint dst (fun e => { e with duration := oneMore e.duration }) s
    else s

/-- The pulse count of a call's O point is dropped without notice (R30). -/
def dropPulses (id : Nat) (s : Part) : Part :=
  match (call id s).set.cord with
  | none => s
  | some c => modPoint (oPoint c) (fun e => { e with pulses := 0 }) s

/-- The points whose classification depends on a call's state: its cords' O and T points, its line's own
point, and the points of its junctions. -/
def callPoints (c : Call) : List Nat :=
  (c.set.cord.toList ++ c.new.cord.toList).flatMap (fun x => [oPoint x, tPoint x]) ++
    (c.origin.map partyPoint).toList ++ (c.term.map partyPoint).toList

/-- The events of a call's points are armed afresh after a change of its state (R22). -/
def rearmCall (id : Nat) (s : Part) : Part := (callPoints (call id s)).foldl (fun s p => rearm p s) s

/-- An event armed with its threshold already reached is produced at once (R22), without effect: what it
reports is a clear of a call that is released already (R98). -/
def spend (s : Part) (p : Nat) : Part :=
  if (eventDue p s).isSome then modPoint p (fun e => { e with pending := none }) s else s

/-- The due events of the points of a released call are produced, without effect (R22, R98). -/
def spendCall (id : Nat) (s : Part) : Part := (callPoints (call id s)).foldl spend s

/-! ## Junctions (R15, R34, R56) -/

/-- A junction that is FREE with supervision IDLE takes its pending route and direction (R15). -/
def settleJunction (j : Nat) (s : Part) : Part :=
  modJunction j
    (fun r =>
      if r.elem.occ = .free ∧ r.sup = .idle then
        { r with route := r.pendRoute.or r.route, dir := r.pendDir.getD r.dir, pendRoute := none,
                 pendDir := none }
      else r) s

/-- A junction is taken as an incoming seizure: ORIGINATING, marked, and the Origination Server is told
(R34, R47). -/
def seizeJunction (j : Nat) (s : Part) : Part :=
  retry (rearm (junctionPoint j) (modJunction j (fun r => { r with sup := .originating, marked := true }) s))

/-- A junction that is FREE, IDLE, IN SERVICE and INCOMING or BOTHWAY, with LOOP accepted, is taken as an
incoming seizure at this moment (R34, R56), in a freeze too (log entry 51). -/
def seizeIfLoop (j : Nat) (s : Part) : Part :=
  let r := junction j s
  if r.elem.occ = .free ∧ r.elem.admin = .inService ∧ r.sup = .idle ∧ r.dir ≠ .outgoing ∧
      (point (junctionPoint j) s).accepted = .loop then
    seizeJunction j s
  else s

/-- A junction's supervision state becomes IDLE, its mark and its queue entry go, and a pending route or
direction takes effect (R35, R38, R53, R15). -/
def idleJunction (j : Nat) (s : Part) : Part :=
  let s := modJunction j (fun r => { r with sup := .idle, marked := false }) s
  let s := dequeue (.junction j) s
  rearm (junctionPoint j) (settleJunction j s)

/-- A junction leaves its call (R25): from incoming use or setting up it becomes HELD UNSERVED or IDLE by
its loop, from outgoing use IDLE with its point sensing loop again; one that is BUSY OUT or FAULTY by
then is IDLE (R38). -/
def leaveJunction (j : Nat) (s : Part) : Part :=
  let r := junction j s
  let s :=
    match r.sup with
    | .inCall .outgoing _ => resetPoint (junctionPoint j) (modJunction j (fun r => { r with sup := .idle }) s)
    | .idle => s
    | _ =>
      let held := decide ((point (junctionPoint j) s).accepted = .loop ∧ r.elem.admin ≠ .busyOut ∧
        r.elem.occ ≠ .faulty)
      modJunction j (fun r => { r with sup := if held then .heldUnserved else .idle, marked := false }) s
  rearm (junctionPoint j) (settleJunction j s)

/-! ## Lines (R10 to R12, R25) -/

/-- A line is withdrawn (R11): its mark and queue entry go, and ORIGINATING or PARKED becomes IDLE. -/
def withdrawLine (lt : Nat) (s : Part) : Part :=
  let s := modLine lt
    (fun l =>
      { l with marked := false
               sup := match l.sup with | .inCall id => .inCall id | _ => .idle }) s
  rearm lt (dequeue (.line lt) s)

/-- A class takes effect on a line that is not in a call (R12). -/
def takeClass (lt : Nat) (k : LineClass) (s : Part) : Part :=
  let was := (line lt s).cls
  let s := modLine lt (fun l => { l with cls := k, pendCls := none }) s
  if k = .unequipped ∧ was ≠ .unequipped then withdrawLine lt s
  else if was = .unequipped ∧ k ≠ .unequipped ∧ (line lt s).admin = .inService then resetPoint lt s
  else s

/-- A pending class becomes the class in force (R12). -/
def settleClass (lt : Nat) (s : Part) : Part :=
  match (line lt s).pendCls with
  | none => s
  | some k => takeClass lt k s

/-- The entry that spoke last for a line of a call (R25): the line point's own, or that of the cord
point, as it stands or as it stood when the cord left the record. -/
def lastEntry (id lt : Nat) (s : Part) : ScanEntry :=
  let c := call id s
  if linePointSpeaks lt s then point lt s
  else if c.term = some (.line lt) then
    match (if c.reswitch then c.new.cord else c.set.cord) with
    | some x => point (tPoint x) s
    | none => c.lastT.getD (point lt s)
  else
    match c.set.cord with
    | some x => point (oPoint x) s
    | none => c.lastO.getD (point lt s)

/-- A line leaves its call (R25): its point is loaded from the point that spoke for it last, and it
becomes PARKED or IDLE by its loop; with BUSY OUT PENDING it becomes BUSY OUT and IDLE (R11); a pending
class takes effect (R12). -/
def leaveLine (id lt : Nat) (s : Part) : Part :=
  let e := lastEntry id lt s
  let s := if linePointSpeaks lt s then s else loadPoint e lt s
  let s := modLine lt
    (fun l =>
      if l.admin = .busyOutPending then { l with admin := .busyOut, sup := .idle, marked := false }
      else { l with sup := if e.accepted = .loop then .parked else .idle, marked := false }) s
  rearm lt (settleClass lt s)

/-- A party leaves its call (R25). -/
def leaveParty (id : Nat) (x : Party) (s : Part) : Part :=
  match x with
  | .line lt => leaveLine id lt s
  | .junction j => leaveJunction j s

/-- The event of the T point of a call's cord is armed afresh (R22): the point is classified only while it speaks for
a called line (R23). -/
def rearmCalled (id : Nat) (s : Part) : Part :=
  match (call id s).set.cord with
  | none => s
  | some c => rearm (tPoint c) s

/-- The terminating side leaves the call and the record (R25, R70), and the T point of the call's cord no longer
speaks for it (R22). -/
def leaveTerm (id : Nat) (s : Part) : Part :=
  match (call id s).term with
  | none => s
  | some x => rearmCalled id (modCall id (fun c => { c with term := none }) (leaveParty id x s))

/-! ## Elements (R4 to R6, R9) -/

/-- The entries of a cord's O and T points are kept for the call whose record the cord leaves (R25). -/
def keepEntries (id : Nat) (e : ElemId) (s : Part) : Part :=
  match e with
  | .cord c =>
    if (call id s).set.cord = some c then
      let o := point (oPoint c) s
      let t := point (tPoint c) s
      modCall id (fun r => { r with lastO := some o, lastT := some t }) s
    else s
  | _ => s

/-- An element becomes FREE (R4): a pending busy-out takes effect (R9); a cord or frame link that becomes
available is reported (R6, R47); a junction takes its pending changes (R15) and, if the far end holds
the loop, is seized (R56). The manual gives these two no order: the pending changes come first, and the
seizure is tested on the direction then in force (log entry 48). -/
def becomeFree (e : ElemId) (s : Part) : Part :=
  let s := modElem e
    (fun r => { r with occ := .free, admin := if r.admin = .busyOutPending then .busyOut else r.admin }) s
  match e with
  | .junction j => seizeIfLoop j (settleJunction j s)
  | _ => if avail e s then retry s else s

/-- A terminating junction given up before it has entered outgoing use is no longer named by the record
(R55 to R57), so that a seizure it then takes is its own (R56). -/
def unnameTerm (id : Nat) (e : ElemId) (s : Part) : Part :=
  match e with
  | .junction j =>
    match (junction j s).sup with
    | .inCall _ _ => s
    | _ => modCall id (fun c => { c with term := if c.term = some (.junction j) then none else c.term }) s
  | _ => s

/-- An element leaves a call's record and becomes FREE (R4). -/
def freeElem (id : Nat) (e : ElemId) (s : Part) : Part :=
  becomeFree e (unnameTerm id e (modCall id (Call.without e) (keepEntries id e s)))

/-- The code and number of an element in ELEMENT FAULTY (section 10.4). -/
def faultyFields : ElemId → List Byte
  | .fl n => [b8 0] ++ b16 n
  | .junction j => [b8 1] ++ b16 j
  | .cord c => [b8 2] ++ b16 c

/-- The parties joined by an element that has become FAULTY leave the call (R25): a terminating line or
junction, and an incoming origin junction; a junction is then handled by R38. -/
def leaveFaulty (id : Nat) (e : ElemId) (s : Part) : Part :=
  let c := call id s
  match e with
  | .fl n =>
    if c.set.tfl = some n ∨ c.new.tfl = some n then leaveTerm id s else s
  | .junction j =>
    let s := if c.term = some (.junction j) then leaveTerm id s else s
    let s :=
      if c.origin = some (.junction j) ∧ c.originHeld = true then
        modCall id (fun r => { r with originHeld := false }) (leaveJunction j s)
      else s
    idleJunction j s
  | .cord _ => s

/-- The entries of a call's crosspoint list that are OPERATED and join only FAULTY elements leave it (R62). -/
def dropFaulty (id : Nat) (s : Part) : Part :=
  modCall id
    (fun c => { c with
      xps := c.xps.filter (fun y => !(decide (y.2 = .operated) && onlyFaulty y.1 s)) }) s

/-- A drive outcome of a call's order marks an element FAULTY (R5, R79): it leaves every set that names
it, a pending busy-out becomes BUSY OUT, and ELEMENT FAULTY is queued. The crosspoints that it alone is joined
by leave the list of the call that names it, and of the call whose order it was (R62). The notice carries the call of
the order, also where another call names the element (log entry 66). -/
def markFaulty (id : Nat) (e : ElemId) (s : Part) : Part :=
  let s := modElem e
    (fun r => { r with occ := .faulty, admin := if r.admin = .busyOutPending then .busyOut else r.admin }) s
  let s :=
    match callOfElem e s with
    | none => s
    | some holder => dropFaulty holder (modCall holder (Call.without e) (leaveFaulty holder e s))
  raiseMaint .elementFaulty (faultyFields e ++ [b8 id]) (dropFaulty id s)

/-! ## Busy-out and return to service (R7, R8, R11) -/

/-- BUSY OUT of an element (R7, R38). -/
def busyOutElem (e : ElemId) (s : Part) : Part :=
  let r := elem e s
  match r.admin with
  | .inService =>
    if r.occ = .free ∨ r.occ = .faulty then
      let s := modElem e (fun r => { r with admin := .busyOut }) s
      match e with
      | .junction j =>
        match (junction j s).sup with
        | .inCall _ _ => s
        | _ => idleJunction j s
      | _ => s
    else modElem e (fun r => { r with admin := .busyOutPending }) s
  | _ => s

/-- An element returned to FREE and IN SERVICE is reported (R6); a junction's point is reset (R38), also where its
last call has not reached CLOSED yet. -/
def returned (e : ElemId) (s : Part) : Part :=
  match e with
  | .junction j => resetPoint (junctionPoint j) (settleJunction j s)
  | _ => retry s

/-- RETURN TO SERVICE of an element (R8). -/
def returnElem (e : ElemId) (s : Part) : Part :=
  let r := elem e s
  if r.occ = .faulty then returned e (modElem e (fun _ => {}) s)
  else
    match r.admin with
    | .busyOut =>
      let s := modElem e (fun r => { r with admin := .inService }) s
      if r.occ = .free then returned e s else s
    | .busyOutPending => modElem e (fun r => { r with admin := .inService }) s
    | .inService => s

/-- BUSY OUT of a line (R11). -/
def busyOutLine (lt : Nat) (s : Part) : Part :=
  if (line lt s).admin = .busyOut then s
  else if (callOf (.line lt) s).isSome then modLine lt (fun l => { l with admin := .busyOutPending }) s
  else withdrawLine lt (modLine lt (fun l => { l with admin := .busyOut }) s)

/-- RETURN TO SERVICE of a line (R11). -/
def returnLine (lt : Nat) (s : Part) : Part :=
  match (line lt s).admin with
  | .busyOut => resetPoint lt (modLine lt (fun l => { l with admin := .inService }) s)
  | .busyOutPending => modLine lt (fun l => { l with admin := .inService }) s
  | .inService => s

/-- A class written to a line (R12). -/
def writeClass (lt : Nat) (k : LineClass) (s : Part) : Part :=
  if (callOf (.line lt) s).isSome then
    modLine lt (fun l => { l with pendCls := if k = l.cls then none else some k }) s
  else takeClass lt k s

end Sys2Proof.Machine
end

