-- ==== Sys2Proof/Machine/Release.lean ====
section
/-!
DEFINITION. The release of a call (sections 4.7 and 5.5), from the release taken to the record CLOSED.
-/

namespace Sys2Proof.Machine

/-! ## The end (R83, R102) -/

/-- A call active at the taking of a RESTART has reached CLOSED; with the last, DONE is replied (R192). -/
def restartClosed (id : Nat) (s : Part) : Part :=
  match s.m.restart with
  | none => s
  | some r =>
    if id ∈ r.waiting then
      let left := r.waiting.filter (fun x => decide (x ≠ id))
      if left = [] then reply .maint r.tag .done [] (modMaint (fun m => { m with restart := none }) s)
      else modMaint (fun m => { m with restart := some { r with waiting := left } }) s
    else s

/-- CLEARED is set for a CLOSED record (R102): for an ownerless one its other pending notices are
discarded and it goes to the maintenance port (R181). -/
def raiseCleared (id : Nat) (s : Part) : Part :=
  match (call id s).owner with
  | some _ => raiseCall id .cleared [] s
  | none => drainMaint (modCall id (fun c => { c with pend := [(.cleared, [])] }) s)

/-- The origin leaves the call, if it is still in it (R25). -/
def leaveOrigin (id : Nat) (s : Part) : Part :=
  match (call id s).origin with
  | none => s
  | some x => if (call id s).originHeld then leaveParty id x s else s

/-- The release ends (R83, R102): the parties leave the call, the record enters CLOSED with its claim 0,
and CLEARED is set. -/
def closeCall (id : Nat) (s : Part) : Part :=
  let s := leaveTerm id (leaveOrigin id s)
  let s := modCall id
    (fun c => { c with
      state := .closed, originHeld := false, claim := 0, xps := [], set := {}, old := {}, new := {}
      reswitch := false, lineSpeaks := false, relPending := false, op := .idle, opFailed := false
      yielded := false, dest := none, lastO := none, lastT := none }) s
  raiseCleared id (restartClosed id s)

/-! ## The two steps (R82, R83) -/

/-- The releases of the second step in their order (R83): the origin path, line crosspoint before plane
crosspoint, then the terminating side, from the cord outward. -/
def releaseOrder (id : Nat) (s : Part) : List Xp :=
  let xs := operatedXps id s
  let term := (call id s).term
  let o := xs.filter (fun x => !Xp.isTerm term x)
  let t := xs.filter (Xp.isTerm term)
  o.filter (fun x => match x with | .line _ _ => true | _ => false) ++
    o.filter (fun x => match x with | .line _ _ => false | _ => true) ++
    t.filter (fun x => match x with | .line _ _ => false | _ => true) ++
    t.filter (fun x => match x with | .line _ _ => true | _ => false)

/-- An element of a call in release: RELEASING if a release order names it, FREE otherwise (R83). -/
def releaseElem (id : Nat) (e : ElemId) (s : Part) : Part :=
  if releasingElem id e s then setOcc e .releasing s else freeElem id e s

/-- The second step of a release (R83). -/
def releaseStep2 (id : Nat) (s : Part) : Part :=
  let s := modCall id (fun c => { c with op := .release2 }) s
  let s := (releaseOrder id s).foldl (fun s x => placeRelease id x s) s
  let s := (call id s).elems.foldl (fun s e => releaseElem id e s) s
  if (ordersOf id s).isEmpty then closeCall id s else s

/-- The cord whose O end the origin line is joined to through operated crosspoints (R82). -/
def coinCord (c : Call) : Option Nat :=
  c.xps.findSome? (fun y =>
    match y with
    | (.plane n cord .o, .operated) =>
      if c.xps.any (fun z =>
          match z with
          | (.line lt m, .operated) => decide (c.origin = some (.line lt) ∧ m = n)
          | _ => false) then some cord
      else none
    | _ => none)

/-- COIN FAULT (R133): call id, origin line, action (COLLECT or REFUND), deposits. -/
def raiseCoinFault (id : Nat) (refund : Bool) (s : Part) : Part :=
  let c := call id s
  raiseMaint .coinFault
    ([b8 id] ++ b16 ((c.lineOrigin).getD 0) ++ [b8 (if refund then 1 else 0)] ++
      b16 ((c.coin.map Coin.deposits).getD 0)) s

/-- RING OFF is placed for the cord of a call's current set if its ring state is ON (R62, R70, R82). -/
def ringOff (id : Nat) (s : Part) : Part :=
  let c := call id s
  match c.set.cord with
  | some cord =>
    if c.set.ring then place id (.ringOff cord) (modCall id (fun c => { c with set.ring := false }) s) else s
  | none => s

/-- The coin order of the first step, or COIN FAULT where no cord joins the origin line (R82, R133). -/
def coinOrder (id : Nat) (s : Part) : Part :=
  let c := call id s
  match c.coin with
  | none => s
  | some _ =>
    match coinCord c with
    | some cord => place id (if c.answered then .collect cord else .refund cord) s
    | none => raiseCoinFault id true s

/-- The first step of a release (R82); with no order placed the second follows at once. -/
def releaseStep1 (id : Nat) (s : Part) : Part :=
  let s := modCall id (fun c => { c with op := .release1 }) s
  let s := coinOrder id (ringOff id s)
  if (ordersOf id s).isEmpty then releaseStep2 id s else s

/-- A release begins (R80): with a claim of 5 or more, or 5 raised from the free places while nobody
waits, it places its first step; otherwise the call joins the release wait list. -/
def beginRelease (id : Nat) (s : Part) : Part :=
  let c := (call id s).claim
  if Config.releasePlaces ≤ c then releaseStep1 id s
  else if s.arb.releaseWait = [] ∧ Config.releasePlaces - c ≤ freePlaces s then
    releaseStep1 id (setClaim id Config.releasePlaces s)
  else { s with arb.releaseWait := s.arb.releaseWait ++ [id] }

/-- The elements of a reswitch's new set that no operated crosspoint joins are given up (R75, R81), and a
called line whose frame link goes leaves the call. -/
def giveUpNew (id : Nat) (s : Part) : Part :=
  let idle := (call id s).new.elems.filter
    (fun e => !(operatedXps id s).any (fun x => x.elems.contains e))
  let s :=
    if idle.any (fun e => decide (some e = (call id s).new.tfl.map ElemId.fl)) then leaveTerm id s else s
  idle.foldl (fun s e => freeElem id e s) s

/-- A call enters RELEASING (R81, R98): a reswitch ends, what is left of its new set being the call's
set; the pulse count goes, the events of its points are armed afresh and those due are spent; and the release
begins. -/
def enterReleasing (id : Nat) (s : Part) : Part :=
  let s := if (call id s).reswitch then giveUpNew id s else s
  let s := dropPulses id s
  let s := modCall id
    (fun c => { c with
      state := .releasing, relPending := false, op := .idle
      set := if c.reswitch then c.new else c.set
      new := if c.reswitch then {} else c.new
      reswitch := false }) s
  beginRelease id (spendCall id (rearmCall id s))

/-- A controller's EXTEND waiting for a call is withdrawn and answered BAD STATE (R66, R98). -/
def withdrawExtend (id : Nat) (c : Ctl) (s : Part) : Part :=
  match (ctl c s).extend with
  | none => s
  | some r =>
    if r.call = id then
      reply (.ctl c) r.tag .badState [] (modCtl c (fun p => { p with extend := none }) s)
    else s

/-- A release is taken for a record (R98): the reason is recorded, the call timer and the charging stop, a
waiting EXTEND and a re-hunt entry go, and the record enters RELEASING, or with orders in flight has its
release-pending flag set (R81). A record already released, FREE or CLOSED takes none. -/
def takeRelease (id : Nat) (why : Reason) (s : Part) : Part :=
  let c := call id s
  if !c.active || c.released then s
  else
    let s := modCall id (fun c => { c with reason := some why, timer := none, charging := false }) s
    let s := withdrawExtend id .b (withdrawExtend id .a s)
    let s := dropRehunt id s
    if (ordersOf id s).isEmpty then enterReleasing id s
    else modCall id (fun c => { c with relPending := true }) s

end Sys2Proof.Machine
end

