-- ==== Sys2Proof/Machine/Calls.lean ====
section
/-!
DEFINITION. The events of a call: charging (chapter 6), the coin context (chapter 7), digits (R30, R91),
the answer, the called clear and the re-answer (R94 to R96), and the events of scan points (R22).
-/

namespace Sys2Proof.Machine

/-! ## Charging (R112 to R115, R119) -/

/-- The grace timer starts with the coin grace in force (R127). -/
def startGrace (id : Nat) (s : Part) : Part :=
  let limit := 10 * s.timers.grace
  modCall id (fun c => { c with coin := c.coin.map (fun k => { k with grace := some (limit, 0) }) }) s

/-- A unit becomes owed (R126): the first starts the grace timer with DEPOSIT DUE, which with a coin grace
of 0 expires in the same event (R128); the 60th releases the call. -/
def oweUnit (id : Nat) (k : Coin) (s : Part) : Part :=
  let s := modCall id (fun c => { c with coin := some { k with owed := k.owed + 1 } }) s
  let s := if k.owed = 0 then raiseCall id .depositDue [] (startGrace id s) else s
  if k.owed = 0 ∧ s.timers.grace = 0 then takeRelease id .creditExhausted s
  else if Config.owedTop ≤ k.owed + 1 then takeRelease id .creditExhausted s
  else s

/-- A unit handed to the coin context (R126). -/
def payUnit (id : Nat) (s : Part) : Part :=
  match (call id s).coin with
  | none => s
  | some k =>
    if 1 ≤ k.credit then modCall id (fun c => { c with coin := some { k with credit := k.credit - 1 } }) s
    else oweUnit id k s

/-- One unit is charged (R115): counted, then delivered to the coin context, to the charged line's meter,
or nowhere. -/
def chargeUnit (id : Nat) (s : Part) : Part :=
  let s := modCall id (fun c => { c with units := min (c.units + 1) Config.unitsTop }) s
  let c := call id s
  match c.coin with
  | some _ => payUnit id s
  | none =>
    match c.charged with
    | some lt => addUnits lt 1 s
    | none => s

/-- Answer units charged one after another, until a release is taken (R112, R130); in URGENT a write of the line's
entry may start between two of them (log entry 67). -/
def chargeUnits (id : Nat) : Nat → Part → Part
  | 0, s => s
  | n + 1, s => if (call id s).released then s else chargeUnits id n (chargeUnit id s)

/-- The tariff entry of a band in the period in force (R108). -/
def tariffOf (band : Nat) (s : Part) : Tariff := Table.get {} s.charge.tariff (4 * band + s.charge.period.code)

/-- The increment of a band in the band increment table (R110). -/
def bandIncrement (band : Nat) (s : Part) : Nat := s.charge.incs.getD band 0

/-- Charging starts at the answer (R112): the answer units are charged, and last the record joins the
charging set, unless a release has been taken (R130). -/
def startCharging (id : Nat) (s : Part) : Part :=
  let band := ((call id s).band).getD 0
  let inc := bandIncrement band s
  let s := modCall id (fun c => { c with accum := 0, incr := inc }) s
  let s := chargeUnits id (tariffOf band s).answerUnits s
  if (call id s).released then s else modCall id (fun c => { c with charging := true }) s

/-- A tick advances a record of the charging set (R113, R119). -/
def accrue (id : Nat) (s : Part) : Part :=
  let c := call id s
  if !c.charging then s
  else
    let bad := decide (s.tb.selection = .internal) || !s.tb.valid
    let a := c.accum + c.incr
    let s := modCall id
      (fun c => { c with
        degraded := c.degraded || bad
        accum := if Config.q ≤ a then a - Config.q else a }) s
    if Config.q ≤ a then chargeUnit id s else s

/-! ## The coin contact (R125, R127, R131) -/

/-- A coin pulse at a record with a coin context. -/
def coinPulse (id : Nat) (s : Part) : Part :=
  let c := call id s
  match c.coin with
  | none => s
  | some k =>
    let d := min (k.deposits + 1) Config.depositsTop
    if c.released then modCall id (fun c => { c with coin := some { k with deposits := d } }) s
    else if k.owed = 0 then
      if k.deposits < Config.depositsTop then
        modCall id
          (fun c => { c with coin := some { k with credit := min (k.credit + 1) Config.creditTop, deposits := d } }) s
      else s
    else if k.owed = 1 then
      modCall id
        (fun c => { c with
          coin := some { k with owed := 0, deposits := d, grace := none }
          pend := c.pend.filter (fun x => decide (x.1 ≠ .depositDue)) }) s
    else modCall id (fun c => { c with coin := some { k with owed := k.owed - 1, deposits := d } }) s

/-! ## Digits (R29, R30, R91) -/

/-- A digit event is taken for a record in DIALLING whose release has not been taken (R91, R99). -/
def takesDigits (c : Call) : Bool := decide (c.state = .dialling) && !c.released

/-- DIGIT FAULT is queued and the INTERDIGIT timer starts (R29, R40, R91). -/
def digitFault (id : Nat) (s : Part) : Part :=
  if takesDigits (call id s) then startInterdigit id (raisePlain id .digitFault s) else s

/-- DIGIT END with a pulse count (R30): a digit, DIGIT FAULT for more than 10 pulses, or DIGIT OVERFLOW
for a 25th digit; the INTERDIGIT timer starts. -/
def takeDigit (id n : Nat) (s : Part) : Part :=
  if !takesDigits (call id s) then s
  else if Config.pulseTop ≤ n then digitFault id s
  else if Config.maxDigits ≤ (call id s).digits.length then
    startInterdigit id (raisePlain id .digitOverflow s)
  else
    startInterdigit id
      (raiseCall id .digit [] (modCall id (fun c => { c with digits := c.digits ++ [n % 10] }) s))

/-! ## Answer and clear (R94 to R97) -/

/-- The answer orders (R71): RING OFF for a ringing call, REVERSE for an incoming-junction origin. -/
def answerOrders (id : Nat) (s : Part) : Part :=
  let c := call id s
  let s := if c.state = .ringing then ringOff id s else s
  match c.set.cord with
  | some cord =>
    if c.answerPlaces = 1 then
      place id (.reverse cord) (modCall id (fun c => { c with set.reversed := true }) s)
    else s
  | none => s

/-- An answer (R94), in its order: timer, answer orders, ANSWERED, charging with the answer units, and
the notice. -/
def answer (id : Nat) (s : Part) : Part :=
  let c := call id s
  if !(decide (c.state = .ringing ∨ c.state = .awaitingAnswer)) || c.released then s
  else
    let s := answerOrders id (modCall id (fun c => { c with timer := none, op := .answer }) s)
    let s := modCall id (fun c => { c with state := .answered, answered := true }) s
    let s := if (ordersOf id s).isEmpty then setClaim id 0 (modCall id (fun c => { c with op := .idle }) s) else s
    rearmCall id (raisePlain id .answered (startCharging id s))

/-- A called clear (R95). -/
def calledClear (id : Nat) (s : Part) : Part :=
  let c := call id s
  if c.state ≠ .answered ∨ c.released = true then s
  else if s.timers.hold = 0 then takeRelease id .calledCleared s
  else
    let s := modCall id (fun c => { c with state := .calledCleared }) s
    rearmCall id (raisePlain id .calledCleared (startTimer id .hold (10 * s.timers.hold) s))

/-- A re-answer (R96). -/
def reAnswer (id : Nat) (s : Part) : Part :=
  let c := call id s
  if c.state ≠ .calledCleared ∨ c.released = true then s
  else
    let s := modCall id (fun c => { c with state := .answered, timer := none }) s
    rearmCall id (raisePlain id .answered s)

/-- A caller clear (R98): taken in SETTING ORIGIN to CALLED CLEARED. -/
def clearCaller (id : Nat) (s : Part) : Part := takeRelease id .callerCleared s

/-! ## The events of scan points (R22) -/

/-- PARK END on a line (R28). -/
def endPark (lt : Nat) (s : Part) : Part :=
  if (line lt s).sup = .parked then modLine lt (fun l => { l with sup := .idle }) s else s

/-- FAR-END CLEAR on a junction (R35, R36): before service the junction becomes IDLE and leaves the
queue; named by a call it is the call's caller clear. -/
def clearFarEnd (j : Nat) (s : Part) : Part :=
  match (junction j s).sup with
  | .heldUnserved => idleJunction j s
  | .originating =>
    match callOf (.junction j) s with
    | none => idleJunction j s
    | some id => clearCaller id s
  | .inCall .incoming id => clearCaller id s
  | _ => s

/-- DIGIT END on a cord's O point (R30): the pulse count gives the digit and becomes 0. -/
def endDigit (cord : Nat) (s : Part) : Part :=
  match callOfElem (.cord cord) s with
  | none => s
  | some id =>
    let n := (point (oPoint cord) s).pulses
    rearm (oPoint cord) (takeDigit id n (modPoint (oPoint cord) (fun e => { e with pulses := 0 }) s))

/-- The effect of an event produced at a point (R22). -/
def takeEvent (p : Nat) (ev : ScanEvent) (s : Part) : Part :=
  match pointKind p, ev with
  | .line lt, .parkEnd => endPark lt s
  | .line lt, .callerClear =>
    match callOf (.line lt) s with
    | some id => clearCaller id s
    | none => s
  | .oEnd c, .digitEnd => endDigit c s
  | .oEnd c, .callerClear =>
    match callOfElem (.cord c) s with
    | some id => clearCaller id s
    | none => s
  | .tEnd c, .calledClear =>
    match callOfElem (.cord c) s with
    | some id => calledClear id s
    | none => s
  | .junction j, .farEndClear => clearFarEnd j s
  | _, _ => s

/-- The event of a point is produced if it is armed and due: the pending event becomes none and its effect
is taken (R22). -/
def produce (p : Nat) (s : Part) : Part :=
  match eventDue p s with
  | some ev => takeEvent p ev (modPoint p (fun e => { e with pending := none }) s)
  | none => s

/-- The event `ev` of a point is produced if it is the one armed and it is due (R22). -/
def produceEvent (p : Nat) (ev : ScanEvent) (s : Part) : Part :=
  if eventDue p s = some ev then produce p s else s

/-- The due events of a call's points are produced after a change that armed them (R22). -/
def produceCall (id : Nat) (s : Part) : Part := (callPoints (call id s)).foldl (fun s p => produce p s) s

/-- The event of a point is armed afresh, and produced at once if its threshold is already reached (R22). -/
def watch (p : Nat) (s : Part) : Part := produce p (rearm p s)

/-- The events of a call's points are armed afresh, and those already due produced at once (R22). -/
def watchCall (id : Nat) (s : Part) : Part := produceCall id (rearmCall id s)

end Sys2Proof.Machine
end

