-- ==== Sys2Proof/Machine/Path.lean ====
section
/-!
DEFINITION. The Path Engine (chapter 4): the origin search, the extension, the reswitch, the re-hunt, and
what each outcome of a drive order brings about.
-/

namespace Sys2Proof.Machine

/-! ## Leaving and entering the states of a call -/

/-- An operation begins for a call. -/
def beginOp (id : Nat) (o : Operation) (s : Part) : Part :=
  modCall id (fun c => { c with op := o, opFailed := false, yielded := false }) s

/-- The origin's line or junction has its path, and the call enters DIALLING (R65, R90): IN CALL with the
hand-over to the O point (R24), FIRST DIGIT, and ORIGIN READY or INCOMING READY. -/
def enterDialling (id : Nat) (s : Part) : Part :=
  let s := setClaim id 0 (beginOp id .idle s)
  let s := modCall id (fun c => { c with state := .dialling }) s
  let cord := ((call id s).set.cord).getD 0
  match (call id s).origin with
  | none => s
  | some (.line lt) =>
    let s := modLine lt (fun l => { l with sup := .inCall id }) s
    let s := handOver lt (oPoint cord) s
    let s := startTimer id .firstDigit (firstDigitLimit s) s
    let s := raiseCall id .originReady ([b8 id] ++ b16 lt ++ [b8 (line lt s).cls.code, b8 cord]) s
    watchCall id s
  | some (.junction j) =>
    let s := modJunction j (fun r => { r with sup := .inCall .incoming id, marked := false }) s
    let s := handOver (junctionPoint j) (oPoint cord) s
    let s := startTimer id .firstDigit (firstDigitLimit s) s
    let s := raiseCall id .incomingReady [b8 id, b8 j, o8 (junction j s).route, b8 cord] s
    watchCall id s

/-- An origin that a failed search returns is placed again (R51): queued if the queue has room, marked
otherwise; one that was ordered busy meanwhile, or whose class became UNEQUIPPED, is not (R11, R12). A line
whose point shows OPEN by then is placed all the same, and no event is armed for it (log entry 50). -/
def placeAgain (o : Party) (s : Part) : Part :=
  let queueIt (s : Part) : Part :=
    { s with orig.queue := s.orig.queue ++ [{ origin := o, limit := 10 * s.timers.waitLimit }] }
  match o with
  | .line lt =>
    if (line lt s).admin = .busyOutPending then
      settleClass lt
        (modLine lt (fun l => { l with admin := .busyOut, sup := .idle, marked := false }) s)
    else
      let s := settleClass lt s
      if (line lt s).out then s
      else if s.orig.queue.length < Config.waitPlaces then queueIt s
      else modLine lt (fun l => { l with marked := true }) s
  | .junction j =>
    if s.orig.queue.length < Config.waitPlaces then queueIt s
    else modJunction j (fun r => { r with marked := true }) s

/-- The origin search ends CONGESTED (R51, R87): the record returns to FREE, and the origin is placed
again. -/
def congested (id : Nat) (s : Part) : Part :=
  match (call id s).origin with
  | none => freeRecord id s
  | some o =>
    let held := (call id s).originHeld
    let s := modCall id (fun _ => {}) s
    let s := if held then placeAgain o s else s
    retry (watch (partyPoint o) s)

/-! ## The origin search (R63, R64) -/

/-- The planes in cyclic order from a hunt pointer (R63). -/
def planesFrom (k : Nat) : List Nat := (List.range Config.planes).map (fun i => (k + i) % Config.planes)

/-- The first plane, from the frame's hunt pointer, with the frame's link and a cord available, and the
lowest such cord (R63). -/
def findOriginPath (f : Nat) (s : Part) : Option (Nat × Nat) :=
  (planesFrom (frame f s).hunt).findSome? (fun k =>
    if avail (.fl (flNumber f k)) s then (lowestCord k s).map (fun c => (k, c)) else none)

/-- The origin search of a call (R63, R64); `again` at its retry. -/
def originSearch (id : Nat) (again : Bool) (s : Part) : Part :=
  match (call id s).origin with
  | none => congested id s
  | some (.line lt) =>
    let f := lineFrame lt
    match findOriginPath f s with
    | none => congested id s
    | some (k, cord) =>
      let n := flNumber f k
      let s := reserve (.cord cord) (reserve (.fl n) s)
      let s := modFrame f (fun r => { r with hunt := (k + 1) % Config.planes }) s
      let s := modCall id (fun c => { c with set := { fl := some n, cord := some cord } })
        (beginOp id (.origin again) s)
      placeOperate id (.plane n cord .o) (placeOperate id (.line lt n) s)
  | some (.junction j) =>
    match lowestCord (junctionPlane j) s with
    | none => congested id s
    | some cord =>
      let s := reserve (.cord cord) (reserve (.junction j) s)
      let s := modCall id (fun c => { c with set := { junction := some j, cord := some cord } })
        (beginOp id (.origin again) s)
      placeOperate id (.junctor j cord .o) s

/-- After a failed attempt is cleared away: one retry for a line origin, or CONGESTED (R65). -/
def originRetry (id : Nat) (again : Bool) (s : Part) : Part :=
  if again then congested id s else originSearch id true s

/-- Every order of an origin attempt has its outcome (R65). One whose frame link another call's failed release made
FAULTY, its own OPERATEs all DONE, enters DIALLING without a frame link (log entry 58). -/
def originEnd (id : Nat) (again : Bool) (s : Part) : Part :=
  let c := call id s
  if !c.opFailed then enterDialling id s
  else if c.lineOrigin.isNone then
    freeRecord id (c.elems.foldl (fun s e => freeElem id e s) s)
  else
    let xs := operatedXps id s
    let s := xs.foldl (fun s x => placeRelease id x s) s
    let s := c.elems.foldl (fun s e => releaseElem id e s) s
    if xs = [] then originRetry id again s else beginOp id (.originBack again) s

/-! ## The extension (R67 to R70) -/

/-- A call leaves SETTING TERM for RINGING or AWAITING ANSWER (R69, R74, R93): its claim for the answer
orders, NO ANSWER, the notice, and an answer already accepted (R32, R37), in a freeze too (log entry 51). -/
def extensionDone (id : Nat) (s : Part) : Part :=
  let s := dropRehunt id (beginOp id .idle s)
  let places := (call id s).answerPlaces
  let cord := ((call id s).set.cord).getD 0
  match (call id s).term with
  | none => s
  | some (.line lt) =>
    let s := modCall id (fun c => { c with state := .ringing, claim := 1 + places, dest := none }) s
    let s := startTimer id .noAnswer (10 * s.timers.noAnswer) s
    let s := raiseCall id .ringing ([b8 id] ++ b16 lt ++ [b8 cord]) s
    let s := watchCall id s
    if (point (tPoint cord) s).accepted = .loop then answer id s else s
  | some (.junction j) =>
    let s := modCall id (fun c => { c with state := .awaitingAnswer, claim := places, dest := none }) s
    let s := startTimer id .noAnswer (10 * s.timers.noAnswer) s
    let s := raiseCall id .awaitingAnswer [b8 id, b8 j, b8 cord] s
    let s := watchCall id s
    if (point (junctionPoint j) s).accepted = .reversed then answer id s else s

/-- The data of SET FAILED: call id, destination kind, destination (section 10.4). -/
def destFields : Option Dest → List Byte
  | some (.line lt) => [b8 0] ++ b16 lt
  | some (.route r) => [b8 1] ++ b16 r
  | none => [b8 0] ++ b16 0

/-- A failed extension has been reversed (R70, R92): the terminating side and the band go, the call is in
DIALLING again, SET FAILED is queued and the INTERDIGIT timer starts. -/
def setFailed (id : Nat) (s : Part) : Part :=
  let s := dropRehunt id (leaveTerm id (beginOp id .idle s))
  let dest := (call id s).dest
  let s := modCall id (fun c => { c with state := .dialling, band := none, dest := none, claim := 0 }) s
  let s := raiseCall id .setFailed ([b8 id] ++ destFields dest) s
  watchCall id (startInterdigit id s)

/-- The reversal of a failed extension is placed (R70): RING OFF, and a release of each operated
terminating crosspoint; elements of the terminating side without a crosspoint are given up. -/
def reverseExtension (id : Nat) (s : Part) : Part :=
  let s := ringOff id (beginOp id .reversal s)
  let xs := (operatedXps id s).filter (Xp.isTerm (call id s).term)
  let s := xs.foldl (fun s x => placeRelease id x s) s
  let side := ((call id s).set.tfl.map ElemId.fl).toList ++
    ((call id s).set.tjunction.map ElemId.junction).toList
  let s := side.foldl (fun s e => releaseElem id e s) s
  if (ordersOf id s).isEmpty then setFailed id s else s

/-- Every order of an extension has its outcome (R69, R70). An extension whose terminating side has left it
through another call's failed release is reversed as one that failed (log entry 58). -/
def extensionEnd (id : Nat) (s : Part) : Part :=
  if (call id s).opFailed ∨ (call id s).term = none then reverseExtension id s else extensionDone id s

/-- A yielded junction has left the record (R55, R57): the extension fails if its one re-hunt has been
made, and waits in SETTING TERM for its re-hunt otherwise. -/
def yieldEnd (id : Nat) (s : Part) : Part :=
  if s.orig.rehunts.any (fun e => decide (e.call = id) && !e.made) then
    retry (modCall id (fun c => { c with term := none }) (beginOp id .idle s))
  else setFailed id s

/-- The junctions in cyclic order from a number (R68). -/
def junctionsFrom (j : Nat) : List Nat :=
  (List.range Config.junctions).map (fun i => (j + i) % Config.junctions)

/-- A junction qualifies for a hunt of a route (R68): available, OUTGOING or BOTHWAY, of the route. -/
def hunts (r j : Nat) (s : Part) : Bool :=
  avail (.junction j) s && decide ((junction j s).route = some r ∧ (junction j s).dir ≠ .incoming)

/-- The hunt of a route from a junction, on a plane or on any other (R68). -/
def hunt (r start : Nat) (onPlane : Nat → Bool) (s : Part) : Option Nat :=
  (junctionsFrom start).find? (fun j => hunts r j s && onPlane (junctionPlane j))

/-- The claim of a call's operation: its orders and the place for REVERSE (R61). -/
def opClaim (id n : Nat) (s : Part) : Part :=
  modCall id (fun c => { c with claim := n + c.answerPlaces }) s

/-- A junction is reserved as the terminating side and its junctor order goes out (R68). -/
def takeJunction (id r j cord : Nat) (s : Part) : Part :=
  let s := reserve (.junction j) s
  let s := modRoute r (fun x => { x with hunt := (j + 1) % Config.junctions }) s
  let s := modCall id
    (fun c => { c with set.tjunction := some j, term := some (.junction j), state := .settingTerm })
    (beginOp id .extension s)
  placeOperate id (.junctor j cord .t) s

/-- A line becomes IN CALL as the called side of a call, and the cord's T point is loaded from its line
point (R24, R67). -/
def callLine (id lt cord : Nat) (s : Part) : Part :=
  handOver lt (tPoint cord) (modLine lt (fun l => { l with sup := .inCall id }) s)

/-- A called line is reached through a frame link on the call's plane (R67). -/
def takeLine (id lt n cord : Nat) (s : Part) : Part :=
  let s := reserve (.fl n) s
  let s := modCall id
    (fun c => { c with set.tfl := some n, term := some (.line lt), state := .settingTerm, set.ring := true })
    (beginOp id .extension s)
  let s := callLine id lt cord s
  place id (.ringOn cord) (placeOperate id (.line lt n) (placeOperate id (.plane n cord .t) s))

/-! ## The reswitch (R72 to R74) -/

/-- The plane a reswitch to a line moves to: the first after the call's own from which both frames and a
cord are reached, with its lowest cord (R72). -/
def linePlane (f1 f2 k : Nat) (s : Part) : Option (Nat × Nat) :=
  ((planesFrom (k + 1)).take 11).findSome? (fun p =>
    if avail (.fl (flNumber f1 p)) s && avail (.fl (flNumber f2 p)) s then
      (lowestCord p s).map (fun c => (p, c))
    else none)

/-- The first step of a reswitch (R72, R73): the new set is reserved, the operated origin crosspoints of the
call are released with the elements of its old set, and the calling line's point speaks. -/
def reswitch (id lt1 p cord : Nat) (term : Party) (s : Part) : Part :=
  let xs := releaseOrder id s
  let n1 := flNumber (lineFrame lt1) p
  let s := reserve (.cord cord) (reserve (.fl n1) s)
  let (s, tfl, tj) :=
    match term with
    | .line lt2 =>
      let n2 := flNumber (lineFrame lt2) p
      (reserve (.fl n2) s, some n2, none)
    | .junction j => (reserve (.junction j) s, none, some j)
  let was := (call id s).set
  let s := modCall id
    (fun c => { c with
      new := { fl := some n1, cord := some cord, tfl := tfl, tjunction := tj }
      old := c.set, set := {}, reswitch := true, lineSpeaks := true, term := some term
      state := .settingTerm }) (beginOp id .reswitch1 s)
  let s := match term with | .line lt2 => callLine id lt2 cord s | .junction _ => s
  let c0 := was.cord.getD 0
  let s := xs.foldl (fun s x => placeRelease id x s) s
  let s := was.elems.foldl (fun s e => setOcc e .releasing s) s
  rearm (oPoint c0) (handOver (oPoint c0) lt1 s)

/-- The second step of a reswitch (R74). One whose new set has lost the origin's frame link or the terminating
side through another call's failed release fails as at R75, with no order placed (log entry 58). -/
def reswitchStep2 (id : Nat) (s : Part) : Part :=
  let c := call id s
  let lt1 := (c.lineOrigin).getD 0
  let cord := c.new.cord.getD 0
  match c.new.fl, c.term with
  | some n1, some t =>
    let s := placeOperate id (.plane n1 cord .o) (placeOperate id (.line lt1 n1) (beginOp id .reswitch2 s))
    match t with
    | .line lt2 =>
      let n2 := c.new.tfl.getD 0
      let s := placeOperate id (.line lt2 n2) (placeOperate id (.plane n2 cord .t) s)
      place id (.ringOn cord) (modCall id (fun c => { c with new.ring := true }) s)
    | .junction j => placeOperate id (.junctor j cord .t) s
  | _, _ => takeRelease id .reswitchFailed s

/-- A reswitch ends with its crosspoints operated (R74): the new set becomes the call's, and the new
cord's O point is loaded from the calling line's. One whose terminating side has left it through another call's
failed release fails as at R75 (log entry 58). -/
def reswitchEnd (id : Nat) (s : Part) : Part :=
  if (call id s).term = none then takeRelease id .reswitchFailed s
  else
    let s := modCall id
      (fun c => { c with set := c.new, old := {}, new := {}, reswitch := false, lineSpeaks := false }) s
    let c := call id s
    let s := handOver ((c.lineOrigin).getD 0) (oPoint (c.set.cord.getD 0)) s
    extensionDone id (rearm ((c.lineOrigin).getD 0) s)

/-! ## Outcomes (R4, R62, R78, R79) -/

/-- The claim at the end of an operation, with or without a release pending (R61): 0 when the answer orders have
their outcomes (R71), the places for the answer when a yielded junction has left the record. -/
def settleClaim (id : Nat) (s : Part) : Part :=
  match (call id s).op with
  | .answer => setClaim id 0 s
  | .yielding => setClaim id (call id s).answerPlaces s
  | _ => s

/-- An operation's next step, once no order of the call is in the table (R65, R69 to R75, R81 to R83): the claim
is settled first (R61), then a release that waited for the orders begins. -/
def operationStep (id : Nat) (s : Part) : Part :=
  let c := call id s
  if !(ordersOf id s).isEmpty then s
  else if c.relPending then enterReleasing id (settleClaim id s)
  else
    match c.op with
    | .idle => s
    | .origin again => originEnd id again s
    | .originBack again => originRetry id again s
    | .extension => extensionEnd id s
    | .yielding => yieldEnd id (settleClaim id s)
    | .reversal => setFailed id s
    | .reswitch1 => reswitchStep2 id s
    | .reswitch2 => reswitchEnd id s
    | .answer => beginOp id .idle (settleClaim id s)
    | .release1 => releaseStep2 id s
    | .release2 => closeCall id s

/-- A RESERVED element none of whose OPERATE orders is outstanding becomes HELD (R4). -/
def holdElem (id : Nat) (e : ElemId) (s : Part) : Part :=
  if (elem e s).occ = .reserved ∧ operating id e s = false then setOcc e .held s else s

/-- A junction enters outgoing use (R37): IN CALL with use OUTGOING, its point sensing polarity. -/
def enterOutgoing (id j : Nat) (s : Part) : Part :=
  let s := modJunction j (fun r => { r with sup := .inCall .outgoing id }) s
  modPoint (junctionPoint j) (fun _ => { accepted := .normal, candidate := .reversed }) s

/-- An OPERATE is DONE (R4, R37, R55, R62). -/
def operateDone (id : Nat) (x : Xp) (s : Part) : Part :=
  let s := modCall id (fun c => { c with xps := setXp x .operated c.xps }) s
  let s := if onlyFaulty x s then dropXp id x s else s
  match x with
  | .junctor j cord .t =>
    if (call id s).yielded then holdElem id (.cord cord) (setOcc (.junction j) .releasing (placeRelease id x s))
    else
      let s := holdElem id (.cord cord) (holdElem id (.junction j) s)
      if (elem (.junction j) s).occ = .held then enterOutgoing id j s else s
  | _ => x.elems.foldl (fun s e => holdElem id e s) s

/-- A crosspoint order has failed (R5, R79). -/
def crosspointFailed (id : Nat) (x : Xp) (s : Part) : Part :=
  modCall id (fun c => { c with opFailed := true }) (markFaulty id x.blame (dropXp id x s))

/-- A reswitch fails with a failed crosspoint order of its call (R75). -/
def failReswitch (id : Nat) (s : Part) : Part :=
  if (call id s).reswitch then takeRelease id .reswitchFailed s else s

/-- An element of a call whose last RELEASE order has its outcome becomes FREE (R4). -/
def freeReleased (id : Nat) (e : ElemId) (s : Part) : Part :=
  if (elem e s).occ = .releasing ∧ releasingElem id e s = false ∧ e ∈ (call id s).elems then
    freeElem id e s
  else s

/-- A RELEASE has its outcome (R4, R62, R79): the crosspoint leaves the list, a failure marks its frame link
or junction FAULTY, and each element no other release names becomes FREE; a reswitch then fails with a
failed release (R75). -/
def releaseOutcome (id : Nat) (x : Xp) (r : DriveOutcome) (s : Part) : Part :=
  if r = .done then x.elems.foldl (fun s e => freeReleased id e s) (dropXp id x s)
  else failReswitch id (x.elems.foldl (fun s e => freeReleased id e s) (crosspointFailed id x s))

/-- RING FAULT, to the call's owner: the action that failed (R79). -/
def ringFault (id code : Nat) (r : DriveOutcome) (s : Part) : Part :=
  if r = .done then s else raiseCall id .ringFault [b8 id, b8 code] s

/-- COIN COLLECT has its outcome (R132, R133): the deposits are added to the origin line's meter; a COIN FAULT
is queued ahead of a ROLLOVER (log entry 55). -/
def collectOutcome (id : Nat) (r : DriveOutcome) (s : Part) : Part :=
  let c := call id s
  let s := if r = .done then s else raiseCoinFault id false s
  addUnits ((c.lineOrigin).getD 0) ((c.coin.map Coin.deposits).getD 0) s

/-- The effect of an outcome on the crosspoint list, the element records and the call (R78, R79). -/
def applyOutcome (o : Order) (r : DriveOutcome) (s : Part) : Part :=
  match o.act with
  | .operate x =>
    if r = .done then operateDone o.call x s else failReswitch o.call (crosspointFailed o.call x s)
  | .release x => releaseOutcome o.call x r s
  | .ringOn _ => ringFault o.call 0 r s
  | .ringOff _ => ringFault o.call 1 r s
  | .reverse _ => ringFault o.call 2 r s
  | .collect _ => collectOutcome o.call r s
  | .refund _ => if r = .done then s else raiseCoinFault o.call true s

/-- An order leaves the table and its unit's list; the unit's next order is then its DISPATCHED one (R77). -/
def removeOrder (n : Nat) (s : Part) : Part :=
  { s with orders := s.orders.filter (fun o => decide (o.id ≠ n)) }

/-- An order receives its outcome (R77, R78), which is handed to the operation that placed it. -/
def orderOutcome (o : Order) (r : DriveOutcome) (s : Part) : Part :=
  operationStep o.call (applyOutcome o r (removeOrder o.id s))

/-- An outcome for the order a unit has DISPATCHED, if it is the order named; otherwise nothing (R78). -/
def unitOutcome (u : DriveUnit) (n : Nat) (r : DriveOutcome) (s : Part) : Part :=
  match dispatched u s with
  | some o => if o.id = n then orderOutcome o r s else s
  | none => s

end Sys2Proof.Machine
end

