-- ==== Sys2Proof/Machine/Drive.lean ====
section
/-!
DEFINITION. The commands of the Drive Order Unit (section 4.6) and of the nonvolatile write engine
(section 8.3): the outcomes of orders, the end of a write, and the trickle slot.
-/

namespace Sys2Proof.Machine

/-- DRIVE_CONFIRMATION (R78). -/
def execDriveConfirmation (u : DriveUnit) (n : Nat) (positive : Bool) (s : State) :
    Host.Outcome State Fault Refusal :=
  onPart (unitOutcome u n (if positive then .done else .refused)) s

/-- DRIVE_TIMEOUT (R78). -/
def execDriveTimeout (u : DriveUnit) (n : Nat) (s : State) : Host.Outcome State Fault Refusal :=
  onPart (unitOutcome u n .timeout) s

/-- NV_WRITE_END (R141). -/
def execNvWriteEnd (verified : Bool) (s : State) : Host.Outcome State Fault Refusal :=
  onPart (writeEnd verified) s

/-- TRICKLE_SLOT (R145). -/
def execTrickleSlot (s : State) : Host.Outcome State Fault Refusal := onPart trickle s

end Sys2Proof.Machine
end

