-- ==== Sys2Proof/Machine/Grant.lean ====
section
/-!
DEFINITION. The search arbiter and the work done at a grant (R59 to R61): serving and queueing an origin
(R49, R50), the re-hunt (R57), the extension (R66 to R68, R72), and a release from the wait list (R80).
-/

namespace Sys2Proof.Machine

/-! ## The arbiter's choice (R59, R60) -/

/-- The worst case of an EXTEND (R59). -/
def extendWorst (r : ExtendRequest) (s : Part) : Nat :=
  let c := call r.call s
  if r.allow && c.lineOrigin.isSome then 7
  else
    match r.dest with
    | .line _ => 3 + c.answerPlaces
    | .route _ => 1 + c.answerPlaces

/-- The worst case of a client's waiting request, if it has one (R59). -/
def requestOf (c : Client) (s : Part) : Option Nat :=
  match c with
  | .server => s.orig.request
  | .ctl x => (ctl x s).extend.map (fun r => extendWorst r s)
  | .release => s.arb.releaseWait.head?.map (fun id => Config.releasePlaces - (call id s).claim)

/-- A client's search priority (R59). -/
def priority (c : Client) (s : Part) : Nat :=
  match c with
  | .server => s.timers.prioServer
  | .ctl .a => s.timers.prioA
  | .ctl .b => s.timers.prioB
  | .release => s.timers.prioRelease

/-- The clients in their cyclic order, from the one after the given client (R60). -/
def clientsAfter : Client → List Client
  | .server => [.ctl .a, .ctl .b, .release, .server]
  | .ctl .a => [.ctl .b, .release, .server, .ctl .a]
  | .ctl .b => [.release, .server, .ctl .a, .ctl .b]
  | .release => [.server, .ctl .a, .ctl .b, .release]

/-- The client last granted at a priority (R60). -/
def lastGranted (p : Nat) (s : Part) : Client := s.arb.last.getD p .release

/-- The waiting client selected (R60): the highest priority among those waiting, and at one priority the
first in the cyclic order after the one last granted there. -/
def selected (s : Part) : Option Client :=
  [3, 2, 1, 0].findSome? (fun p =>
    (clientsAfter (lastGranted p s)).find? (fun c =>
      decide (priority c s = p) && (requestOf c s).isSome))

/-- A client's request fits the free places (R60): the release path needs its worst case, another client 5
places more. -/
def fits (c : Client) (s : Part) : Bool :=
  match requestOf c s with
  | none => false
  | some w =>
    decide ((match c with | .release => w | _ => w + Config.releasePlaces) ≤ freePlaces s)

/-- The client to be granted, if any (R60). -/
def grantee (s : Part) : Option Client :=
  match selected s with
  | none => none
  | some c => if fits c s then some c else if fits .release s then some .release else none

/-- The grantee is recorded as the last granted at its priority (R60). -/
def recordGrant (c : Client) (s : Part) : Part :=
  { s with arb.last := s.arb.last.set (priority c s) c }

/-! ## The Origination Server's work (R48 to R50, R57) -/

/-- An origin's mark is removed. -/
def unmark (o : Party) (s : Part) : Part :=
  match o with
  | .line lt => modLine lt (fun l => { l with marked := false }) s
  | .junction j => modJunction j (fun r => { r with marked := false }) s

/-- An origin is marked. -/
def isMarked (o : Party) (s : Part) : Bool :=
  match o with
  | .line lt => (line lt s).marked
  | .junction j => (junction j s).marked

/-- The rotating pointer becomes the scan point of an origin chosen among the marked (R48). -/
def advancePointer (o : Party) (s : Part) : Part :=
  if isMarked o s then { s with orig.pointer := partyPoint o } else s

/-- The record of an origin served (R49, R86): SETTING ORIGIN, with its owner, charged party and coin
context, and the claim of an origin search. -/
def newCall (o : Party) (s : Part) : Call :=
  let base : Call :=
    { state := .settingOrigin, owner := handling o s, origin := some o, originHeld := true, claim := 2 }
  match o with
  | .line lt =>
    { base with charged := some lt, coin := if (line lt s).cls = .coin then some {} else none }
  | .junction _ => base

/-- An origin is served (R49): the FREE record with the lowest call id is allocated, the mark or the queue
entry is removed, and the origin search follows; a clear that is due by the arming that the record brings
(R22, R27) is taken when the search has placed its orders (log entry 49). -/
def serve (o : Party) (s : Part) : Part :=
  match lowestFree s with
  | none => s
  | some id =>
    let r := newCall o s
    let s := modCall id (fun _ => r) (advancePointer o s)
    let s := unmark o { s with orig.queue := s.orig.queue.filter (fun w => decide (w.origin ≠ o)) }
    produce (partyPoint o) (originSearch id false (rearm (partyPoint o) s))

/-- A marked origin is queued (R50). -/
def enqueue (o : Party) (s : Part) : Part :=
  let s := unmark o (advancePointer o s)
  { s with orig.queue := s.orig.queue ++ [{ origin := o, limit := 10 * s.timers.waitLimit }] }

/-- A re-hunt is made (R57): the entry becomes MADE, and a junction of the route on the call's plane is
taken, or the extension fails. -/
def rehunt (e : Rehunt) (s : Part) : Part :=
  let s := { s with
    orig.rehunts := s.orig.rehunts.map (fun x => if x.call = e.call then { x with made := true } else x) }
  let s := opClaim e.call 1 s
  let cord := (call e.call s).set.cord.getD 0
  match hunt e.route ((e.junction + 1) % Config.junctions) (fun k => decide (k = cordPlane cord)) s with
  | some j => takeJunction e.call e.route j cord s
  | none => setFailed e.call s

/-- A piece of the server's work is done. -/
def perform (w : Work) (s : Part) : Part :=
  match w with
  | .rehunt e => rehunt e s
  | .serve o => serve o s
  | .enqueue o => enqueue o s

/-- A grant to the Origination Server with a worst case (R48): it clears its request, chooses its work
again, and returns the grant unused where nothing remains or the work needs a larger claim; then it tests
for candidates again (R47). -/
def grantServer (worst : Nat) (s : Part) : Part :=
  let s := { s with orig.request := none }
  match chooseWork s with
  | none => retry s
  | some w => if worst < w.need s then retry s else retry (perform w s)

/-! ## The extension (R66 to R68, R72) -/

/-- The search of an extension to a line (R67), and of the reswitch it turns to (R72): the reply, and the
places of the operation chosen. -/
def extendLine (id lt : Nat) (allow : Bool) (s : Part) : ResultCode × Nat × Part :=
  let c := call id s
  let cord := c.set.cord.getD 0
  let f2 := lineFrame lt
  let n := flNumber f2 (cordPlane cord)
  if (line lt s).out then (.unavailable, 0, s)
  else if (callOf (.line lt) s).isSome ∨ (line lt s).sup ≠ .idle then (.lineBusy, 0, s)
  else if c.lineOrigin.any (fun lt1 => decide (lineFrame lt1 = f2)) then (.unavailable, 0, s)
  else if avail (.fl n) s then (.done, 3, takeLine id lt n cord s)
  else
    match allow, c.lineOrigin with
    | true, some lt1 =>
      match linePlane (lineFrame lt1) f2 (cordPlane cord) s with
      | some (p, x) => (.done, 7, reswitch id lt1 p x (.line lt) s)
      | none => (.congested, 0, s)
    | _, _ => (.congested, 0, s)

/-- The search of an extension to a route (R68), and of the reswitch it turns to (R72). -/
def extendRoute (id r : Nat) (allow : Bool) (s : Part) : ResultCode × Nat × Part :=
  let c := call id s
  let cord := c.set.cord.getD 0
  let k := cordPlane cord
  match hunt r (route r s).hunt (fun p => decide (p = k)) s with
  | some j => (.done, 1, takeJunction id r j cord s)
  | none =>
    match allow, c.lineOrigin, hunt r (route r s).hunt (fun p => decide (p ≠ k)) s with
    | true, some lt1, some j =>
      let p := junctionPlane j
      match lowestCord p s with
      | some x =>
        if avail (.fl (flNumber (lineFrame lt1) p)) s then
          let s := modRoute r (fun x => { x with hunt := (j + 1) % Config.junctions }) s
          (.done, 7, reswitch id lt1 p x (.junction j) s)
        else (.congested, 0, s)
      | none => (.congested, 0, s)
    | _, _, _ => (.congested, 0, s)

/-- A grant to a controller (R66, R92): the call leaves DIALLING for the search, and the reply is sent.
DONE records the band and the destination; a refusal returns the call to DIALLING with INTERDIGIT. An event that
the change of state leaves due is produced when the reply has been built (R22; log entry 49). -/
def grantExtend (c : Ctl) (worst : Nat) (s : Part) : Part :=
  match (ctl c s).extend with
  | none => s
  | some r =>
    let s := modCtl c (fun p => { p with extend := none }) s
    let s := modCall r.call (fun x => { x with claim := worst, timer := none }) s
    let s := dropPulses r.call s
    let (code, places, s) :=
      match r.dest with
      | .line lt => extendLine r.call lt r.allow s
      | .route n => extendRoute r.call n r.allow s
    let s :=
      if code = .done then
        opClaim r.call places (modCall r.call (fun x => { x with band := some r.band, dest := some r.dest }) s)
      else startInterdigit r.call (setClaim r.call 0 s)
    watchCall r.call (reply (.ctl c) r.tag code [] s)

/-! ## The release path (R80) and the grant -/

/-- A grant to the release path: the head of the wait list leaves it, its claim is raised to 5, and its
first step is placed. -/
def grantRelease (s : Part) : Part :=
  match s.arb.releaseWait with
  | [] => s
  | id :: rest =>
    let s := { s with arb.releaseWait := rest }
    releaseStep1 id
      (modCall id (fun c => { c with claim := max c.claim Config.releasePlaces }) s)

/-- The arbiter makes its choice, and the grantee's work is done at the grant (R60). -/
def grant (s : Part) : Part :=
  match grantee s with
  | none => s
  | some c =>
    let worst := (requestOf c s).getD 0
    let s := recordGrant c s
    match c with
    | .server => grantServer worst s
    | .ctl x => grantExtend x worst s
    | .release => grantRelease s

/-- ARBITER_GRANT (R60). -/
def execArbiterGrant (s : State) : Host.Outcome State Fault Refusal := onPart grant s

end Sys2Proof.Machine
end

