-- ==== Sys2Proof/Machine/Presence.lean ====
section
/-!
DEFINITION. The Presence Monitor (section 10.5): a controller becoming PRESENT or ABSENT, and what passes
from one controller to another (section 5.7, R184).
-/

namespace Sys2Proof.Machine

/-! ## Records that change owner (R104, R105) -/

/-- A record passes to a controller: an active one with CALL TRANSFERRED and its summary as it stands; then
its held notices enter the controller's queue (R104, R105, R179). -/
def passTo (c : Ctl) (id : Nat) (s : Part) : Part :=
  let s := modCall id (fun r => { r with owner := some c }) s
  if (call id s).active then raiseCall id .callTransferred (callSummary id s) s else drainCtl c s

/-- A record becomes ownerless (R104); a CLEARED it holds goes to the maintenance port (R102, R181). -/
def disown (id : Nat) (s : Part) : Part := drainMaint (modCall id (fun r => { r with owner := none }) s)

/-- The records of an owner, ascending. -/
def ownedBy (c : Option Ctl) (s : Part) : List Nat :=
  callsWith (fun r => decide (r.owner = c ∧ r.state ≠ .free)) s

/-! ## PRESENT (R182) -/

/-- Change a controller's presence; the window count is cleared with it. -/
def setPresent (c : Ctl) (b : Bool) (s : Part) : Part :=
  modCtl c (fun p => { p with present := b, window := 0 }) s

/-- A controller becomes PRESENT (R182), with its effects in order: the ownerless records pass to it, PEER
PRESENT, CONTROLLER PRESENT, and the retry. -/
def becomePresent (c : Ctl) (s : Part) : Part :=
  let s := setPresent c true s
  let s := (ownedBy none s).foldl (fun s id => passTo c id s) s
  let s := raisePeer (otherCtl c) true s
  retry (raiseMaint (.controllerPresent c) [b8 (ctlIndex c)] s)

/-! ## ABSENT (R183, R184) -/

/-- A notice is a CLEARED of a call. -/
def isClearedOf (id : Nat) : Notice → Bool
  | .call .cleared x _ => decide (x = id)
  | _ => false

/-- A CLEARED taken from an emptied queue goes to the tail of the maintenance queue if there is room, and is
counted as lost otherwise (R184). -/
def moveCleared (n : Notice) (s : Part) : Part :=
  if room .maint s then enter .maint n s
  else modMaint (fun m => { m with lost := min (m.lost + 1) Config.lostTop }) s

/-- A notice of a live call is set pending again, unless one of its kind is pending (R184). -/
def pendAgain (id : Nat) (k : CallKind) (data : List Byte) (s : Part) : Part :=
  if (call id s).pend.any (fun x => decide (x.1 = k)) then s
  else modCall id (fun r => { r with pend := setPending k data r.pend }) s

/-- The notices of a queue being emptied, from head to tail (R184). -/
def emptyNotices : List Notice → Part → Part
  | [], s => s
  | .call .cleared id d :: rest, s => emptyNotices rest (moveCleared (.call .cleared id d) s)
  | .call k id d :: rest, s =>
    emptyNotices rest (if rest.any (isClearedOf id) then s else pendAgain id k d s)
  | .peer _ :: rest, s => emptyNotices rest s
  | .maint _ _ _ :: rest, s => emptyNotices rest s

/-- A controller's notice queue is emptied (R184). -/
def emptyQueue (c : Ctl) (s : Part) : Part :=
  let q := (ctl c s).io.queue
  emptyNotices q (modCtl c (fun p => { p with io.queue := [] }) s)

/-- A record of a controller that goes ABSENT changes owner (R104). -/
def changeOwner (c : Ctl) (s : Part) (id : Nat) : Part :=
  if (ctl (otherCtl c) s).present then passTo (otherCtl c) id s else disown id s

/-- A controller becomes ABSENT (R183), with its five effects in order. -/
def becomeAbsent (c : Ctl) (s : Part) : Part :=
  let s := modCtl c (fun p => { p with extend := none }) (setPresent c false s)
  let s := emptyQueue c s
  let s := (ownedBy (some c) s).foldl (changeOwner c) s
  let s := modCtl c (fun p => { p with peer := none }) s
  let s := raisePeer (otherCtl c) false s
  retry (raiseMaint (.controllerAbsent c) [b8 (ctlIndex c)] s)

/-- The 20th tick since a PRESENT controller's last sign of life has been taken (R183). -/
def windowDue (c : Ctl) (s : Part) : Bool := (ctl c s).present && decide (Config.window ≤ (ctl c s).window)

/-- A presence window that has run out makes its controller ABSENT (R183). -/
def expireWindow (c : Ctl) (s : Part) : Part := if windowDue c s then becomeAbsent c s else s

/-! ## Signs of life (R182, R183) -/

/-- A well-formed request frame on a controller's port is a sign of life while the part is IN SERVICE
(R182). Where the 20th tick has been taken first, the controller becomes ABSENT by it, and the sign of life
then makes it PRESENT again (R183). -/
def signOfLife (c : Ctl) (s : Part) : Part :=
  if !s.supply.inService then s
  else
    let s := expireWindow c s
    if (ctl c s).present then modCtl c (fun p => { p with window := 0 }) s else becomePresent c s

/-- PRESENCE_WINDOW_EXPIRY (R183). -/
def execPresenceWindowExpiry (c : Ctl) (s : State) : Host.Outcome State Fault Refusal :=
  onPart (expireWindow c) s

end Sys2Proof.Machine
end

