-- ==== Sys2Proof/Machine/Ports.lean ====
section
/-!
DEFINITION. The Port Interface (chapter 10): how a request frame is received (R170, R171), the requests of
the controller ports, the ends of outbound frames and the entry of held notices.
-/

namespace Sys2Proof.Machine

/-! ## Reception (R170, R171) -/

/-- A well-formed request on a controller's port: a sign of life, then the checks of R170 in order, then
the request is taken. -/
def receiveCtl (c : Ctl) (tag : Byte) (take : Part → Part) (s : Part) : Part :=
  let s := signOfLife c s
  if s.supply.decided then immediate (.ctl c) tag .busy s
  else if (ctl c s).extend.isSome then immediate (.ctl c) tag .busy s
  else if !s.supply.inService then immediate (.ctl c) tag .notReady s
  else take s

/-- A well-formed request on the maintenance port. -/
def receiveMaint (tag : Byte) (take : Part → Part) (s : Part) : Part :=
  if s.supply.decided then immediate .maint tag .busy s
  else if s.m.restart.isSome then immediate .maint tag .busy s
  else take s

/-- A frame that is not well-formed (R170): without a byte it is discarded, otherwise it is answered FORMAT.
The bytes of a well-formed frame are not this command's, and change nothing. -/
def malformed (p : Port) (frame : List Byte) (s : Part) : Part :=
  match frame with
  | [] => s
  | tag :: _ => if wellFormedFrame p frame then s else immediate p tag .format s

/-! ## Requests of the controller ports -/

/-- A record that a controller's request may not name (R100, R106): the refusal, if any, for a record in
one of the states `bad`; BAD STATE before NOT OWNER (log entry 32). -/
def callRefusal (c : Ctl) (id : Nat) (bad : Call → Bool) (s : Part) : Option ResultCode :=
  if Config.calls ≤ id then some .noSuch
  else if bad (call id s) then some .badState
  else if (call id s).owner ≠ some c then some .notOwner
  else none

/-- RELEASE of a record by its owner (R100). -/
def releaseRequest (c : Ctl) (tag call_ : Byte) (s : Part) : Part :=
  match callRefusal c call_.toNat (fun r => !r.active) s with
  | some code => reply (.ctl c) tag code [] s
  | none => takeRelease call_.toNat .controller (reply (.ctl c) tag .done [] s)

/-- READ CALL (R106). -/
def readCallRequest (c : Ctl) (tag call_ : Byte) (s : Part) : Part :=
  match callRefusal c call_.toNat (fun r => decide (r.state = .free)) s with
  | some code => reply (.ctl c) tag code [] s
  | none => reply (.ctl c) tag .done (callSummary call_.toNat s) s

/-- READ LINE (R173). -/
def readLineRequest (c : Ctl) (tag : Byte) (lt : Word16) (s : Part) : Part :=
  if Config.lines ≤ lt.toNat then reply (.ctl c) tag .noSuch [] s
  else reply (.ctl c) tag .done (lineSummary lt.toNat s) s

/-- PRESENCE (R174): the part state and the presence of each controller. -/
def presenceRequest (c : Ctl) (tag : Byte) (s : Part) : Part :=
  reply (.ctl c) tag .done [flag s.supply.inService, flag s.a.present, flag s.b.present] s

/-- The destination of an EXTEND, by its kind code (R66). -/
def destOf (kind : Byte) (n : Nat) : Option Dest :=
  match kind.toNat with
  | 0 => some (.line n)
  | 1 => some (.route n)
  | _ => none

/-- A destination the part has (R66). -/
def Dest.exists? : Dest → Bool
  | .line lt => decide (lt < Config.lines)
  | .route r => decide (r < Config.routes)

/-- The refusal of an EXTEND when it is taken, if any, in the order of R66's sentences,
which the rule does not say is the order of the checks (log entry 32); the destination otherwise. -/
def extendCheck (c : Ctl) (call_ kind : Byte) (dest : Word16) (band permission : Byte) (s : Part) :
    Except ResultCode Dest :=
  let d := destOf kind dest.toNat
  let r := call call_.toNat s
  if Config.calls ≤ call_.toNat then .error .noSuch
  else if d.any (fun x => !x.exists?) then .error .noSuch
  else
    match d with
    | none => .error .format
    | some x =>
      if 16 ≤ band.toNat ∨ 2 ≤ permission.toNat then .error .format
      else if r.state ≠ .dialling ∨ r.relPending = true then .error .badState
      else if r.owner ≠ some c then .error .notOwner
      else .ok x

/-- EXTEND is taken (R66): refused, or the controller's request at the arbiter. -/
def extendRequest (c : Ctl) (tag call_ kind : Byte) (dest : Word16) (band permission : Byte) (s : Part) :
    Part :=
  match extendCheck c call_ kind dest band permission s with
  | .error code => reply (.ctl c) tag code [] s
  | .ok d =>
    modCtl c
      (fun p => { p with
        extend := some
          { tag := tag, call := call_.toNat, dest := d, band := band.toNat
            allow := decide (permission.toNat = 1) } }) s

/-! ## Commands -/

/-- OUTBOUND_FRAME_END (R169). -/
def execOutboundFrameEnd (p : Port) (s : State) : Host.Outcome State Fault Refusal := onPart (frameEnd p) s

/-- PENDING_NOTICE_ENTRY (R179). -/
def execPendingNoticeEntry (c : Ctl) (s : State) : Host.Outcome State Fault Refusal := onPart (drainCtl c) s

/-- MAINTENANCE_PENDING_ENTRY (R181). -/
def execMaintenancePendingEntry (s : State) : Host.Outcome State Fault Refusal := onPart drainMaint s

/-- MALFORMED_FRAME (R170). -/
def execMalformedFrame (p : Port) (frame : List Byte) (s : State) : Host.Outcome State Fault Refusal :=
  onPart (malformed p frame) s

/-- EXTEND (R66). -/
def execExtend (c : Ctl) (tag call_ kind : Byte) (dest : Word16) (band permission : Byte) (s : State) :
    Host.Outcome State Fault Refusal :=
  onPart (receiveCtl c tag (extendRequest c tag call_ kind dest band permission)) s

/-- RELEASE (R100). -/
def execRelease (c : Ctl) (tag call_ : Byte) (s : State) : Host.Outcome State Fault Refusal :=
  onPart (receiveCtl c tag (releaseRequest c tag call_)) s

/-- READ CALL (R106). -/
def execReadCall (c : Ctl) (tag call_ : Byte) (s : State) : Host.Outcome State Fault Refusal :=
  onPart (receiveCtl c tag (readCallRequest c tag call_)) s

/-- READ LINE (R173). -/
def execReadLine (c : Ctl) (tag : Byte) (lt : Word16) (s : State) : Host.Outcome State Fault Refusal :=
  onPart (receiveCtl c tag (readLineRequest c tag lt)) s

/-- PRESENCE (R174). -/
def execPresence (c : Ctl) (tag : Byte) (s : State) : Host.Outcome State Fault Refusal :=
  onPart (receiveCtl c tag (presenceRequest c tag)) s

end Sys2Proof.Machine
end

