-- ==== Sys2Proof/Machine/TimeBase.lean ====
section
/-!
DEFINITION. The Time Base and the Tariff Calendar (chapter 9): the tick and what it advances, the expiries,
the evaluation of the calendar, the sources of the tick and their selection.
-/

namespace Sys2Proof.Machine

/-! ## The calendar (R164, R165) and the period in force (R110, R117) -/

/-- The least way back, in minutes, from a minute of the week to an instant of an entry (R164). -/
def wayBack (now : Nat) (e : CalEntry) : Option Nat :=
  (((List.range 7).filter (fun d => e.mask.getLsbD d)).map
    (fun d => (now + Config.weekMinutes - (Config.dayMinutes * d + e.minute)) % Config.weekMinutes)).min?

/-- The better of the entry found so far and entry `i`: the shorter way back, and of equal ones the higher
index (R164). -/
def nearer (best : Option (Nat × Nat)) (i : Nat) (back : Option Nat) : Option (Nat × Nat) :=
  match back with
  | none => best
  | some b =>
    match best with
    | none => some (i, b)
    | some (j, a) => if b ≤ a then some (i, b) else some (j, a)

/-- The entry in force (R164), none while the time of week is INVALID. -/
def entryInForce (s : Part) : Option Nat :=
  if s.tb.valid then
    let now := Config.dayMinutes * s.tb.day + s.tb.minute
    ((List.range 16).foldl
      (fun best i => nearer best i (wayBack now (Table.get {} s.cal.entries i))) none).map Prod.fst
  else none

/-- The increments of the 16 bands in a period (R110). -/
def bandIncrements (p : Period) (s : Part) : List Nat :=
  (List.range 16).map (fun b => increment (Table.get {} s.charge.tariff (4 * b + p.code)).unitPeriod)

/-- Every charging call takes its band's entry of the band increment table (R109, R110, R117). -/
def takeIncrements (s : Part) : Part :=
  (callsWith Call.charging s).foldl
    (fun s id => modCall id (fun c => { c with incr := bandIncrement (c.band.getD 0) s }) s) s

/-- The Charge Unit takes a new period (R117). -/
def takePeriod (p : Period) (s : Part) : Part :=
  let incs := bandIncrements p s
  takeIncrements { s with charge.period := p, charge.incs := incs }

/-- The calendar is evaluated, and changes of period and profile are reported (R164, R165). -/
def evaluate (s : Part) : Part :=
  let i := entryInForce s
  let e : CalEntry := match i with | some i => Table.get {} s.cal.entries i | none => {}
  let period := s.cal.force.getD e.period
  let changedPeriod := decide (period ≠ s.cal.period)
  let changedProfile := decide (e.profile ≠ s.cal.profile)
  let s := { s with
    cal.entry := i, cal.calPeriod := e.period, cal.period := period, cal.profile := e.profile }
  let s := if changedPeriod then takePeriod period s else s
  if changedProfile then retry s else s

/-! ## Expiries -/

/-- The call timer of a record has reached its limit (R88). -/
def timerDue (id : Nat) (s : Part) : Option TimerKind :=
  match (call id s).timer with
  | some t => if t.limit ≤ t.count then some t.kind else none
  | none => none

/-- The reason of a call timer's expiry (R88). -/
def TimerKind.reason : TimerKind → Reason
  | .firstDigit => .dialTimeout
  | .interdigit => .dialTimeout
  | .noAnswer => .noAnswer
  | .hold => .calledCleared

/-- A call timer of one of the kinds given expires, if it is due (R88, R91, R93, R95). -/
def expireTimer (kinds : List TimerKind) (id : Nat) (s : Part) : Part :=
  match timerDue id s with
  | some k => if k ∈ kinds then takeRelease id k.reason s else s
  | none => s

/-- The grace timer of a record has reached its limit and is not held (R127, R128). -/
def graceDue (id : Nat) (s : Part) : Bool :=
  !(call id s).released &&
    match (call id s).coin.bind Coin.grace with
    | some (limit, count) => decide (limit ≤ count)
    | none => false

/-- A grace timer expires, if it is due (R128). -/
def expireGrace (id : Nat) (s : Part) : Part :=
  if graceDue id s then takeRelease id .creditExhausted s else s

/-- Every timer kind. -/
def allTimers : List TimerKind := [.firstDigit, .interdigit, .noAnswer, .hold]

/-- A call's own expiries, if they are due. -/
def expireCall (id : Nat) (s : Part) : Part := expireGrace id (expireTimer allTimers id s)

/-- A queue entry has waited to its limit (R52). -/
def waitDue (o : Party) (s : Part) : Bool :=
  s.orig.queue.any (fun w => decide (w.origin = o ∧ w.limit ≤ w.wait))

/-- A queue entry's wait expires, if it is due (R52): the line becomes PARKED, the junction HELD UNSERVED,
and the entry leaves the queue. -/
def expireWait (o : Party) (s : Part) : Part :=
  if waitDue o s then
    let s :=
      match o with
      | .line lt => modLine lt (fun l => { l with sup := .parked }) s
      | .junction j => modJunction j (fun r => { r with sup := .heldUnserved }) s
    watch (partyPoint o) (dequeue o s)
  else s

/-- The evaluation that follows a minute boundary tick (R165). -/
def evaluateBoundary (s : Part) : Part :=
  if s.cal.due then evaluate { s with cal.due := false } else s

/-- The expiries that a tick brought and that have not been taken are taken before the next tick: each is
taken at its tick (R52, R88, R127, R165, R183). -/
def settleExpiries (s : Part) : Part :=
  let s := (callsWith (fun c => c.active) s).foldl (fun s id => expireCall id s) s
  let s := (s.orig.queue.map WaitEntry.origin).foldl (fun s o => expireWait o s) s
  evaluateBoundary (expireWindow .b (expireWindow .a s))

/-! ## The tick (R154) -/

/-- The time of week advanced by one tenth (R161). -/
def advanceTime (t : TimeBase) : TimeBase :=
  if t.tenth < 9 then { t with tenth := t.tenth + 1 }
  else if t.second < 59 then { t with tenth := 0, second := t.second + 1 }
  else if t.minute < 1439 then { t with tenth := 0, second := 0, minute := t.minute + 1 }
  else { t with tenth := 0, second := 0, minute := 0, day := if t.day < 6 then t.day + 1 else 0 }

/-- The time of week takes a tick (R161): at a minute boundary an evaluation follows, and a midnight tick
ends a force (R166). -/
def tickTime (s : Part) : Part :=
  let t := advanceTime s.tb
  let boundary := decide (t.second = 0 ∧ t.tenth = 0)
  let midnight := decide (t.second = 0 ∧ t.tenth = 0 ∧ t.minute = 0)
  { s with
    tb := t
    cal.due := s.cal.due || boundary
    cal.force := if midnight then none else s.cal.force }

/-- A record's call timer and grace timer take a tick (R88, R127, R128). -/
def tickCall (c : Call) : Call :=
  { c with
    timer := c.timer.map (fun t => { t with count := t.count + 1 })
    coin :=
      if c.released then c.coin
      else c.coin.map (fun k => { k with grace := k.grace.map (fun g => (g.1, g.2 + 1)) }) }

/-- The wait queue takes a tick (R50). -/
def tickQueue (s : Part) : Part :=
  { s with orig.queue := s.orig.queue.map (fun w => { w with wait := w.wait + 1 }) }

/-- A controller's presence window takes a tick (R183). -/
def tickWindow (c : Ctl) (s : Part) : Part :=
  if (ctl c s).present then modCtl c (fun p => { p with window := min (p.window + 1) Config.window }) s
  else s

/-- The call timers and grace timers of every record take a tick. -/
def tickCalls (s : Part) : Part :=
  (callsWith (fun c => c.active) s).foldl (fun s id => modCall id tickCall s) s

/-- The Charge Unit takes a tick: every charging record accrues (R113), in ascending call id (log entry 54). -/
def chargeTick (s : Part) : Part := (callsWith Call.charging s).foldl (fun s id => accrue id s) s

/-- A tick of the selected source (R154): the time of week, the queue, the windows and the timers take it;
the calls `early` take their expiries before the Charge Unit takes it (R114, R129); then every charging
record accrues. -/
def takeTick (early : List Nat) (s : Part) : Part :=
  let s := tickTime (settleExpiries s)
  let s := tickCalls (tickWindow .b (tickWindow .a (tickQueue s)))
  chargeTick (early.foldl (fun s id => expireCall id s) s)

/-- TICK (R154, R160): the divider of CRYSTAL or INTERNAL gives a tick; it gives none while STATION is the
selection. -/
def dividerTick (early : List Nat) (s : Part) : Part :=
  if s.tb.selection = .station then s else takeTick early s

/-! ## The selection (R157 to R160) -/

/-- Change the Time Base. -/
def modTb (f : TimeBase → TimeBase) (s : Part) : Part := { s with tb := f s.tb }

/-- The first tick of a new CRYSTAL or INTERNAL selection falls at once if 100 ms have passed since the last
tick (R160). -/
def placeTick (m : Moment) (s : Part) : Part :=
  if s.tb.selection ≠ .station ∧ Config.tickMs ≤ m.sinceTick then takeTick m.early s else s

/-- A source becomes the selection, and its tick is placed; the fallback flag is cleared if it is the
preferred source, at a loss too (R158, R160; log entry 63). -/
def selectNow (m : Moment) (src : Source) (s : Part) : Part :=
  placeTick m
    (modTb (fun t =>
      { t with selection := src, fallback := if src = t.preferred then false else t.fallback }) s)

/-- The source the policy selects, if any (R158). -/
def policyChoice (s : Part) : Option Source :=
  if usable s.tb.preferred s then some s.tb.preferred
  else if s.tb.preferred ≠ .internal ∧ s.tb.crystal = .ready then some .crystal
  else none

/-- The preferred-source policy is applied (R158); a change it makes with the fallback flag set queues TIMEBASE
RESTORED, whether to the preferred source or to CRYSTAL in its place (log entry 12), behind the notices of a tick
that falls at once (log entry 11). -/
def policy (m : Moment) (s : Part) : Part :=
  match policyChoice s with
  | none => s
  | some src =>
    if src = s.tb.selection then
      if src = s.tb.preferred then modTb (fun t => { t with fallback := false }) s else s
    else
      let old := s.tb.selection
      let flagged := s.tb.fallback
      let s := selectNow m src s
      if flagged then raiseMaint .timebaseRestored [b8 src.code, b8 old.code] s else s

/-- A loss of the selected source (R159): the selection falls to CRYSTAL, if the station was lost and the
crystal is READY, and to INTERNAL otherwise; the tick is placed, and TIMEBASE FALLBACK is queued behind its
notices (log entry 11). A fall to the preferred source clears a fallback flag that is set (log entry 63). -/
def loseSource (m : Moment) (lost : Source) (s : Part) : Part :=
  let src : Source := if lost = .station ∧ s.tb.crystal = .ready then .crystal else .internal
  let s := modTb (fun t => { t with fallback := t.fallback || decide (src ≠ t.preferred) }) s
  raiseMaint .timebaseFallback [b8 lost.code, b8 src.code] (selectNow m src s)

/-! ## The station clock and the crystal (R155, R156) -/

/-- A station pulse is counted (R156). -/
def countPulse (m : Moment) (s : Part) : Part :=
  match s.tb.station with
  | .valid => s
  | .absent => modTb (fun t => { t with station := .qualifying, count := 1 }) s
  | .qualifying =>
    if s.tb.requirement ≤ s.tb.count + 1 then
      policy m
        (modTb (fun t =>
          { t with station := .valid, count := 0, requirement := Config.firstQualification }) s)
    else modTb (fun t => { t with count := t.count + 1 }) s

/-- A station pulse (R156, R160): with STATION already the selection it gives a tick, if 50 ms have passed
since the last. -/
def pulse (m : Moment) (s : Part) : Part :=
  let ticks := decide (s.tb.selection = .station ∧ Config.stationTickMs ≤ m.sinceTick)
  let s := countPulse m s
  if ticks then takeTick m.early s else s

/-- A station gap (R156, R159). -/
def gap (m : Moment) (s : Part) : Part :=
  match s.tb.station with
  | .absent => s
  | .qualifying => modTb (fun t => { t with station := .absent, count := 0 }) s
  | .valid =>
    let s := modTb
      (fun t => { t with station := .absent, count := 0, requirement := Config.requalification }) s
    if s.tb.selection = .station then loseSource m .station s else s

/-- The crystal has run its 65,536 cycles (R155). -/
def crystalReady (m : Moment) (s : Part) : Part :=
  if s.tb.crystal = .starting then policy m (modTb (fun t => { t with crystal := .ready }) s) else s

/-- A crystal failure (R155, R159). -/
def crystalFailure (m : Moment) (s : Part) : Part :=
  if s.tb.crystal = .stopped then s
  else
    let s := modTb (fun t => { t with crystal := .stopped }) s
    if s.tb.selection = .crystal then loseSource m .crystal s else s

/-! ## Commands -/

/-- TICK (R154). -/
def execTick (early : List Nat) (s : State) : Host.Outcome State Fault Refusal :=
  onPart (dividerTick early) s

/-- DIAL_TIMEOUT (R91). -/
def execDialTimeout (id : Nat) (s : State) : Host.Outcome State Fault Refusal :=
  onPart (expireTimer [.firstDigit, .interdigit] id) s

/-- NO_ANSWER (R93). -/
def execNoAnswer (id : Nat) (s : State) : Host.Outcome State Fault Refusal :=
  onPart (expireTimer [.noAnswer] id) s

/-- HOLD_EXPIRY (R95). -/
def execHoldExpiry (id : Nat) (s : State) : Host.Outcome State Fault Refusal :=
  onPart (expireTimer [.hold] id) s

/-- GRACE_EXPIRY (R128). -/
def execGraceExpiry (id : Nat) (s : State) : Host.Outcome State Fault Refusal := onPart (expireGrace id) s

/-- WAIT_LIMIT_EXPIRY (R52). -/
def execWaitLimitExpiry (o : Party) (s : State) : Host.Outcome State Fault Refusal :=
  onPart (expireWait o) s

/-- MINUTE_BOUNDARY (R165). -/
def execMinuteBoundary (s : State) : Host.Outcome State Fault Refusal := onPart evaluateBoundary s

/-- STATION_PULSE (R156). -/
def execStationPulse (m : Moment) (s : State) : Host.Outcome State Fault Refusal := onPart (pulse m) s

/-- STATION_GAP (R156). -/
def execStationGap (m : Moment) (s : State) : Host.Outcome State Fault Refusal := onPart (gap m) s

/-- CRYSTAL_READY (R155). -/
def execCrystalReady (m : Moment) (s : State) : Host.Outcome State Fault Refusal :=
  onPart (crystalReady m) s

/-- CRYSTAL_FAILURE (R155). -/
def execCrystalFailure (m : Moment) (s : State) : Host.Outcome State Fault Refusal :=
  onPart (crystalFailure m) s

end Sys2Proof.Machine
end

