-- ==== Sys2Proof/Machine/Maintenance.lean ====
section
/-!
DEFINITION. The requests of the maintenance port other than those on tables: service and configuration
(chapter 11), busy-out (section 1.3), calls, meters and snapshots (section 8.4), the time (chapter 9),
RESTART (R192) and READ STATUS (R175).
-/

namespace Sys2Proof.Machine

/-! ## Service and configuration (R190, R191) -/

/-- The checks of START SERVICE (R190): every frame and route has a home, every junction a route, and every
route a junction. -/
def serviceChecks (s : Part) : Bool :=
  (List.range Config.frames).all (fun f => (frame f s).home.isSome) &&
    (List.range Config.routes).all (fun r => (route r s).home.isSome) &&
    (List.range Config.junctions).all (fun j => (junction j s).route.isSome) &&
    (List.range Config.routes).all (fun r =>
      (List.range Config.junctions).any (fun j => decide ((junction j s).route = some r)))

/-- START SERVICE is taken (R190). -/
def startServiceRequest (tag : Byte) (s : Part) : Part :=
  if s.supply.inService ∨ serviceChecks s = false then reply .maint tag .badState [] s
  else
    reply .maint tag .done []
      (setPresent .b false (setPresent .a false { s with supply.inService := true }))

/-- SAVE CONFIGURATION is taken (R191). -/
def saveRequest (tag : Byte) (s : Part) : Part :=
  if s.supply.inService = false ∨ s.meters.save.isSome then reply .maint tag .badState [] s
  else nextWrite (reply .maint tag .done [] (modMeters (fun m => { m with save := some {} }) s))

/-! ## Busy-out and return (R7, R8, R11) -/

/-- The object of BUSY OUT and RETURN TO SERVICE. -/
inductive Target where
  | line (lt : Nat)
  | elem (e : ElemId)
  deriving DecidableEq, Repr

/-- The object a kind code and a number name: FORMAT for a kind that does not exist, NO SUCH for a number
outside its range (R7, R11, R172). -/
def targetOf (kind : Byte) (n : Nat) : Except ResultCode Target :=
  match kind.toNat with
  | 0 => if n < Config.lines then .ok (.line n) else .error .noSuch
  | 1 => if n < Config.frameLinks then .ok (.elem (.fl n)) else .error .noSuch
  | 2 => if n < Config.cords then .ok (.elem (.cord n)) else .error .noSuch
  | 3 => if n < Config.junctions then .ok (.elem (.junction n)) else .error .noSuch
  | _ => .error .format

/-- BUSY OUT is taken (R7, R11). -/
def busyOutRequest (tag kind : Byte) (n : Word16) (s : Part) : Part :=
  match targetOf kind n.toNat with
  | .error code => reply .maint tag code [] s
  | .ok (.line lt) => reply .maint tag .done [] (busyOutLine lt s)
  | .ok (.elem e) => reply .maint tag .done [] (busyOutElem e s)

/-- RETURN TO SERVICE is taken (R8, R11); a FAULTY element that an order still names is refused. -/
def returnRequest (tag kind : Byte) (n : Word16) (s : Part) : Part :=
  match targetOf kind n.toNat with
  | .error code => reply .maint tag code [] s
  | .ok (.line lt) => reply .maint tag .done [] (returnLine lt s)
  | .ok (.elem e) =>
    if (elem e s).occ = .faulty ∧ ordered e s = true then reply .maint tag .badState [] s
    else reply .maint tag .done [] (returnElem e s)

/-- RELEASE CALL is taken (R101). -/
def releaseCallRequest (tag call_ : Byte) (s : Part) : Part :=
  if Config.calls ≤ call_.toNat then reply .maint tag .noSuch [] s
  else if (call call_.toNat s).active = false then reply .maint tag .badState [] s
  else takeRelease call_.toNat .maintenance (reply .maint tag .done [] s)

/-! ## Meters and snapshots (R138, R144, R149 to R151) -/

/-- The refusal of a readout by its range, if any (R149, R151): FORMAT before NO SUCH (log entry 32). -/
def rangeRefusal (first count : Nat) : Option ResultCode :=
  if count = 0 ∨ 64 < count then some .format
  else if Config.lines ≤ first ∨ Config.lines < first + count then some .noSuch
  else none

/-- READ METERS is taken (R149). -/
def readMetersRequest (tag : Byte) (first : Word16) (count : Byte) (s : Part) : Part :=
  match rangeRefusal first.toNat count.toNat with
  | some code => reply .maint tag code [] s
  | none =>
    reply .maint tag .done
      ((List.range count.toNat).flatMap (fun i => meterItem (first.toNat + i) s)) s

/-- TAKE SNAPSHOT is taken (R150). -/
def takeSnapshotRequest (tag : Byte) (s : Part) : Part :=
  match s.meters.snapshot with
  | some _ => reply .maint tag .held [] s
  | none =>
    reply .maint tag .done (timeStamp s).bytes
      (modMeters (fun m => { m with snapshot := some (snapshotNow s) }) s)

/-- READ SNAPSHOT is taken (R151): its range is checked before the table is found empty (log entry 32). -/
def readSnapshotRequest (tag : Byte) (first : Word16) (count : Byte) (s : Part) : Part :=
  match rangeRefusal first.toNat count.toNat with
  | some code => reply .maint tag code [] s
  | none =>
    match s.meters.snapshot with
    | none => reply .maint tag .badState [] s
    | some t =>
      reply .maint tag .done
        (t.stamp.bytes ++ (List.range count.toNat).flatMap (fun i => snapshotItem (first.toNat + i) t)) s

/-- DROP SNAPSHOT is taken (R151). -/
def dropSnapshotRequest (tag : Byte) (s : Part) : Part :=
  reply .maint tag .done [] (modMeters (fun m => { m with snapshot := none }) s)

/-- A request on one line's meter entry is taken: NO SUCH, or DONE with its effect (R138, R144). -/
def meterRequest (tag : Byte) (lt : Word16) (f : Nat → Part → Part) (s : Part) : Part :=
  if Config.lines ≤ lt.toNat then reply .maint tag .noSuch [] s
  else reply .maint tag .done [] (f lt.toNat s)

/-! ## The time (R155, R157, R162, R166) -/

/-- SET TIME is taken (R162): each value clamped, the time VALID, and the calendar evaluated. -/
def setTimeRequest (tag day : Byte) (minute : Word16) (second tenth : Byte) (s : Part) : Part :=
  let d := clamp 0 6 day.toNat
  let m := clamp 0 1439 minute.toNat
  let x := clamp 0 59 second.toNat
  let t := clamp 0 9 tenth.toNat
  let same := decide (d = day.toNat ∧ m = minute.toNat ∧ x = second.toNat ∧ t = tenth.toNat)
  let s := evaluate
    (modTb (fun b => { b with day := d, minute := m, second := x, tenth := t, valid := true }) s)
  reply .maint tag (if same then .done else .doneClamped) [] s

/-- READ TIME is taken (R162). -/
def readTimeRequest (tag : Byte) (s : Part) : Part := reply .maint tag .done (timeReport s) s

/-- SELECT SOURCE is taken (R157); the reply is built when the source has been selected and a tick that falls at
once has been taken (log entry 64). -/
def selectRequest (tag source : Byte) (m : Moment) (s : Part) : Part :=
  match Source.ofCode source.toNat with
  | none => reply .maint tag .format [] s
  | some src =>
    if usable src s = false then reply .maint tag .notReady [] s
    else if src = s.tb.selection then reply .maint tag .done [] s
    else reply .maint tag .done [] (selectNow m src s)

/-- START CRYSTAL is taken (R155). -/
def startCrystalRequest (tag : Byte) (s : Part) : Part :=
  reply .maint tag .done []
    (if s.tb.crystal = .stopped then modTb (fun t => { t with crystal := .starting }) s else s)

/-- STOP CRYSTAL is taken (R155). -/
def stopCrystalRequest (tag : Byte) (s : Part) : Part :=
  if s.tb.selection = .crystal then reply .maint tag .badState [] s
  else reply .maint tag .done [] (modTb (fun t => { t with crystal := .stopped }) s)

/-- FORCE PERIOD is taken (R166). -/
def forceRequest (tag period : Byte) (s : Part) : Part :=
  match Period.ofCode period.toNat with
  | none => reply .maint tag .format [] s
  | some p => reply .maint tag .done [] (evaluate { s with cal.force := some p })

/-- FORCE CLEAR is taken (R166). -/
def forceClearRequest (tag : Byte) (s : Part) : Part :=
  reply .maint tag .done [] (evaluate { s with cal.force := none })

/-! ## RESTART and READ STATUS (R42, R175, R192) -/

/-- A line ORIGINATING that no record names becomes PARKED (R42). -/
def parkOrigin (s : Part) (lt : Nat) : Part :=
  if (line lt s).sup = .originating ∧ callOf (.line lt) s = none then
    watch lt (modLine lt (fun l => { l with sup := .parked, marked := false }) s)
  else s

/-- A junction ORIGINATING that no record names becomes HELD UNSERVED (R42). -/
def holdOrigin (s : Part) (j : Nat) : Part :=
  if (junction j s).sup = .originating ∧ callOf (.junction j) s = none then
    watch (junctionPoint j) (modJunction j (fun r => { r with sup := .heldUnserved, marked := false }) s)
  else s

/-- The wait queue and the marks are emptied (R42, R192). -/
def emptyOrigins (s : Part) : Part :=
  let s := { s with orig.queue := [] }
  let s := (s.net.lines.map Prod.fst).foldl parkOrigin s
  retry ((s.net.junctions.map Prod.fst).foldl holdOrigin s)

/-- RESTART becomes the request in flight, or is answered at once where no call is active (R192). -/
def openRestart (tag : Byte) (active : List Nat) (s : Part) : Part :=
  if active = [] then reply .maint tag .done [] s
  else modMaint (fun m => { m with restart := some { tag := tag, waiting := active } }) s

/-- A PRESENT controller is made ABSENT (R192). -/
def silence (c : Ctl) (s : Part) : Part := if (ctl c s).present then becomeAbsent c s else s

/-- RESTART is taken (R192), with its three effects in order; the releases are taken in ascending call id (log
entry 39). -/
def restartRequest (tag : Byte) (s : Part) : Part :=
  if s.supply.inService = false then reply .maint tag .badState [] s
  else
    let active := callsWith Call.active s
    let s := active.foldl (fun s id => takeRelease id .restart s) (openRestart tag active s)
    silence .b (silence .a (emptyOrigins s))

/-- READ STATUS is taken (R175). -/
def readStatusRequest (tag : Byte) (s : Part) : Part := reply .maint tag .done (statusReport s) s

/-! ## Commands -/

/-- START SERVICE (R190). -/
def execStartService (tag : Byte) (s : State) : Host.Outcome State Fault Refusal :=
  onPart (receiveMaint tag (startServiceRequest tag)) s

/-- SAVE CONFIGURATION (R191). -/
def execSaveConfiguration (tag : Byte) (s : State) : Host.Outcome State Fault Refusal :=
  onPart (receiveMaint tag (saveRequest tag)) s

/-- BUSY OUT (R7, R11). -/
def execBusyOut (tag kind : Byte) (n : Word16) (s : State) : Host.Outcome State Fault Refusal :=
  onPart (receiveMaint tag (busyOutRequest tag kind n)) s

/-- RETURN TO SERVICE (R8, R11). -/
def execReturnToService (tag kind : Byte) (n : Word16) (s : State) : Host.Outcome State Fault Refusal :=
  onPart (receiveMaint tag (returnRequest tag kind n)) s

/-- RELEASE CALL (R101). -/
def execReleaseCall (tag call_ : Byte) (s : State) : Host.Outcome State Fault Refusal :=
  onPart (receiveMaint tag (releaseCallRequest tag call_)) s

/-- READ METERS (R149). -/
def execReadMeters (tag : Byte) (first : Word16) (count : Byte) (s : State) :
    Host.Outcome State Fault Refusal :=
  onPart (receiveMaint tag (readMetersRequest tag first count)) s

/-- TAKE SNAPSHOT (R150). -/
def execTakeSnapshot (tag : Byte) (s : State) : Host.Outcome State Fault Refusal :=
  onPart (receiveMaint tag (takeSnapshotRequest tag)) s

/-- READ SNAPSHOT (R151). -/
def execReadSnapshot (tag : Byte) (first : Word16) (count : Byte) (s : State) :
    Host.Outcome State Fault Refusal :=
  onPart (receiveMaint tag (readSnapshotRequest tag first count)) s

/-- DROP SNAPSHOT (R151). -/
def execDropSnapshot (tag : Byte) (s : State) : Host.Outcome State Fault Refusal :=
  onPart (receiveMaint tag (dropSnapshotRequest tag)) s

/-- CLEAR ROLLOVER (R138). -/
def execClearRollover (tag : Byte) (lt : Word16) (s : State) : Host.Outcome State Fault Refusal :=
  onPart (receiveMaint tag (meterRequest tag lt clearRolloverFlag)) s

/-- CLEAR NV FAULT (R144). -/
def execClearNvFault (tag : Byte) (lt : Word16) (s : State) : Host.Outcome State Fault Refusal :=
  onPart (receiveMaint tag (meterRequest tag lt clearFaultFlag)) s

/-- SET TIME (R162). -/
def execSetTime (tag day : Byte) (minute : Word16) (second tenth : Byte) (s : State) :
    Host.Outcome State Fault Refusal :=
  onPart (receiveMaint tag (setTimeRequest tag day minute second tenth)) s

/-- READ TIME (R162). -/
def execReadTime (tag : Byte) (s : State) : Host.Outcome State Fault Refusal :=
  onPart (receiveMaint tag (readTimeRequest tag)) s

/-- SELECT SOURCE (R157). -/
def execSelectSource (tag source : Byte) (m : Moment) (s : State) : Host.Outcome State Fault Refusal :=
  onPart (receiveMaint tag (selectRequest tag source m)) s

/-- START CRYSTAL (R155). -/
def execStartCrystal (tag : Byte) (s : State) : Host.Outcome State Fault Refusal :=
  onPart (receiveMaint tag (startCrystalRequest tag)) s

/-- STOP CRYSTAL (R155). -/
def execStopCrystal (tag : Byte) (s : State) : Host.Outcome State Fault Refusal :=
  onPart (receiveMaint tag (stopCrystalRequest tag)) s

/-- FORCE PERIOD (R166). -/
def execForcePeriod (tag period : Byte) (s : State) : Host.Outcome State Fault Refusal :=
  onPart (receiveMaint tag (forceRequest tag period)) s

/-- FORCE CLEAR (R166). -/
def execForceClear (tag : Byte) (s : State) : Host.Outcome State Fault Refusal :=
  onPart (receiveMaint tag (forceClearRequest tag)) s

/-- RESTART (R192). -/
def execRestart (tag : Byte) (s : State) : Host.Outcome State Fault Refusal :=
  onPart (receiveMaint tag (restartRequest tag)) s

/-- READ STATUS (R175). -/
def execReadStatus (tag : Byte) (s : State) : Host.Outcome State Fault Refusal :=
  onPart (receiveMaint tag (readStatusRequest tag)) s

end Sys2Proof.Machine
end

