-- ==== Sys2Proof/Machine/Scan.lean ====
section
/-!
DEFINITION. The Line Scanner (chapter 2): a scan over the points, the acceptance and classification of a
change, glare (section 3.5), and the events of pending durations.
-/

namespace Sys2Proof.Machine

/-! ## Glare (R54, R55) -/

/-- The order that operates a call's terminating junctor crosspoint, if it is in the table. -/
def junctorOrder (id j : Nat) (s : Part) : Option Order :=
  (ordersOf id s).find? (fun o =>
    match o.act with
    | .operate (.junctor x _ .t) => decide (x = j)
    | _ => false)

/-- An order is DISPATCHED: it is the head of its unit's list (R77). -/
def isDispatched (o : Order) (s : Part) : Bool :=
  decide ((dispatched o.act.unit s).map Order.id = some o.id)

/-- The crosspoint of an operate or release order. -/
def Action.xp? : Action → Option Xp
  | .operate x => some x
  | .release x => some x
  | _ => none

/-- The junctor order of a yielding junction is reversed (R55): with no order the junction is given up, a
QUEUED order is removed with its crosspoint and the junction given up, a DISPATCHED one is awaited. -/
def reverseJunctor (id j : Nat) (s : Part) : Part :=
  match junctorOrder id j s with
  | none => freeElem id (.junction j) s
  | some o =>
    if isDispatched o s then modCall id (fun c => { c with yielded := true }) s
    else
      let s := removeOrder o.id s
      let s := match o.act.xp? with | some x => dropXp id x s | none => s
      freeElem id (.junction j) s

/-- The route of the extension a call is setting (R55). -/
def extensionRoute (id j : Nat) (s : Part) : Nat :=
  match (call id s).dest with
  | some (.route r) => r
  | _ => ((junction j s).route).getD 0

/-- A junction of a reswitch's new set yields: the reswitch fails (R55, R75), and the call keeps its claim, which
its other orders occupy (log entry 59). -/
def yieldReswitch (id j : Nat) (s : Part) : Part :=
  let s := reverseJunctor id j s
  if (call id s).relPending then operationStep id s else takeRelease id .reswitchFailed s

/-- A junction of an extension yields (R55): a re-hunt entry is added if the call has none and no release is
pending, and the junctor order is reversed. -/
def yieldExtension (id j : Nat) (s : Part) : Part :=
  let r := extensionRoute id j s
  let fresh := !(call id s).relPending && !s.orig.rehunts.any (fun e => decide (e.call = id))
  let s :=
    if fresh then
      { s with orig.rehunts := s.orig.rehunts ++ [{ call := id, route := r, junction := j }] }
    else s
  let s := modCall id (fun c => { c with op := .yielding }) s
  operationStep id (retry (reverseJunctor id j s))

/-- A glare on a junction, resolved by its preference (R54, R55). -/
def glare (j : Nat) (s : Part) : Part :=
  match (junction j s).glare with
  | .hold => s
  | .yield =>
    match callOfElem (.junction j) s with
    | none => s
    | some id =>
      if (call id s).new.tjunction = some j then yieldReswitch id j s else yieldExtension id j s

/-! ## Classification of an accepted change (sections 2.3 to 2.7) -/

/-- An accepted change on a line point: a seizure (R26) or an abandon (R27). -/
def lineChange (lt : Nat) (v : PointState) (s : Part) : Part :=
  match (line lt s).sup, v with
  | .idle, .loop => retry (modLine lt (fun l => { l with sup := .originating, marked := true }) s)
  | .originating, .open_ =>
    if (callOf (.line lt) s).isSome then s
    else dequeue (.line lt) (modLine lt (fun l => { l with sup := .idle, marked := false }) s)
  | _, _ => s

/-- A break of `b` scans ended on the O point of a call in DIALLING (R29): a pulse, a mutilated break, or
one that only clears the count. -/
def breakEnded (id c b : Nat) (s : Part) : Part :=
  if b < 20 then modPoint (oPoint c) (fun e => { e with pulses := min (e.pulses + 1) Config.pulseTop }) s
  else
    let s := modPoint (oPoint c) (fun e => { e with pulses := 0 }) s
    if b < 50 then digitFault id s else s

/-- An accepted change on a cord's O point after a state of `b` scans (R29, R31). -/
def oChange (c : Nat) (v : PointState) (b : Nat) (s : Part) : Part :=
  match callOfElem (.cord c) s with
  | none => s
  | some id =>
    let r := call id s
    if r.set.cord = some c ∧ r.lineSpeaks = false ∧ takesDigits r ∧ v = .loop then breakEnded id c b s
    else s

/-- An accepted change on a cord's T point (R32): an answer in RINGING, a re-answer in CALLED CLEARED. -/
def tChange (c : Nat) (v : PointState) (s : Part) : Part :=
  match callOfElem (.cord c) s with
  | none => s
  | some id =>
    let r := call id s
    match r.term, v with
    | some (.line _), .loop =>
      if r.set.cord ≠ some c then s
      else if r.state = .ringing then answer id s
      else if r.state = .calledCleared then reAnswer id s
      else s
    | _, _ => s

/-- An accepted change on a coin point (R33): a LOOP is a coin pulse for the call that names the cord. -/
def coinChange (c : Nat) (v : PointState) (s : Part) : Part :=
  match callOfElem (.cord c) s, v with
  | some id, .loop => coinPulse id s
  | _, _ => s

/-- An accepted change on a junction point: an incoming seizure or a glare on an idle junction (R34, R54),
and the answer, called clear and re-answer of outgoing use (R37). -/
def junctionChange (j : Nat) (v : PointState) (s : Part) : Part :=
  let r := junction j s
  match r.sup, v with
  | .idle, .loop =>
    if r.elem.occ = .free ∧ r.dir ≠ .outgoing then seizeJunction j s
    else if r.elem.occ = .reserved ∧ r.dir = .bothway then glare j s
    else s
  | .inCall .outgoing id, .reversed =>
    if (call id s).state = .awaitingAnswer then answer id s
    else if (call id s).state = .calledCleared then reAnswer id s
    else s
  | .inCall .outgoing id, .normal =>
    if (call id s).state = .answered then calledClear id s else s
  | _, _ => s

/-- An accepted change is classified by its point (R21); `b` is the length of the state that has ended. -/
def classify (p : Nat) (v : PointState) (b : Nat) (s : Part) : Part :=
  match pointKind p with
  | .line lt => lineChange lt v s
  | .oEnd c => oChange c v b s
  | .tEnd c => tChange c v s
  | .coin c => coinChange c v s
  | .junction j => junctionChange j v s

/-! ## One point, and the scan (R19, R21, R22) -/

/-- A change is accepted after a candidate run of `run` scans (R21): the entry takes the new state, the
pending event is disarmed, the change is classified, and the event is armed afresh (R22). -/
def acceptChange (p : Nat) (v : PointState) (run : Nat) (s : Part) : Part :=
  let e := point p s
  let b := e.duration - run + 1
  let s := modPoint p
    (fun e => { e with
      accepted := v, candidate := e.accepted, run := 0, duration := run, pending := none }) s
  rearm p (classify p v b s)

/-- The due event of a point is produced, unless it is left to its own command (R22). -/
def produceUnless (later : List Nat) (p : Nat) (s : Part) : Part := if p ∈ later then s else produce p s

/-- A sample of an updated point is processed (R21). -/
def samplePoint (later : List Nat) (p : Nat) (bit : Bool) (s : Part) : Part :=
  let e := point p s
  let v := sampleState p bit s
  if v = e.accepted then
    produceUnless later p (modPoint p (fun e => { e with run := 0, duration := oneMore e.duration }) s)
  else
    let run := min (e.run + 1) Config.runTop
    if persistence p e s ≤ run then acceptChange p v run s
    else
      produceUnless later p
        (modPoint p (fun e => { e with candidate := v, run := run, duration := oneMore e.duration }) s)

/-- One point of a scan: discarded where its entry is not updated, or where a hand-over has counted the scan
for it already (R19, R24). -/
def scanPoint (inputs : ScanInputs) (later : List Nat) (s : Part) (p : Nat) : Part :=
  let s := { s with scan.pos := some p }
  if updated p s && !s.scan.skip.contains p then samplePoint later p (inputs.getLsbD p) s else s

/-- One point of a frozen scan instant: the run duration alone grows (R39). -/
def freezePoint (s : Part) (p : Nat) : Part :=
  if updated p s then modPoint p (fun e => { e with duration := oneMore e.duration }) s else s

/-- The scan points in ascending order (R19). -/
def allPoints : List Nat := List.range Config.points

/-- A scan instant (R19, R39): during a freeze the run durations grow; otherwise every point is sampled and
processed in ascending order, after any event the last scan left to its own command and that has not
been taken. -/
def scanInstant (inputs : ScanInputs) (later : List Nat) (s : Part) : Part :=
  if frozen s then allPoints.foldl freezePoint s
  else
    let s := allPoints.foldl (fun s p => produce p s) s
    let s := allPoints.foldl (scanPoint inputs later) s
    { s with scan.pos := none, scan.skip := [] }

/-! ## Commands -/

/-- SCAN (R19). -/
def execScan (inputs : ScanInputs) (later : List Nat) (s : State) : Host.Outcome State Fault Refusal :=
  onPart (scanInstant inputs later) s

/-- DIGIT_END (R30). -/
def execDigitEnd (cord : Nat) (s : State) : Host.Outcome State Fault Refusal :=
  onPart (produceEvent (oPoint cord) .digitEnd) s

/-- CALLER_CLEAR (R98), on a line point or a cord's O point. -/
def execCallerClear (p : Nat) (s : State) : Host.Outcome State Fault Refusal :=
  onPart (produceEvent p .callerClear) s

/-- CALLED_CLEAR (R95), on a cord's T point. -/
def execCalledClear (cord : Nat) (s : State) : Host.Outcome State Fault Refusal :=
  onPart (produceEvent (tPoint cord) .calledClear) s

/-- FAR_END_CLEAR (R35, R36). -/
def execFarEndClear (j : Nat) (s : State) : Host.Outcome State Fault Refusal :=
  onPart (produceEvent (junctionPoint j) .farEndClear) s

/-- PARK_END (R28). -/
def execParkEnd (lt : Nat) (s : State) : Host.Outcome State Fault Refusal :=
  onPart (produceEvent lt .parkEnd) s

end Sys2Proof.Machine
end

