-- ==== Sys2Proof/Machine/Supply.lean ====
section
/-!
DEFINITION. The Supply Monitor and start-up (chapter 11): battery samples, the end of a freeze, the battery
reset and the power-on.
-/

namespace Sys2Proof.Machine

/-! ## The end of a freeze (R40) -/

/-- The numbers of the scan points whose entry differs from its reset value, ascending. -/
def listedPoints (s : Part) : List Nat := s.scan.points.map Prod.fst

/-- A call in DIALLING with pulses counted at the end of a freeze (R40): the count goes, DIGIT END is
disarmed, and DIGIT FAULT is queued. -/
def spoilDigit (s : Part) (id : Nat) : Part :=
  match (call id s).set.cord with
  | none => s
  | some c =>
    if (point (oPoint c) s).pulses = 0 then s else digitFault id (rearm (oPoint c) (dropPulses id s))

/-- The freeze ends for LOW (R40): the due events are produced in ascending point number, then the DIGIT FAULTs in
ascending call id, R40 giving no order (log entry 61). -/
def freezeEnd (s : Part) : Part :=
  let s := (listedPoints s).foldl (fun s p => modPoint p (fun e => { e with run := 0 }) s) s
  let s := (listedPoints s).foldl (fun s p => produce p s) s
  (callsWith (fun c => decide (c.state = .dialling)) s).foldl spoilDigit s

/-! ## Battery samples (R186, R188) -/

/-- Set the battery state and the ride-through count. -/
def setBattery (b : Battery) (n : Nat) (s : Part) : Part :=
  { s with supply.battery := b, supply.ride := n }

/-- A battery sample in tenths of a volt (R186), none being taken once a battery reset is decided (R188). A
change of state is reported to the Meter Store and the Line Scanner (R187). -/
def takeSample (v : Nat) (s : Part) : Part :=
  if s.supply.decided then s
  else
    let s := { s with supply.sample := v }
    match s.supply.battery with
    | .normal =>
      if Config.warn ≤ v then setBattery .normal 0 s
      else
        let s := if Config.hold ≤ v then setBattery .low 0 s else setBattery .rideThrough 1 s
        nextWrite (raiseMaint .batteryLow (b16 v) s)
    | .low =>
      if Config.normalAgain ≤ v then raiseMaint .batteryNormal (b16 v) (setBattery .normal 0 s)
      else if Config.hold ≤ v then setBattery .low 0 s
      else setBattery .rideThrough 1 s
    | .rideThrough =>
      if Config.hold ≤ v then freezeEnd (setBattery .low 0 s)
      else
        let n := s.supply.ride + 1
        let s := setBattery .rideThrough n s
        if Config.rideLimit ≤ n then { s with supply.decided := true } else s

/-! ## Start-up (R189) -/

/-- A write in progress at a power-on may leave its record as a failed write does (R148, R139). A save cut short
in its first write leaves the marker as a failed write does; cut short later, by its last write at the latest,
it leaves the image invalid (R191). -/
def cutWrite (s : Part) : Part :=
  match s.meters.engine with
  | .idle => s
  | .meter lt _ _ => spoilRecord lt s
  | .config (.marker false) _ => spoilMarker s
  | .config (.marker true) _ => modMeters (fun m => { m with image.marker := false }) s
  | .config _ _ => s

/-- The Meter Store at a start-up (R152): the entries loaded from their records, with the records and the
image kept. -/
def loadMeters (m : MeterStore) : MeterStore :=
  { entries := m.records.map
      (fun x => (x.1, ({ count := x.2.count, rollover := x.2.rollover } : MeterEntry)))
    records := m.records
    image := m.image }

/-- The part after a start-up that stays LOADING (R17, R41, R58, R84, R107, R122, R152, R167, R185, R193);
the nonvolatile areas are kept, and with them the model's two counters. -/
def loadingPart (cause : Cause) (mode : ModeInput) (s : Part) : Part :=
  { supply := { cause := cause, mode := mode }
    meters := loadMeters s.meters
    serial := s.serial
    fresh := s.fresh }

/-- The configuration records are loaded into their tables, and the part enters IN SERVICE (R189, R17,
R122). -/
def loadImage (s : Part) : Part :=
  let x := s.meters.image
  let s := { s with
    supply.inService := true
    net := { lines := x.lines, frames := x.frames, routes := x.routes, junctions := x.junctions
             fls := x.fls, cords := x.cords }
    timers := x.timers
    charge.tariff := x.tariff
    cal.entries := x.entries
    tb.preferred := x.preferred }
  { s with charge.incs := bandIncrements .day s }

/-- A start-up (R189): with AUTOLOAD and the validity marker set the image is loaded. -/
def startUp (cause : Cause) (mode : ModeInput) (s : Part) : Part :=
  let s := loadingPart cause mode s
  if mode = .autoload ∧ s.meters.image.marker = true then loadImage s else s

/-- A battery reset is taken once it is decided and no nonvolatile write is in progress (R188). -/
def batteryResetNow (mode : ModeInput) (s : Part) : Part :=
  if s.supply.decided = true ∧ s.meters.engine = .idle then startUp .battery mode s else s

/-! ## Commands -/

/-- POWER_ON (R189). -/
def execPowerOn (mode : ModeInput) (s : State) : Host.Outcome State Fault Refusal :=
  onPart (fun p => startUp .powerOn mode (cutWrite p)) s

/-- BATTERY_RESET (R188). -/
def execBatteryReset (mode : ModeInput) (s : State) : Host.Outcome State Fault Refusal :=
  onPart (batteryResetNow mode) s

/-- BATTERY_SAMPLE (R186). -/
def execBatterySample (v : Nat) (s : State) : Host.Outcome State Fault Refusal := onPart (takeSample v) s

end Sys2Proof.Machine
end

