-- ==== Sys2Proof/Machine/Tables.lean ====
section
/-!
DEFINITION. WRITE TABLE and READ TABLE (R16, R172) over the ten tables of section 10.3.
-/

namespace Sys2Proof.Machine

/-- The number in byte `k` of a record. -/
def byteAt (r : List Byte) (k : Nat) : Nat := (r.getD k 0).toNat

/-- The number in the two bytes of a record from byte `k`, most significant first (R176). -/
def wordAt (r : List Byte) (k : Nat) : Nat := byteAt r k * 256 + byteAt r (k + 1)

/-- The `i`-th record of the bytes of a WRITE TABLE. -/
def recordAt (table i : Nat) (bytes : List Byte) : List Byte :=
  let n := (recordSize table).getD 0
  (bytes.drop (i * n)).take n

/-- Every enumerated field of a record is in its set (R16, R158, R163). -/
def enumsOk (table : Nat) (r : List Byte) : Bool :=
  match table with
  | 0 => (LineClass.ofCode (byteAt r 0)).isSome && (Admin.ofCode (byteAt r 1)).isSome
  | 1 => (homeOfCode (byteAt r 0)).isSome
  | 2 => (homeOfCode (byteAt r 0)).isSome
  | 3 =>
    (Direction.ofCode (byteAt r 1)).isSome && (Glare.ofCode (byteAt r 2)).isSome &&
      (Admin.ofCode (byteAt r 3)).isSome
  | 4 => (Admin.ofCode (byteAt r 0)).isSome
  | 5 => (Admin.ofCode (byteAt r 0)).isSome
  | 7 => (Period.ofCode (byteAt r 3)).isSome && (Profile.ofCode (byteAt r 4)).isSome
  | 9 => (Source.ofCode (byteAt r 0)).isSome
  | _ => true

/-- A unit period clamped (R108). -/
def clampPeriod (p : Nat) : Nat := if p = 0 then 0 else clamp 10 6000 p

/-- The timer table of a record, each field clamped to its range (R45, R50, R59, R88, R127). -/
def timersOf (r : List Byte) : TimerTable :=
  { firstNormal := clamp 5 60 (byteAt r 0), firstHeavy := clamp 5 60 (byteAt r 1)
    interNormal := clamp 5 60 (byteAt r 2), interHeavy := clamp 5 60 (byteAt r 3)
    reserveNormal := clamp 0 48 (byteAt r 4), reserveHeavy := clamp 0 48 (byteAt r 5)
    noAnswer := clamp 30 300 (wordAt r 6), hold := byteAt r 8
    waitLimit := clamp 5 120 (byteAt r 9), grace := clamp 0 60 (byteAt r 10)
    prioServer := clamp 0 3 (byteAt r 11), prioA := clamp 0 3 (byteAt r 12)
    prioB := clamp 0 3 (byteAt r 13), prioRelease := clamp 0 3 (byteAt r 14) }

/-- The timer table of a record as written. -/
def rawTimers (r : List Byte) : TimerTable :=
  { firstNormal := byteAt r 0, firstHeavy := byteAt r 1, interNormal := byteAt r 2
    interHeavy := byteAt r 3, reserveNormal := byteAt r 4, reserveHeavy := byteAt r 5
    noAnswer := wordAt r 6, hold := byteAt r 8, waitLimit := byteAt r 9, grace := byteAt r 10
    prioServer := byteAt r 11, prioA := byteAt r 12, prioB := byteAt r 13, prioRelease := byteAt r 14 }

/-- A numeric field of a record is outside its range, and is clamped (R16). -/
def clamps (table : Nat) (r : List Byte) : Bool :=
  match table with
  | 1 => decide (clamp 2 15 (byteAt r 1) ≠ byteAt r 1)
  | 3 => decide (clamp 0 7 (byteAt r 0) ≠ byteAt r 0)
  | 6 => decide (clampPeriod (wordAt r 0) ≠ wordAt r 0 ∨ clamp 0 15 (byteAt r 2) ≠ byteAt r 2)
  | 7 => decide (clamp 0 1439 (wordAt r 1) ≠ wordAt r 1)
  | 8 => decide (timersOf r ≠ rawTimers r)
  | _ => false

/-- An administrative state written in LOADING (R16, R176), as the order that sets it. -/
def loadAdmin (code : Nat) (out back : Part → Part) (s : Part) : Part :=
  match Admin.ofCode code with
  | some .inService => back s
  | some _ => out s
  | none => s

/-- A LINE record is written (R12, R16). -/
def writeLine (i : Nat) (r : List Byte) (s : Part) : Part :=
  let s := if s.supply.inService then s else loadAdmin (byteAt r 1) (busyOutLine i) (returnLine i) s
  match LineClass.ofCode (byteAt r 0) with
  | some k => writeClass i k s
  | none => s

/-- A route and direction written to a junction (R15): at once, or pending while it is in use. -/
def writeUse (j route : Nat) (d : Direction) (s : Part) : Part :=
  let r := junction j s
  if r.elem.occ = .free ∧ r.sup = .idle then
    seizeIfLoop j
      (modJunction j
        (fun r => { r with route := some route, dir := d, pendRoute := none, pendDir := none }) s)
  else modJunction j (fun r => { r with pendRoute := some route, pendDir := some d }) s

/-- A JUNCTION record is written (R15, R16, R34). -/
def writeJunction (j : Nat) (r : List Byte) (s : Part) : Part :=
  let s :=
    if s.supply.inService then s
    else loadAdmin (byteAt r 3) (busyOutElem (.junction j)) (returnElem (.junction j)) s
  let s := match Glare.ofCode (byteAt r 2) with
    | some g => modJunction j (fun x => { x with glare := g }) s
    | none => s
  match Direction.ofCode (byteAt r 1) with
  | some d => rearm (junctionPoint j) (writeUse j (clamp 0 7 (byteAt r 0)) d s)
  | none => s

/-- A FRAME LINK or CORD record is written, in LOADING (R16). -/
def writeElem (e : ElemId) (r : List Byte) (s : Part) : Part :=
  loadAdmin (byteAt r 0) (busyOutElem e) (returnElem e) s

/-- A TARIFF record is written (R108, R109): an entry of the period in force recomputes its band's increment
and the increment of every charging call of the band. -/
def writeTariff (i : Nat) (r : List Byte) (s : Part) : Part :=
  let t : Tariff := { unitPeriod := clampPeriod (wordAt r 0), answerUnits := clamp 0 15 (byteAt r 2) }
  let s := { s with charge.tariff := Table.put {} s.charge.tariff i t }
  if i % 4 = s.charge.period.code then
    takeIncrements { s with charge.incs := s.charge.incs.set (i / 4) (increment t.unitPeriod) }
  else s

/-- A CALENDAR record is written (R163); bit 7 of the day mask is ignored. -/
def writeCalendar (i : Nat) (r : List Byte) (s : Part) : Part :=
  let e : CalEntry :=
    { mask := b8 (byteAt r 0 % 128), minute := clamp 0 1439 (wordAt r 1)
      period := (Period.ofCode (byteAt r 3)).getD .day
      profile := (Profile.ofCode (byteAt r 4)).getD .normal }
  { s with cal.entries := Table.put {} s.cal.entries i e }

/-- The record at index `i` of a table is written (R16). -/
def writeRecord (table i : Nat) (r : List Byte) (s : Part) : Part :=
  match table with
  | 0 => writeLine i r s
  | 1 => modFrame i (fun f => { f with home := homeOfCode (byteAt r 0), seize := clamp 2 15 (byteAt r 1) }) s
  | 2 => modRoute i (fun x => { x with home := homeOfCode (byteAt r 0) }) s
  | 3 => writeJunction i r s
  | 4 => writeElem (.fl i) r s
  | 5 => writeElem (.cord i) r s
  | 6 => writeTariff i r s
  | 7 => writeCalendar i r s
  | 8 => { s with timers := timersOf r }
  | 9 => modTb (fun t => { t with preferred := (Source.ofCode (byteAt r 0)).getD t.preferred }) s
  | _ => s

/-- What a write of a table brings about after its records (R47, R158, R163). -/
def afterWrite (m : Moment) (table : Nat) (s : Part) : Part :=
  match table with
  | 0 => retry s
  | 1 => retry s
  | 2 => retry s
  | 7 => evaluate s
  | 9 => policy m s
  | _ => s

/-- The refusal of a table request by its header, if any (R16, R172). -/
def headerRefusal (table first count : Nat) : Option ResultCode :=
  if count = 0 ∨ 64 < count ∨ 9 < table then some .format
  else if tableLength table < first + count then some .noSuch
  else none

/-- The refusal of a WRITE TABLE, if any (R16). -/
def writeRefusal (table first count : Nat) (bytes : List Byte) (s : Part) : Option ResultCode :=
  match headerRefusal table first count with
  | some code => some code
  | none =>
    if (List.range count).any (fun i => !enumsOk table (recordAt table i bytes)) then some .format
    else if s.supply.inService ∧ (table = 4 ∨ table = 5) then some .badState
    else none

/-- The records of a WRITE TABLE are written in index order (R16). -/
def writeRecords (table first count : Nat) (bytes : List Byte) (s : Part) : Part :=
  (List.range count).foldl (fun s i => writeRecord table (first + i) (recordAt table i bytes) s) s

/-- WRITE TABLE is taken (R16); the reply is built when the records have been written and the policy has been
applied to a preferred source written (log entry 64). -/
def writeTableRequest (tag table : Byte) (first : Word16) (count : Byte) (bytes : List Byte) (m : Moment)
    (s : Part) : Part :=
  match writeRefusal table.toNat first.toNat count.toNat bytes s with
  | some code => reply .maint tag code [] s
  | none =>
    let clamped := (List.range count.toNat).any (fun i => clamps table.toNat (recordAt table.toNat i bytes))
    let s := afterWrite m table.toNat (writeRecords table.toNat first.toNat count.toNat bytes s)
    reply .maint tag (if clamped then .doneClamped else .done) [] s

/-- READ TABLE is taken (R16). -/
def readTableRequest (tag table : Byte) (first : Word16) (count : Byte) (s : Part) : Part :=
  match headerRefusal table.toNat first.toNat count.toNat with
  | some code => reply .maint tag code [] s
  | none =>
    reply .maint tag .done
      ([table] ++ b16 first.toNat ++ [count] ++
        (List.range count.toNat).flatMap (fun i => tableRecord table.toNat (first.toNat + i) s)) s

/-- WRITE TABLE (R16); a frame without the length its header asks for is malformed (R170, R172). -/
def execWriteTable (tag table : Byte) (first : Word16) (count : Byte) (bytes : List Byte) (m : Moment)
    (s : State) : Host.Outcome State Fault Refusal :=
  onPart
    (if recordsFit table count bytes then
      receiveMaint tag (writeTableRequest tag table first count bytes m)
    else immediate .maint tag .format) s

/-- READ TABLE (R16). -/
def execReadTable (tag table : Byte) (first : Word16) (count : Byte) (s : State) :
    Host.Outcome State Fault Refusal :=
  onPart (receiveMaint tag (readTableRequest tag table first count)) s

end Sys2Proof.Machine
end

