-- ==== Sys2Proof/Machine/Dispatch.lean ====
section
/-!
DEFINITION. The dispatch: one arm per command, each one direct call of its meaning.
-/

namespace Sys2Proof.Machine

/-- A command's effect on everything but the queue of waiting commands. -/
def exec (i : Instr) (s : State) : Host.Outcome State Fault Refusal :=
  match i with
  | .powerOn mode => Sys2Proof.Machine.execPowerOn mode s
  | .batteryReset mode => Sys2Proof.Machine.execBatteryReset mode s
  | .batterySample v => Sys2Proof.Machine.execBatterySample v s
  | .scan inputs later => Sys2Proof.Machine.execScan inputs later s
  | .digitEnd cord => Sys2Proof.Machine.execDigitEnd cord s
  | .callerClear p => Sys2Proof.Machine.execCallerClear p s
  | .calledClear cord => Sys2Proof.Machine.execCalledClear cord s
  | .farEndClear j => Sys2Proof.Machine.execFarEndClear j s
  | .parkEnd lt => Sys2Proof.Machine.execParkEnd lt s
  | .tick early => Sys2Proof.Machine.execTick early s
  | .dialTimeout id => Sys2Proof.Machine.execDialTimeout id s
  | .noAnswer id => Sys2Proof.Machine.execNoAnswer id s
  | .holdExpiry id => Sys2Proof.Machine.execHoldExpiry id s
  | .graceExpiry id => Sys2Proof.Machine.execGraceExpiry id s
  | .waitLimitExpiry o => Sys2Proof.Machine.execWaitLimitExpiry o s
  | .presenceWindowExpiry c => Sys2Proof.Machine.execPresenceWindowExpiry c s
  | .minuteBoundary => Sys2Proof.Machine.execMinuteBoundary s
  | .stationPulse m => Sys2Proof.Machine.execStationPulse m s
  | .stationGap m => Sys2Proof.Machine.execStationGap m s
  | .crystalReady m => Sys2Proof.Machine.execCrystalReady m s
  | .crystalFailure m => Sys2Proof.Machine.execCrystalFailure m s
  | .driveConfirmation u n positive => Sys2Proof.Machine.execDriveConfirmation u n positive s
  | .driveTimeout u n => Sys2Proof.Machine.execDriveTimeout u n s
  | .arbiterGrant => Sys2Proof.Machine.execArbiterGrant s
  | .nvWriteEnd verified => Sys2Proof.Machine.execNvWriteEnd verified s
  | .trickleSlot => Sys2Proof.Machine.execTrickleSlot s
  | .outboundFrameEnd p => Sys2Proof.Machine.execOutboundFrameEnd p s
  | .pendingNoticeEntry c => Sys2Proof.Machine.execPendingNoticeEntry c s
  | .maintenancePendingEntry => Sys2Proof.Machine.execMaintenancePendingEntry s
  | .malformedFrame p frame => Sys2Proof.Machine.execMalformedFrame p frame s
  | .extend c tag id kind dest band permission => Sys2Proof.Machine.execExtend c tag id kind dest band permission s
  | .release c tag id => Sys2Proof.Machine.execRelease c tag id s
  | .readCall c tag id => Sys2Proof.Machine.execReadCall c tag id s
  | .readLine c tag lt => Sys2Proof.Machine.execReadLine c tag lt s
  | .presence c tag => Sys2Proof.Machine.execPresence c tag s
  | .writeTable tag table first count bytes m => Sys2Proof.Machine.execWriteTable tag table first count bytes m s
  | .readTable tag table first count => Sys2Proof.Machine.execReadTable tag table first count s
  | .startService tag => Sys2Proof.Machine.execStartService tag s
  | .saveConfiguration tag => Sys2Proof.Machine.execSaveConfiguration tag s
  | .busyOut tag kind n => Sys2Proof.Machine.execBusyOut tag kind n s
  | .returnToService tag kind n => Sys2Proof.Machine.execReturnToService tag kind n s
  | .releaseCall tag id => Sys2Proof.Machine.execReleaseCall tag id s
  | .readMeters tag first count => Sys2Proof.Machine.execReadMeters tag first count s
  | .takeSnapshot tag => Sys2Proof.Machine.execTakeSnapshot tag s
  | .readSnapshot tag first count => Sys2Proof.Machine.execReadSnapshot tag first count s
  | .dropSnapshot tag => Sys2Proof.Machine.execDropSnapshot tag s
  | .clearRollover tag lt => Sys2Proof.Machine.execClearRollover tag lt s
  | .clearNvFault tag lt => Sys2Proof.Machine.execClearNvFault tag lt s
  | .setTime tag day minute second tenth => Sys2Proof.Machine.execSetTime tag day minute second tenth s
  | .readTime tag => Sys2Proof.Machine.execReadTime tag s
  | .selectSource tag source m => Sys2Proof.Machine.execSelectSource tag source m s
  | .startCrystal tag => Sys2Proof.Machine.execStartCrystal tag s
  | .stopCrystal tag => Sys2Proof.Machine.execStopCrystal tag s
  | .forcePeriod tag period => Sys2Proof.Machine.execForcePeriod tag period s
  | .forceClear tag => Sys2Proof.Machine.execForceClear tag s
  | .restart tag => Sys2Proof.Machine.execRestart tag s
  | .readStatus tag => Sys2Proof.Machine.execReadStatus tag s

end Sys2Proof.Machine
end

