-- ==== Sys2Proof/Safety.lean ====
section
/-!
DEFINITION. What the statements speak of: what a port has still to send, what stays the same beside a
reply, when a request is taken, and the invariants of the Time Base and the Meter Store.
-/

namespace Sys2Proof.Machine

/-! ## What a port has still to send (R169) -/

/-- The replies built on a port and not yet sent to their end, in order. -/
def repliesDue (p : Port) (s : Part) : List Reply :=
  (match (io p s).sending with
    | some (.reply r) => [r]
    | _ => []) ++ (io p s).replies

/-- The notices that have entered a port's queue and are not yet sent to their end, in order. -/
def noticesDue (p : Port) (s : Part) : List Notice :=
  (match (io p s).sending with
    | some (.notice n) => [n]
    | _ => []) ++ (io p s).queue

/-- Two parts agree in everything but what a port holds for its link. -/
def SameBut (p : Port) (s t : Part) : Prop := modIo p (fun _ => io p s) t = s

/-- A reply has been built on a port, and nothing else has changed. -/
def Answered (p : Port) (r : Reply) (s t : Part) : Prop :=
  repliesDue p t = repliesDue p s ++ [r] ∧ (io p t).queue = (io p s).queue ∧ SameBut p s t

/-- A command completes, and the part is `q`. -/
def Makes (i : Instr) (s : State) (q : Part) : Prop := exec i s = .next { s with part := q }

/-- A command completes: the part is `q`, and a reply has been built on a port beside. -/
def Replies (i : Instr) (s : State) (p : Port) (r : Reply) (q : Part) : Prop :=
  ∃ t, exec i s = .next t ∧ t.pending = s.pending ∧ Answered p r q t.part

/-- A maintenance notice joins what the maintenance port has still to send, and nothing else changes. -/
def Noticed (k : MaintKind) (d : List Byte) (s t : Part) : Prop :=
  noticesDue .maint t = noticesDue .maint s ++ [.maint k 0 d] ∧ SameBut .maint s t

/-- The maintenance queue takes a notice at once: it has room, and none is held (R180). -/
def MaintRoom (s : Part) : Prop := (io .maint s).queue.length < 32 ∧ s.m.held = []

/-! ## When a request is taken (R170) -/

/-- A maintenance request is taken: no battery reset is decided and no RESTART is in flight. -/
def MaintTakes (s : Part) : Prop := s.supply.decided = false ∧ s.m.restart = none

/-- A request of a PRESENT controller is taken: the part is IN SERVICE, no battery reset is decided, the window
has not run out (R183), and no EXTEND is in flight on its port. -/
def CtlTakes (c : Ctl) (s : Part) : Prop :=
  s.supply.inService = true ∧ s.supply.decided = false ∧ (ctl c s).present = true ∧
    (ctl c s).window < 20 ∧ (ctl c s).extend = none

/-- The part after the sign of life of a PRESENT controller (R182). -/
def alive (c : Ctl) (s : Part) : Part := modCtl c (fun p => { p with window := 0 }) s

/-! ## Invariants -/

/-- The law of R157, with the ranges of R156 and R161: the selected source is usable, the qualification
count stands below its requirement, and the time of week is in range. -/
def TimeBaseOk (s : Part) : Prop :=
  usable s.tb.selection s = true ∧
    (s.tb.requirement = 10 ∨ s.tb.requirement = 600) ∧
    s.tb.count < s.tb.requirement ∧ (s.tb.station ≠ .qualifying → s.tb.count = 0) ∧
    s.tb.day ≤ 6 ∧ s.tb.minute ≤ 1439 ∧ s.tb.second ≤ 59 ∧ s.tb.tenth ≤ 9

/-- The law of R136: every meter count lies in 0 to 9,999,999; with it, every nonvolatile record and the
value of a write in progress. -/
def MetersOk (s : Part) : Prop :=
  (∀ x ∈ s.meters.entries, x.2.count < 10000000) ∧
    (∀ x ∈ s.meters.records, x.2.count < 10000000) ∧
    (∀ lt v again, s.meters.engine = .meter lt v again → v.count < 10000000)

/-- The count and flag of a meter entry, as its nonvolatile record holds them (R139). -/
def MeterEntry.value (e : MeterEntry) : MeterValue := { count := e.count, rollover := e.rollover }

/-- The law of R140: a line whose meter entry differs from its nonvolatile record is in the dirty list, is the
line being written, or carries NV FAULT; and with it, by R142, a line that differs from the value being written
for it is in the dirty list or carries NV FAULT. -/
def ListedOk (s : Part) : Prop :=
  (∀ lt, (meter lt s).value ≠ Table.get {} s.meters.records lt →
    lt ∈ s.meters.dirty ∨ writingLine s = some lt ∨ (meter lt s).nvFault = true) ∧
  ∀ lt v again, s.meters.engine = .meter lt v again → (meter lt s).value ≠ v →
    lt ∈ s.meters.dirty ∨ (meter lt s).nvFault = true

/-- The laws of R125 and R126 for one coin context: the credit lies in 0 to 99, the deposits in 0 to 999, and units
are owed only while the grace timer is RUNNING. -/
def Coin.Lawful (k : Coin) : Prop := k.credit ≤ 99 ∧ k.deposits ≤ 999 ∧ (0 < k.owed → k.grace ≠ none)

/-- The plane an element lies on (R1, R2). -/
def ElemId.plane : ElemId → Nat
  | .fl n => n % 12
  | .cord c => c / 8
  | .junction j => j % 12

/-- The law of R2 for one element set: its cord is one of the part's, and the set lies wholly on the cord's plane. -/
def ElemSet.OnPlane (x : ElemSet) : Prop := ∀ c, x.cord = some c → c < 96 ∧ ∀ e ∈ x.elems, e.plane = c / 8

/-- The laws of one call record: of its coin context (R125, R126), and of its three element sets (R2). -/
structure Call.Lawful (c : Call) : Prop where
  coin : ∀ k, c.coin = some k → k.Lawful
  set : c.set.OnPlane
  old : c.old.OnPlane
  new : c.new.OnPlane

/-- Every call record keeps its laws. -/
def CallsOk (s : Part) : Prop := ∀ x ∈ s.calls, x.2.Lawful

/-- Every sparse table of the part is in its canonical form. -/
structure TablesOk (s : Part) : Prop where
  lines : Table.wf {} s.net.lines = true
  frames : Table.wf {} s.net.frames = true
  routes : Table.wf {} s.net.routes = true
  junctions : Table.wf {} s.net.junctions = true
  fls : Table.wf {} s.net.fls = true
  cords : Table.wf {} s.net.cords = true
  points : Table.wf {} s.scan.points = true
  calls : Table.wf {} s.calls = true
  tariff : Table.wf {} s.charge.tariff = true
  calendar : Table.wf {} s.cal.entries = true
  meters : Table.wf {} s.meters.entries = true
  records : Table.wf {} s.meters.records = true
  snapshot : ∀ t, s.meters.snapshot = some t → Table.wf {} t.items = true
  imageLines : Table.wf {} s.meters.image.lines = true
  imageFrames : Table.wf {} s.meters.image.frames = true
  imageRoutes : Table.wf {} s.meters.image.routes = true
  imageJunctions : Table.wf {} s.meters.image.junctions = true
  imageFls : Table.wf {} s.meters.image.fls = true
  imageCords : Table.wf {} s.meters.image.cords = true
  imageTariff : Table.wf {} s.meters.image.tariff = true
  imageCalendar : Table.wf {} s.meters.image.entries = true

/-- Tenths of a second from the start of the week (R161). -/
def tenthOfWeek (t : TimeBase) : Nat := ((1440 * t.day + t.minute) * 60 + t.second) * 10 + t.tenth

/-! ## The calendar (R110, R164, R165, R117) -/

/-- The entry in force of a part, or the values where there is none (R164). -/
def entryOf (s : Part) : CalEntry :=
  match entryInForce s with
  | some i => Table.get {} s.cal.entries i
  | none => {}

/-- The calendar has been evaluated (R165), and a change of period taken by the Charge Unit (R117). -/
def Evaluated (s t : Part) : Prop :=
  t = { s with
    cal := { s.cal with
      entry := entryInForce s, calPeriod := (entryOf s).period, profile := (entryOf s).profile
      period := s.cal.force.getD (entryOf s).period }
    charge := t.charge, calls := t.calls, orig.request := t.orig.request } ∧
  (t.cal.period = s.cal.period → t.charge = s.charge ∧ t.calls = s.calls) ∧
  (t.cal.period ≠ s.cal.period →
    t.charge.tariff = s.charge.tariff ∧ t.charge.period = t.cal.period ∧
      (∀ b, b < 16 → t.charge.incs[b]? =
        some (increment (Table.get {} s.charge.tariff (4 * b + t.cal.period.code)).unitPeriod)) ∧
      ∀ id, call id t =
        if (call id s).charging then
          { call id s with incr := t.charge.incs.getD ((call id s).band.getD 0) 0 }
        else call id s) ∧
  (t.cal.profile = s.cal.profile → t.orig = s.orig)

/-! ## A tick (R154) -/

/-- No expiry of an earlier tick is left to be taken, and no call record is allocated. -/
def QuietForTick (s : Part) : Prop :=
  s.calls = [] ∧ s.cal.due = false ∧ (∀ w ∈ s.orig.queue, w.wait < w.limit) ∧
    (∀ c, (ctl c s).present = true → (ctl c s).window < 20)

/-- A controller's port after a tick (R183). -/
def CtlPort.ticked (p : CtlPort) : CtlPort := { p with window := if p.present then p.window + 1 else p.window }

/-- The time of week after a tick (R161), and what the tick brings to the calendar, the wait queue and the
presence windows (R50, R165, R166, R183). -/
def Ticked (s t : Part) : Prop :=
  t = { s with
    tb := { s.tb with
      day := t.tb.day, minute := t.tb.minute, second := t.tb.second, tenth := t.tb.tenth }
    cal := { s.cal with
      due := decide (t.tb.second = 0 ∧ t.tb.tenth = 0)
      force := if t.tb.second = 0 ∧ t.tb.tenth = 0 ∧ t.tb.minute = 0 then none else s.cal.force }
    orig := { s.orig with queue := s.orig.queue.map (fun w => { w with wait := w.wait + 1 }) }
    a := s.a.ticked, b := s.b.ticked } ∧
  tenthOfWeek t.tb = (tenthOfWeek s.tb + 1) % 6048000 ∧
  t.tb.day ≤ 6 ∧ t.tb.minute ≤ 1439 ∧ t.tb.second ≤ 59 ∧ t.tb.tenth ≤ 9

/-! ## Junctions (R15) -/

/-- A junction entry after a change of its occupancy or supervision state: a pending route and a pending direction
take effect where it is FREE with supervision IDLE. -/
def Junction.settled (r : Junction) : Junction :=
  if r.elem.occ = .free ∧ r.sup = .idle then
    { r with
      route := match r.pendRoute with | some x => some x | none => r.route
      dir := r.pendDir.getD r.dir, pendRoute := none, pendDir := none }
  else r

/-! ## The release of a call (R98, R80, R81) -/

/-- Nothing outside its record waits for a call: no EXTEND and no re-hunt entry (R66, R57). -/
def Unawaited (id : Nat) (s : Part) : Prop :=
  (∀ c r, (ctl c s).extend = some r → r.call ≠ id) ∧
    s.orig.rehunts.any (fun e => decide (e.call = id)) = false

/-- A release can be taken for a call (R98): the record is active and no release has been taken for it. -/
def Releasable (id : Nat) (s : Part) : Prop :=
  (call id s).active = true ∧ (call id s).released = false ∧ Unawaited id s

/-- The release of a call with orders in the table has been taken (R98, R81): the reason is recorded, the timer
and the charging have stopped, and the release is pending. -/
def ReleasePending (id : Nat) (why : Reason) (s t : Part) : Prop :=
  t = { s with calls := t.calls } ∧
    call id t =
      { call id s with reason := some why, timer := none, charging := false, relPending := true } ∧
    ∀ x, x ≠ id → call x t = call x s

/-- A call whose reswitch ends loses no element of its new set: each is joined by an operated crosspoint that a
release order is composed for (R75, R81). -/
def NewSetJoined (id : Nat) (s : Part) : Prop :=
  ∀ e ∈ (call id s).new.elems, ∃ x ∈ operatedXps id s, e ∈ x.elems

/-- The release of a call without an order has been taken (R98, R81), just before it begins: the record is
RELEASING with its reason, the timer and the charging have stopped, the new set of a reswitch is the call's set,
the pulse count of its O point goes, and its points' events are armed afresh. -/
def ReleaseEntered (id : Nat) (why : Reason) (s t : Part) : Prop :=
  t = { s with calls := t.calls, scan.points := t.scan.points } ∧
    call id t =
      { call id s with
        state := .releasing, reason := some why, timer := none, charging := false
        relPending := false, op := .idle
        set := if (call id s).reswitch then (call id s).new else (call id s).set
        new := if (call id s).reswitch then {} else (call id s).new
        reswitch := false } ∧
    (∀ x, x ≠ id → call x t = call x s) ∧
    ∀ p, p ∉ callPoints (call id s) → point p t = point p s

/-- The release of a call that is RELEASING begins (R80): a claim of 5 or more suffices; otherwise it is raised to 5
from the free places where no call waits for room; otherwise the call joins the release wait list. -/
def ReleaseBegun (id : Nat) (s t : Part) : Prop :=
  t =
    if 5 ≤ (call id s).claim then releaseStep1 id s
    else if s.arb.releaseWait = [] ∧ 5 ≤ freePlaces s + (call id s).claim then
      releaseStep1 id (modCall id (fun c => { c with claim := 5 }) s)
    else { s with arb.releaseWait := s.arb.releaseWait ++ [id] }

/-- A release is taken for a call (R98): with orders in the table it is pending; with none the record is RELEASING
and the release begins. A reswitch that loses elements of its new set is left out. -/
def TakesRelease (id : Nat) (why : Reason) (s t : Part) : Prop :=
  (ordersOf id s ≠ [] → ReleasePending id why s t) ∧
    (ordersOf id s = [] → ((call id s).reswitch = true → NewSetJoined id s) →
      ∃ u, ReleaseEntered id why s u ∧ ReleaseBegun id u t)

/-! ## The write that follows a write (R145 to R148) -/

/-- A meter write of the head of the dirty list has started, with the entry's value at that moment (R141). -/
def MeterWriteStarts (q t : Part) : Prop :=
  ∃ lt rest, q.meters.dirty = lt :: rest ∧
    t = { q with
      meters.dirty := rest
      meters.engine :=
        .meter lt { count := (meter lt q).count, rollover := (meter lt q).rollover } false }

/-- What the engine of `q`, which has become IDLE, does next: nothing once a battery reset is decided (R148); outside a
save it starts a meter write in URGENT while the dirty list is not empty (R146), and waits otherwise (R145). In a save
(R147) the first write is a configuration write; after it the list's head is written while the list is not empty, in
URGENT at every moment of choice and in TRICKLE after a configuration write, and the next configuration write is made
otherwise. -/
def WritesNext (q t : Part) : Prop :=
  (q.supply.decided = true → t = q) ∧
  (q.supply.decided = false → q.meters.save = none →
    (q.supply.battery = .normal ∨ q.meters.dirty = [] → t = q) ∧
    (q.supply.battery ≠ .normal → q.meters.dirty ≠ [] → MeterWriteStarts q t)) ∧
  ∀ v, q.supply.decided = false → q.meters.save = some v →
    (v.next = 0 ∨ q.meters.dirty = [] ∨ q.supply.battery = .normal ∧ v.configLast = false →
      t = { q with
        meters.save := some { v with configLast := true }
        meters.engine := .config (configValue v.next q) false }) ∧
    (v.next ≠ 0 → q.meters.dirty ≠ [] → q.supply.battery ≠ .normal ∨ v.configLast = true →
      MeterWriteStarts { q with meters.save := some { v with configLast := false } } t)

/-! ## A scan (R19, R21) -/

/-- A scan finds nothing to report at a point: no event is armed there, and the point shows its accepted state where
its entry is updated. -/
def SteadyAt (inputs : ScanInputs) (p : Nat) (s : Part) : Prop :=
  (point p s).pending = none ∧
    (updated p s = true → sampleState p (inputs.getLsbD p) s = (point p s).accepted)

/-- An entry after a scan in which its point shows the accepted state (R21): the candidate run is 0, and the run
duration is greater by 1, up to 1023. -/
def ScanEntry.counted (e : ScanEntry) : ScanEntry :=
  { e with run := 0, duration := if e.duration < 1023 then e.duration + 1 else e.duration }

/-! ## The search arbiter (R59, R60) and the grant of an EXTEND (R66) -/

/-- The place of a client in the cyclic order of R60. -/
def Client.place : Client → Nat
  | .server => 0
  | .ctl .a => 1
  | .ctl .b => 2
  | .release => 3

/-- How far a client stands behind the one next after the client last granted (R60): 0 for that one, 3 for the
client last granted itself. -/
def Client.after (last x : Client) : Nat := (x.place + 3 - last.place) % 4

/-- The client that R60 selects: it waits, and every other waiting client has a lower priority, or the same priority
and a later place in the cyclic order counted from the client after the one last granted at it. -/
def Selected (d : Client) (s : Part) : Prop :=
  (requestOf d s).isSome = true ∧
    ∀ x, (requestOf x s).isSome = true → x ≠ d →
      priority x s < priority d s ∨
        priority x s = priority d s ∧
          Client.after (s.arb.last.getD (priority d s) .release) d <
            Client.after (s.arb.last.getD (priority d s) .release) x

/-- The free places suffice for a waiting client (R60): they are at least its worst case, with 5 places more for any
client but the release path. -/
def PlacesEnough (x : Client) (s : Part) : Prop :=
  ∃ w, requestOf x s = some w ∧ (if x = .release then w else w + 5) + claims s ≤ 64

/-- A party is IN CALL as the origin of a call (R26, R34): a line, or a junction in incoming use whose point shows
LOOP. -/
def OriginInCall (id : Nat) (o : Party) (s : Part) : Prop :=
  match o with
  | .line lo => lo < 2048 ∧ (line lo s).sup = .inCall id
  | .junction j => j < 48 ∧ (junction j s).sup = .inCall .incoming id ∧ (point (2336 + j) s).accepted = .loop

/-- The EXTEND `e` of controller `c` is granted, for a call in DIALLING of origin `o` by one cord, whose parties'
supervision and points are those of such a call (R24, R34, R66) and show LOOP. -/
structure ExtendGranted (c : Ctl) (e : ExtendRequest) (o : Party) (cord : Nat) (s : Part) : Prop where
  tables : TablesOk s
  granted : grantee s = some (.ctl c)
  waiting : (ctl c s).extend = some e
  dialling : (call e.call s).state = .dialling
  unreleased : (call e.call s).relPending = false
  origin : (call e.call s).origin = some o
  speaks : (call e.call s).lineSpeaks = false
  still : (call e.call s).reswitch = false
  joined : (call e.call s).set.cord = some cord
  noTerm : (call e.call s).term = none
  noOld : (call e.call s).old = {}
  noNew : (call e.call s).new = {}
  inRange : cord < 96
  named : callOfElem (.cord cord) s = some e.call
  loop : (point (2048 + cord) s).accepted = .loop
  between : s.scan.pos = none
  party : OriginInCall e.call o s

/-! ## A RESTART (R42, R192) -/

/-- Releases have been taken for calls one after another (R192, R98): each as `TakesRelease` says, and without effect
for a call whose release has been taken before. -/
def ReleasesTaken (why : Reason) : List Nat → Part → Part → Prop
  | [], s, t => t = s
  | id :: rest, s, t =>
    ∃ u, (Releasable id s → TakesRelease id why s u) ∧ ((call id s).released = true → u = s) ∧
      ReleasesTaken why rest u t

/-- A line is ORIGINATING without a call record (R42). -/
def LineUnnamed (lt : Nat) (s : Part) : Prop := (line lt s).sup = .originating ∧ callOf (.line lt) s = none

/-- A junction is ORIGINATING without a call record (R42). -/
def JunctionUnnamed (j : Nat) (s : Part) : Prop :=
  (junction j s).sup = .originating ∧ callOf (.junction j) s = none

/-- No origin that a RESTART takes out shows an OPEN that has lasted as long as the event it then arms asks for
(R22), so that no PARK END and no FAR-END CLEAR follows at once. -/
def OriginsQuiet (s : Part) : Prop :=
  (∀ lt, LineUnnamed lt s → lt < 2048 ∧ ((point lt s).accepted = .open_ → (point lt s).duration < 25)) ∧
    ∀ j, JunctionUnnamed j s →
      j < 48 ∧ ((point (2336 + j) s).accepted = .open_ → (point (2336 + j) s).duration < 50)

/-- The wait queue and the marks of the origins without a call have been emptied (R42): each such line is PARKED
and each such junction HELD UNSERVED, with its point's event armed afresh, and nothing else has changed but the
server's request. -/
def OriginsEmptied (s t : Part) : Prop :=
  t = { s with
    net.lines := t.net.lines, net.junctions := t.net.junctions, scan.points := t.scan.points
    orig.queue := [], orig.request := t.orig.request } ∧
  (∀ lt, LineUnnamed lt s →
    line lt t = { line lt s with sup := .parked, marked := false } ∧
      point lt t = { point lt s with
        pending := if (point lt s).accepted = .open_ then some .parkEnd else none }) ∧
  (∀ lt, ¬ LineUnnamed lt s → line lt t = line lt s) ∧
  (∀ j, JunctionUnnamed j s →
    junction j t = { junction j s with sup := .heldUnserved, marked := false } ∧
      point (2336 + j) t = { point (2336 + j) s with
        pending := if (point (2336 + j) s).accepted = .open_ then some .farEndClear else none }) ∧
  (∀ j, ¬ JunctionUnnamed j s → junction j t = junction j s) ∧
  ∀ p, ¬ LineUnnamed p s → (∀ j, JunctionUnnamed j s → p ≠ 2336 + j) → point p t = point p s

end Sys2Proof.Machine
end

