-- ==== Sys2Proof/WellFormed.lean ====
section
/-!
DEFINITION. Which commands name a thing of the part: the ranges of section "Principal figures". A
request may carry any byte, since the part itself answers a parameter out of its range; an event names
an existing point, call, unit or line.
-/

namespace Sys2Proof

/-- A party the part has: a line terminal 0 to 2047, or a junction 0 to 47. -/
def Party.wf : Party → Bool
  | .line lt => decide (lt < Config.lines)
  | .junction j => decide (j < Config.junctions)

/-- A drive unit the part has: frame units 0 to 31, plane units 0 to 11. -/
def DriveUnit.wf : DriveUnit → Bool
  | .frame n => decide (n < Config.frames)
  | .plane n => decide (n < Config.planes)

/-- The calls a moment names exist. -/
def Moment.wf (m : Moment) : Bool := m.early.all (fun c => decide (c < Config.calls))

/-- The commands that name existing things only. -/
def Instr.wf : Instr → Bool
  | .batterySample v => decide (v < 65536)
  | .scan _ later => later.all (fun p => decide (p < Config.points))
  | .digitEnd cord => decide (cord < Config.cords)
  | .callerClear point => decide (point < 2144)
  | .calledClear cord => decide (cord < Config.cords)
  | .farEndClear j => decide (j < Config.junctions)
  | .parkEnd lt => decide (lt < Config.lines)
  | .tick early => early.all (fun c => decide (c < Config.calls))
  | .dialTimeout call => decide (call < Config.calls)
  | .noAnswer call => decide (call < Config.calls)
  | .holdExpiry call => decide (call < Config.calls)
  | .graceExpiry call => decide (call < Config.calls)
  | .waitLimitExpiry origin => origin.wf
  | .stationPulse m => m.wf
  | .stationGap m => m.wf
  | .crystalReady m => m.wf
  | .crystalFailure m => m.wf
  | .driveConfirmation unit _ _ => unit.wf
  | .driveTimeout unit _ => unit.wf
  | .malformedFrame port frame => !wellFormedFrame port frame
  | .writeTable _ table _ count records m => recordsFit table count records && m.wf
  | .selectSource _ _ m => m.wf
  | .powerOn _ | .batteryReset _ | .presenceWindowExpiry _ | .minuteBoundary | .arbiterGrant
  | .nvWriteEnd _ | .trickleSlot | .outboundFrameEnd _ | .pendingNoticeEntry _
  | .maintenancePendingEntry | .extend _ _ _ _ _ _ _ | .release _ _ _ | .readCall _ _ _
  | .readLine _ _ _ | .presence _ _ | .readTable _ _ _ _ | .startService _ | .saveConfiguration _
  | .busyOut _ _ _ | .returnToService _ _ _ | .releaseCall _ _ | .readMeters _ _ _
  | .takeSnapshot _ | .readSnapshot _ _ _ | .dropSnapshot _ | .clearRollover _ _
  | .clearNvFault _ _ | .setTime _ _ _ _ _ | .readTime _ | .startCrystal _ | .stopCrystal _
  | .forcePeriod _ _ | .forceClear _ | .restart _ | .readStatus _ => true

end Sys2Proof
end

