-- ==== Sys2Proof/Certificates/Slice0/Obligations.lean ====
section
/-!
DEFINITION. The statements for the provers. `s.part` is the part a command is taken at; `Makes`, `Replies`
and the other words of Safety.lean say that a command completes and what the part is then.
-/

open Sys2Proof Sys2Proof.Machine

/-! ## The machine -/

/-- A step takes the command at the front of the queue with the queue's rest; on an empty queue the part idles
(the model's choice, log entry 2). -/
def Obligations.StepTakesTheFront : Prop :=
  (∀ (c : Instr) (s : State), step { s with pending := c :: s.pending } = exec c s) ∧
    ∀ s : State, s.pending = [] → step s = .next s

/-- The machine after reset: LOADING, with every block at its reset value: the empty tables of the Network Map
(R17, R10), the scan points (R41), the server (R58), the arbiter (R84), the Call Table and the timer table's defaults
(R107), the tariff (R122), the calendar and the Time Base (R163, R167), the Meter Store, each entry as its record
(R152), and the ports (R185, R193). The choices of log entries 6 to 8 (the mode input, blank nonvolatile areas, the
candidate state of a scan entry) are the model's. -/
def Obligations.ResetIsLoading : Prop :=
  let s := State.reset.part
  State.reset.pending = [] ∧ s.supply.inService = false ∧ s.supply.battery = .normal ∧ s.supply.ride = 0 ∧
    s.supply.sample = 0 ∧ s.supply.decided = false ∧
    (∀ lt, line lt s =
      { cls := .unequipped, pendCls := none, admin := .inService, sup := .idle, marked := false }) ∧
    (∀ f, frame f s = { home := none, seize := 6, hunt := 0 }) ∧
    (∀ r, route r s = { home := none, hunt := 0 }) ∧
    (∀ j, junction j s =
      { route := none, dir := .outgoing, glare := .hold, elem := { occ := .free, admin := .inService }
        pendRoute := none, pendDir := none, sup := .idle, marked := false }) ∧
    (∀ e, elem e s = { occ := .free, admin := .inService }) ∧
    (∀ p, (point p s).accepted = .open_ ∧ (point p s).run = 0 ∧ (point p s).duration = 0 ∧
      (point p s).pulses = 0 ∧ (point p s).pending = none) ∧
    s.orig.queue = [] ∧ s.orig.pointer = 0 ∧ s.orig.rehunts = [] ∧ s.orig.request = none ∧
    s.arb.last = [.release, .release, .release, .release] ∧ s.arb.releaseWait = [] ∧ s.orders = [] ∧
    (∀ id, (call id s).state = .free ∧ (call id s).owner = none ∧ (call id s).claim = 0 ∧
      (call id s).pend = []) ∧
    s.timers =
      { firstNormal := 20, firstHeavy := 10, interNormal := 15, interHeavy := 10, reserveNormal := 4
        reserveHeavy := 10, noAnswer := 120, hold := 60, waitLimit := 30, grace := 10, prioServer := 1
        prioA := 2, prioB := 2, prioRelease := 3 } ∧
    (∀ i, Table.get {} s.charge.tariff i = { unitPeriod := 0, answerUnits := 0 }) ∧
    s.charge.period = .day ∧ s.charge.incs = List.replicate 16 0 ∧
    (∀ lt, (meter lt s).value = Table.get {} s.meters.records lt ∧ (meter lt s).nvFault = false) ∧
    s.meters.dirty = [] ∧ s.meters.engine = .idle ∧ s.meters.save = none ∧ s.meters.snapshot = none ∧
    s.tb.selection = .internal ∧ s.tb.crystal = .starting ∧ s.tb.station = .absent ∧ s.tb.count = 0 ∧
    s.tb.requirement = 10 ∧ s.tb.fallback = false ∧ s.tb.preferred = .crystal ∧ s.tb.valid = false ∧
    tenthOfWeek s.tb = 0 ∧
    (∀ i, Table.get {} s.cal.entries i = { mask := 0, minute := 0, period := .day, profile := .normal }) ∧
    s.cal.entry = none ∧ s.cal.force = none ∧ s.cal.period = .day ∧ s.cal.profile = .normal ∧
    (∀ c, (ctl c s).present = false ∧ (ctl c s).window = 0 ∧ (ctl c s).extend = none ∧
      (ctl c s).peer = none ∧ (ctl c s).pointer = 0 ∧ (ctl c s).io = {}) ∧
    s.m = {}

/-- The invariants hold of the machine after reset: those of the Time Base (R157, R161), of the meters (R136, R140),
of the call records (R2, R125, R126) and of the tables. The canonical form of the tables is the model's (log entry
1), and the meters' invariants rest on the blank nonvolatile areas of log entries 6 and 7. -/
def Obligations.ResetMeetsTheInvariants : Prop :=
  TimeBaseOk State.reset.part ∧ MetersOk State.reset.part ∧ ListedOk State.reset.part ∧
    CallsOk State.reset.part ∧ TablesOk State.reset.part

/-- The law of R157, with the ranges of R156 and R161, is kept by every step from every state that meets it. -/
def Obligations.TimeBaseLawKept : Prop :=
  ∀ s t : State, TimeBaseOk s.part → step s = .next t → TimeBaseOk t.part

/-- Every step keeps the laws of the meters and of the call records, from every state that meets them: every meter
count, every nonvolatile record and every value being written stands below 10,000,000 (R136); a line whose entry
differs from its record is in the dirty list, is being written or carries NV FAULT (R140); a call's credit lies in 0
to 99 (R125), it owes units only while its grace timer is RUNNING (R126), and each of its element sets lies on the
plane of its cord (R2). That a record left by a failed or cut-short write stays in the range is the model's choice
(log entry 13); the laws of R140, R2, R125 and R126 are kept from states whose tables are in canonical form (log
entry 1). -/
def Obligations.MeterRangeKept : Prop :=
  (∀ s t : State, MetersOk s.part → step s = .next t → MetersOk t.part) ∧
    ∀ s t : State, TablesOk s.part → step s = .next t →
      (ListedOk s.part → ListedOk t.part) ∧ (CallsOk s.part → CallsOk t.part)

/-- Every sparse table keeps its canonical form through every step (the model's form of its tables, log
entry 1). -/
def Obligations.TablesKeptCanonical : Prop :=
  ∀ s t : State, TablesOk s.part → step s = .next t → TablesOk t.part

/-! ## Request frames (R170, R176, R172) -/

/-- Reading the frame of a request gives the request: every field of every request of the three ports comes back,
whatever its value. The moment a request carries beside its frame (log entry 10), and a WRITE TABLE of a table code
that no table has (log entry 33), are the model's. -/
def Obligations.RequestFramesRoundTrip : Prop :=
  ∀ (i : Instr) (p : Port) (f : List Byte) (m : Moment),
    requestFrame i = some (p, f) → i.wf = true → (∀ n, requestMoment i = some n → n = m) →
      decodeRequest m p f = some i

/-! ## The maintenance port: service, busy-out and return (R7, R8, R11, R190, R191) -/

/-- START SERVICE (R190): refused BAD STATE in IN SERVICE and where a check fails; otherwise the part is IN
SERVICE with both controllers ABSENT. -/
def Obligations.StartService : Prop :=
  ∀ (s : State) (tag : Byte), MaintTakes s.part →
    let ready :=
      (∀ f, f < 32 → (frame f s.part).home ≠ none) ∧ (∀ r, r < 8 → (route r s.part).home ≠ none) ∧
        (∀ j, j < 48 → (junction j s.part).route ≠ none) ∧
        ∀ r, r < 8 → ∃ j, j < 48 ∧ (junction j s.part).route = some r
    (s.part.supply.inService = false → ready →
      Replies (.startService tag) s .maint { tag := tag, code := .done }
        { s.part with
          supply.inService := true
          a := { s.part.a with present := false, window := 0 }
          b := { s.part.b with present := false, window := 0 } }) ∧
    (s.part.supply.inService = true ∨ ¬ ready →
      Replies (.startService tag) s .maint { tag := tag, code := .badState } s.part)

/-- SAVE CONFIGURATION (R191, R147): refused BAD STATE in LOADING and while a save is in progress; otherwise the
save begins, and with the engine IDLE its first write, which clears the validity marker, starts at once. -/
def Obligations.SaveConfiguration : Prop :=
  ∀ (s : State) (tag : Byte), MaintTakes s.part →
    (s.part.supply.inService = false ∨ s.part.meters.save.isSome →
      Replies (.saveConfiguration tag) s .maint { tag := tag, code := .badState } s.part) ∧
    (s.part.supply.inService = true → s.part.meters.save = none → s.part.meters.engine ≠ .idle →
      Replies (.saveConfiguration tag) s .maint { tag := tag, code := .done }
        { s.part with meters.save := some { next := 0, verified := 0, configLast := false } }) ∧
    (s.part.supply.inService = true → s.part.meters.save = none → s.part.meters.engine = .idle →
      Replies (.saveConfiguration tag) s .maint { tag := tag, code := .done }
        { s.part with
          meters.save := some { next := 0, verified := 0, configLast := true }
          meters.engine := .config (.marker false) false })

/-- BUSY OUT of a frame link, cord or junction (R7): the table of administrative states by occupancy, for each
element the part has, with the occupancy kept, the element no longer available, and BUSY OUT reached at FREE
whichever comes first; NO SUCH outside the ranges. No other element changes. A junction that becomes BUSY OUT while it
is not in a call is IDLE without its mark and its queue entry (R38), and takes its pending changes (R15); nothing else
changes but the armed event of its point. -/
def Obligations.BusyOutOfElements : Prop :=
  ∀ (s : State) (tag : Byte) (n : Word16), MaintTakes s.part → TablesOk s.part →
    (∀ (e : ElemId) (kind : Byte),
      (kind = 1 ∧ n.toNat ≤ 383 ∧ e = .fl n.toNat) ∨ (kind = 2 ∧ n.toNat ≤ 95 ∧ e = .cord n.toNat) ∨
        (kind = 3 ∧ n.toNat ≤ 47 ∧ e = .junction n.toNat) →
      ∃ q, Replies (.busyOut tag kind n) s .maint { tag := tag, code := .done } q ∧
        (elem e q).occ = (elem e s.part).occ ∧
        (elem e q).admin =
          (match (elem e s.part).admin, (elem e s.part).occ with
            | .inService, .free => .busyOut
            | .inService, .faulty => .busyOut
            | .inService, _ => .busyOutPending
            | admin, _ => admin) ∧
        avail e q = false ∧ elem e (becomeFree e q) = { occ := .free, admin := .busyOut } ∧
        (∀ x, x ≠ e → elem x q = elem x s.part) ∧
        (kind ≠ 3 → q = { s.part with net.fls := q.net.fls, net.cords := q.net.cords }) ∧
        (kind = 3 →
          let j := n.toNat
          let r := junction j s.part
          let out := { r with elem := elem e q }
          let idles := r.elem.admin = .inService ∧ (r.elem.occ = .free ∨ r.elem.occ = .faulty) ∧
            ∀ use id, r.sup ≠ .inCall use id
          (¬ idles → junction j q = out ∧ q = { s.part with net.junctions := q.net.junctions }) ∧
          (idles → junction j q = ({ out with sup := .idle, marked := false } : Junction).settled ∧
            q.orig.queue = s.part.orig.queue.filter (fun w => decide (w.origin ≠ .junction j)) ∧
            point (2336 + j) q = { point (2336 + j) s.part with pending := none }) ∧
          (∀ x, x ≠ j → junction x q = junction x s.part) ∧
          (∀ p, p ≠ 2336 + j → point p q = point p s.part) ∧
          q = { s.part with
            net.junctions := q.net.junctions, scan.points := q.scan.points
            orig.queue := q.orig.queue, orig.request := q.orig.request })) ∧
    ((383 < n.toNat → Replies (.busyOut tag 1 n) s .maint { tag := tag, code := .noSuch } s.part) ∧
      (95 < n.toNat → Replies (.busyOut tag 2 n) s .maint { tag := tag, code := .noSuch } s.part) ∧
      (47 < n.toNat → Replies (.busyOut tag 3 n) s .maint { tag := tag, code := .noSuch } s.part))

/-- RETURN TO SERVICE of a frame link, cord or junction (R8): a FAULTY element becomes FREE and IN SERVICE unless
an order still names it, any other becomes IN SERVICE with its occupancy kept; NO SUCH outside the ranges. A junction that
the request makes FREE and IN SERVICE has its point as at reset (R38, log entry 25), and takes its pending changes
(R15). No other element changes, and nothing beside. -/
def Obligations.ReturnOfElements : Prop :=
  ∀ (s : State) (tag : Byte) (n : Word16), MaintTakes s.part → TablesOk s.part →
    (∀ (e : ElemId) (kind : Byte),
      (kind = 1 ∧ n.toNat ≤ 383 ∧ e = .fl n.toNat) ∨ (kind = 2 ∧ n.toNat ≤ 95 ∧ e = .cord n.toNat) ∨
        (kind = 3 ∧ n.toNat ≤ 47 ∧ e = .junction n.toNat) →
      ((elem e s.part).occ = .faulty ∧ ordered e s.part = true →
        Replies (.returnToService tag kind n) s .maint { tag := tag, code := .badState } s.part) ∧
      (¬ ((elem e s.part).occ = .faulty ∧ ordered e s.part = true) →
        ∃ q, Replies (.returnToService tag kind n) s .maint { tag := tag, code := .done } q ∧
          elem e q =
            { occ := if (elem e s.part).occ = .faulty then .free else (elem e s.part).occ
              admin := .inService } ∧
          (∀ x, x ≠ e → elem x q = elem x s.part) ∧
          (kind ≠ 3 → q = { s.part with
            net.fls := q.net.fls, net.cords := q.net.cords, orig.request := q.orig.request }) ∧
          (kind = 3 →
            let j := n.toNat
            let r := junction j s.part
            let made := r.elem.occ = .faulty ∨ r.elem.occ = .free ∧ r.elem.admin = .busyOut
            (made → junction j q = ({ r with elem := elem e q } : Junction).settled ∧ point (2336 + j) q = {}) ∧
            (¬ made → junction j q = { r with elem := elem e q } ∧
              point (2336 + j) q = point (2336 + j) s.part) ∧
            (∀ x, x ≠ j → junction x q = junction x s.part) ∧
            (∀ p, p ≠ 2336 + j → point p q = point p s.part) ∧
            q = { s.part with net.junctions := q.net.junctions, scan.points := q.scan.points }))) ∧
    ((383 < n.toNat → Replies (.returnToService tag 1 n) s .maint { tag := tag, code := .noSuch } s.part) ∧
      (95 < n.toNat → Replies (.returnToService tag 2 n) s .maint { tag := tag, code := .noSuch } s.part) ∧
      (47 < n.toNat → Replies (.returnToService tag 3 n) s .maint { tag := tag, code := .noSuch } s.part))

/-- BUSY OUT and RETURN TO SERVICE of a line (R11): a line in a call becomes BUSY OUT PENDING and stays in its
call; a line out of a call becomes BUSY OUT, loses its mark and its queue entry, and is IDLE; a BUSY OUT line
returns IN SERVICE with its scan point as at reset; NO SUCH for a line the part has not. -/
def Obligations.BusyOutOfLines : Prop :=
  ∀ (s : State) (tag : Byte) (n : Word16), MaintTakes s.part → TablesOk s.part →
    (n.toNat < 2048 →
      (∃ q, Replies (.busyOut tag 0 n) s .maint { tag := tag, code := .done } q ∧
        (∀ x, x ≠ n.toNat → line x q = line x s.part) ∧
        ((line n.toNat s.part).admin = .busyOut → q = s.part) ∧
        ((line n.toNat s.part).admin ≠ .busyOut → callOf (.line n.toNat) s.part ≠ none →
          line n.toNat q = { line n.toNat s.part with admin := .busyOutPending } ∧
          q = { s.part with net.lines := q.net.lines }) ∧
        ((line n.toNat s.part).admin ≠ .busyOut → callOf (.line n.toNat) s.part = none →
          line n.toNat q =
            { line n.toNat s.part with
              admin := .busyOut, marked := false
              sup := match (line n.toNat s.part).sup with | .inCall id => .inCall id | _ => .idle } ∧
          q.orig.queue = s.part.orig.queue.filter (fun w => decide (w.origin ≠ .line n.toNat)) ∧
          (∀ p, p ≠ n.toNat → point p q = point p s.part) ∧
          q = { s.part with
            net.lines := q.net.lines, scan.points := q.scan.points
            orig := { s.part.orig with queue := q.orig.queue, request := q.orig.request } })) ∧
      (∃ q, Replies (.returnToService tag 0 n) s .maint { tag := tag, code := .done } q ∧
        (∀ x, x ≠ n.toNat → line x q = line x s.part) ∧
        line n.toNat q = { line n.toNat s.part with admin := .inService } ∧
        point n.toNat q = (if (line n.toNat s.part).admin = .busyOut then {} else point n.toNat s.part) ∧
        (∀ p, p ≠ n.toNat → point p q = point p s.part) ∧
        q = { s.part with net.lines := q.net.lines, scan.points := q.scan.points })) ∧
    (2048 ≤ n.toNat →
      Replies (.busyOut tag 0 n) s .maint { tag := tag, code := .noSuch } s.part ∧
        Replies (.returnToService tag 0 n) s .maint { tag := tag, code := .noSuch } s.part)

/-! ## The maintenance port: calls, meters and snapshots (R101, R138, R144, R149 to R151) -/

/-- RELEASE CALL (R101): NO SUCH for a call id outside 0 to 127, BAD STATE for a record FREE or CLOSED, and
otherwise DONE and a release with reason MAINTENANCE under R98, whoever owns the record; a record already
released keeps its first reason. An EXTEND waiting for the call is withdrawn and answered BAD STATE, and its re-hunt
entry is removed. That the reply is built before the release takes effect is log entry 38. -/
def Obligations.ReleaseCall : Prop :=
  ∀ (s : State) (tag id : Byte), MaintTakes s.part → TablesOk s.part →
    (128 ≤ id.toNat → Replies (.releaseCall tag id) s .maint { tag := tag, code := .noSuch } s.part) ∧
    (id.toNat < 128 → ((call id.toNat s.part).state = .free ∨ (call id.toNat s.part).state = .closed) →
      Replies (.releaseCall tag id) s .maint { tag := tag, code := .badState } s.part) ∧
    (id.toNat < 128 → (call id.toNat s.part).state ≠ .free → (call id.toNat s.part).state ≠ .closed →
      ∃ q, Answered .maint { tag := tag, code := .done } s.part q ∧
        Makes (.releaseCall tag id) s (takeRelease id.toNat .maintenance q) ∧
        ((call id.toNat s.part).released = true → takeRelease id.toNat .maintenance q = q) ∧
        ((call id.toNat s.part).released = false → Unawaited id.toNat s.part →
          TakesRelease id.toNat .maintenance q (takeRelease id.toNat .maintenance q))) ∧
    (id.toNat < 128 → (call id.toNat s.part).active = true → (call id.toNat s.part).released = false →
      (∀ c r, (ctl c s.part).extend = some r → r.call = id.toNat →
        (∀ x, (ctl (otherCtl c) s.part).extend = some x → x.call ≠ id.toNat) →
        s.part.orig.rehunts.any (fun e => decide (e.call = id.toNat)) = false →
        ∃ q u t, Answered .maint { tag := tag, code := .done } s.part q ∧
          Answered (.ctl c) { tag := r.tag, code := .badState }
            (modCtl c (fun p => { p with extend := none }) q) u ∧
          TakesRelease id.toNat .maintenance u t ∧ Makes (.releaseCall tag id) s t) ∧
      ((∀ c r, (ctl c s.part).extend = some r → r.call ≠ id.toNat) →
        s.part.orig.rehunts.any (fun e => decide (e.call = id.toNat)) = true →
        ∃ q u t, Answered .maint { tag := tag, code := .done } s.part q ∧
          u = { q with
            orig.rehunts := q.orig.rehunts.filter (fun e => decide (e.call ≠ id.toNat))
            orig.request := u.orig.request } ∧
          TakesRelease id.toNat .maintenance u t ∧ Makes (.releaseCall tag id) s t))

/-- READ METERS (R149): FORMAT for a count of 0 or above 64, NO SUCH for lines the part has not, and otherwise one
item of four bytes for each line, the count, then the rollover flag, the NV FAULT flag and the save state, which is
WRITING to the end of the line's write, LISTED in the dirty list and CLEAN otherwise (R136); no entry, list or engine
changes. The save state of a line both listed and being written is WRITING (log entry 16); a count
that is refused is answered FORMAT whatever the first line is (log entry 32). -/
def Obligations.ReadMeters : Prop :=
  ∀ (s : State) (tag count : Byte) (first : Word16), MaintTakes s.part →
    (count.toNat = 0 ∨ 64 < count.toNat →
      Replies (.readMeters tag first count) s .maint { tag := tag, code := .format } s.part) ∧
    (0 < count.toNat → count.toNat ≤ 64 → 2048 < first.toNat + count.toNat →
      Replies (.readMeters tag first count) s .maint { tag := tag, code := .noSuch } s.part) ∧
    (0 < count.toNat → count.toNat ≤ 64 → first.toNat + count.toNat ≤ 2048 →
      Replies (.readMeters tag first count) s .maint
        { tag := tag, code := .done
          data := (List.range count.toNat).flatMap (fun i =>
            let lt := first.toNat + i
            let e := meter lt s.part
            let listed := if lt ∈ s.part.meters.dirty then 1 else 0
            let save :=
              match s.part.meters.engine with
              | .meter x _ _ => if x = lt then 2 else listed
              | _ => listed
            b24 e.count ++
              [b8 ((if e.rollover then 1 else 0) + (if e.nvFault then 2 else 0) + 4 * save)]) }
        s.part)

/-- TAKE SNAPSHOT (R150): HELD while the table holds a snapshot; otherwise every line's count and rollover flag
and the time of week are copied in one event, and the stamp is the reply. READ SNAPSHOT and DROP SNAPSHOT
(R151): the checks of R149, BAD STATE with no snapshot, and otherwise the stamp and the items held, the
snapshot unchanged; DROP SNAPSHOT empties the table, and TAKE SNAPSHOT is then accepted. That FORMAT comes before NO
SUCH, and both before BAD STATE, is the model's choice (log entry 32). -/
def Obligations.Snapshots : Prop :=
  (∀ (s : State) (tag : Byte), MaintTakes s.part →
      (s.part.meters.snapshot ≠ none →
        Replies (.takeSnapshot tag) s .maint { tag := tag, code := .held } s.part) ∧
      (s.part.meters.snapshot = none →
        ∃ snap, Replies (.takeSnapshot tag) s .maint
            { tag := tag, code := .done
              data := [b8 s.part.tb.day] ++ b16 s.part.tb.minute ++
                [b8 s.part.tb.second, b8 s.part.tb.tenth, flag s.part.tb.valid] }
            { s.part with meters.snapshot := some snap } ∧
          snap.stamp =
            { day := s.part.tb.day, minute := s.part.tb.minute, second := s.part.tb.second
              tenth := s.part.tb.tenth, valid := s.part.tb.valid } ∧
          (TablesOk s.part → ∀ lt, Table.get {} snap.items lt =
            { count := (meter lt s.part).count, rollover := (meter lt s.part).rollover }))) ∧
  (∀ (s : State) (tag count : Byte) (first : Word16), MaintTakes s.part →
      (count.toNat = 0 ∨ 64 < count.toNat →
        Replies (.readSnapshot tag first count) s .maint { tag := tag, code := .format } s.part) ∧
      (0 < count.toNat → count.toNat ≤ 64 → 2048 < first.toNat + count.toNat →
        Replies (.readSnapshot tag first count) s .maint { tag := tag, code := .noSuch } s.part) ∧
      (0 < count.toNat → count.toNat ≤ 64 → first.toNat + count.toNat ≤ 2048 →
        (s.part.meters.snapshot = none →
          Replies (.readSnapshot tag first count) s .maint { tag := tag, code := .badState } s.part) ∧
        ∀ snap, s.part.meters.snapshot = some snap →
          Replies (.readSnapshot tag first count) s .maint
            { tag := tag, code := .done
              data := [b8 snap.stamp.day] ++ b16 snap.stamp.minute ++
                [b8 snap.stamp.second, b8 snap.stamp.tenth, flag snap.stamp.valid] ++
                (List.range count.toNat).flatMap (fun i =>
                  let v := Table.get {} snap.items (first.toNat + i)
                  b24 v.count ++ [flag v.rollover]) }
            s.part) ∧
      (Replies (.dropSnapshot tag) s .maint { tag := tag, code := .done }
          { s.part with meters.snapshot := none } ∧
        ∀ t, exec (.dropSnapshot tag) s = .next t →
          ∃ snap, Replies (.takeSnapshot tag) t .maint
            { tag := tag, code := .done, data := (timeStamp t.part).bytes }
            { t.part with meters.snapshot := some snap }))

/-- CLEAR ROLLOVER and CLEAR NV FAULT at the TRICKLE pace outside a save (R138, R144, R140): NO SUCH for a line the
part has not; a set flag is cleared and the line joins the tail of the dirty list, where it is not in it and,
for CLEAR ROLLOVER, does not carry NV FAULT; a clear flag changes nothing. -/
def Obligations.ClearMeterFlags : Prop :=
  ∀ (s : State) (tag : Byte) (n : Word16), MaintTakes s.part → TablesOk s.part →
    (2048 ≤ n.toNat →
      Replies (.clearRollover tag n) s .maint { tag := tag, code := .noSuch } s.part ∧
        Replies (.clearNvFault tag n) s .maint { tag := tag, code := .noSuch } s.part) ∧
    (n.toNat < 2048 →
      ((meter n.toNat s.part).rollover = false →
        Replies (.clearRollover tag n) s .maint { tag := tag, code := .done } s.part) ∧
      ((meter n.toNat s.part).nvFault = false →
        Replies (.clearNvFault tag n) s .maint { tag := tag, code := .done } s.part) ∧
      (s.part.supply.battery = .normal → s.part.meters.save = none →
        ((meter n.toNat s.part).rollover = true →
          ∃ q, Replies (.clearRollover tag n) s .maint { tag := tag, code := .done } q ∧
            q = { s.part with meters.entries := q.meters.entries, meters.dirty := q.meters.dirty } ∧
            meter n.toNat q = { meter n.toNat s.part with rollover := false } ∧
            (∀ x, x ≠ n.toNat → meter x q = meter x s.part) ∧
            q.meters.dirty =
              if n.toNat ∈ s.part.meters.dirty ∨ (meter n.toNat s.part).nvFault = true then
                s.part.meters.dirty
              else s.part.meters.dirty ++ [n.toNat]) ∧
        ((meter n.toNat s.part).nvFault = true →
          ∃ q, Replies (.clearNvFault tag n) s .maint { tag := tag, code := .done } q ∧
            q = { s.part with meters.entries := q.meters.entries, meters.dirty := q.meters.dirty } ∧
            meter n.toNat q = { meter n.toNat s.part with nvFault := false } ∧
            (∀ x, x ≠ n.toNat → meter x q = meter x s.part) ∧
            q.meters.dirty =
              if n.toNat ∈ s.part.meters.dirty then s.part.meters.dirty
              else s.part.meters.dirty ++ [n.toNat])))

/-! ## The maintenance port: the time, the sources, the calendar (R155, R157, R162, R166) -/

/-- SET TIME and READ TIME (R162): each value clamped to its range with DONE CLAMPED, the time VALID, and the
calendar evaluated; READ TIME replies the report of 21 bytes, field by field as section 10.3 lays it out, each
enumerated field by its place in its list. -/
def Obligations.SetAndReadTime : Prop :=
  ∀ (s : State) (tag day : Byte) (minute : Word16) (second tenth : Byte), MaintTakes s.part →
    TablesOk s.part →
    (∃ q, Replies (.setTime tag day minute second tenth) s .maint
        { tag := tag
          code :=
            if day.toNat ≤ 6 ∧ minute.toNat ≤ 1439 ∧ second.toNat ≤ 59 ∧ tenth.toNat ≤ 9 then .done
            else .doneClamped } q ∧
      Evaluated
        { s.part with
          tb := { s.part.tb with
            day := min day.toNat 6, minute := min minute.toNat 1439, second := min second.toNat 59
            tenth := min tenth.toNat 9, valid := true } } q) ∧
    (Replies (.readTime tag) s .maint { tag := tag, code := .done, data := timeReport s.part } s.part ∧
      (timeReport s.part).length = 21 ∧
      timeReport s.part =
        [b8 s.part.tb.day] ++ b16 s.part.tb.minute ++
          [b8 s.part.tb.second, b8 s.part.tb.tenth, flag s.part.tb.valid, b8 s.part.tb.selection.code,
            b8 s.part.tb.crystal.code, b8 s.part.tb.station.code] ++
          b16 s.part.tb.count ++ b16 s.part.tb.requirement ++
          [b8 s.part.tb.preferred.code, flag s.part.tb.fallback, b8 s.part.cal.period.code,
            b8 s.part.cal.calPeriod.code, b8 s.part.cal.profile.code,
            (match s.part.cal.entry with | some i => b8 i | none => 255),
            flag s.part.cal.force.isSome,
            (match s.part.cal.force with | some p => b8 p.code | none => 255)]) ∧
    [Source.station, .crystal, .internal].map Source.code = [0, 1, 2] ∧
    [Crystal.stopped, .starting, .ready].map Crystal.code = [0, 1, 2] ∧
    [Station.absent, .qualifying, .valid].map Station.code = [0, 1, 2] ∧
    [Period.day, .evening, .night, .holiday].map Period.code = [0, 1, 2, 3] ∧
    [Profile.normal, .heavy].map Profile.code = [0, 1]

/-- SELECT SOURCE (R157, R160): FORMAT for a code outside the three, NOT READY for a source that is not usable,
no change for the source selected; otherwise the source becomes the selection, without a tick where fewer than
100 ms have passed since the last or the source is STATION, and with one tick at once where 100 ms have passed.
The milliseconds since the last tick are the command's operand (log entry 10), and the reply is built after that tick
(log entry 64). -/
def Obligations.SelectSource : Prop :=
  ∀ (s : State) (tag source : Byte) (m : Moment), MaintTakes s.part →
    (3 ≤ source.toNat → Replies (.selectSource tag source m) s .maint { tag := tag, code := .format } s.part) ∧
    ∀ src : Source, src.code = source.toNat →
      (usable src s.part = false →
        Replies (.selectSource tag source m) s .maint { tag := tag, code := .notReady } s.part) ∧
      (usable src s.part = true → src = s.part.tb.selection →
        Replies (.selectSource tag source m) s .maint { tag := tag, code := .done } s.part) ∧
      (usable src s.part = true → src ≠ s.part.tb.selection →
        let q := { s.part with
          tb.selection := src
          tb.fallback := if src = s.part.tb.preferred then false else s.part.tb.fallback }
        (src = .station ∨ m.sinceTick < 100 →
          Replies (.selectSource tag source m) s .maint { tag := tag, code := .done } q) ∧
        (src ≠ .station → 100 ≤ m.sinceTick → QuietForTick s.part → s.part.tb.day ≤ 6 →
          s.part.tb.minute ≤ 1439 → s.part.tb.second ≤ 59 → s.part.tb.tenth ≤ 9 →
          ∃ t, Replies (.selectSource tag source m) s .maint { tag := tag, code := .done } t ∧ Ticked q t))

/-- START CRYSTAL and STOP CRYSTAL (R155): STOPPED to STARTING; a STARTING or READY crystal to STOPPED, refused BAD
STATE while CRYSTAL is the selection; elsewhere DONE without change. -/
def Obligations.StartAndStopCrystal : Prop :=
  ∀ (s : State) (tag : Byte), MaintTakes s.part →
    Replies (.startCrystal tag) s .maint { tag := tag, code := .done }
      { s.part with
        tb.crystal := if s.part.tb.crystal = .stopped then .starting else s.part.tb.crystal } ∧
    (s.part.tb.selection = .crystal →
      Replies (.stopCrystal tag) s .maint { tag := tag, code := .badState } s.part) ∧
    (s.part.tb.selection ≠ .crystal →
      Replies (.stopCrystal tag) s .maint { tag := tag, code := .done }
        { s.part with tb.crystal := .stopped })

/-- FORCE PERIOD and FORCE CLEAR (R166): FORMAT for a code outside the four; otherwise the force is set or
removed and the calendar evaluated. MINUTE_BOUNDARY (R165, R117): the evaluation that a minute boundary tick
left to be made is made, once; with none left nothing happens (log entry 17). -/
def Obligations.Evaluations : Prop :=
  (∀ (s : State) (tag period : Byte), MaintTakes s.part → TablesOk s.part →
      (4 ≤ period.toNat → Replies (.forcePeriod tag period) s .maint { tag := tag, code := .format } s.part) ∧
      (∀ p : Period, p.code = period.toNat →
        ∃ q, Replies (.forcePeriod tag period) s .maint { tag := tag, code := .done } q ∧
          Evaluated { s.part with cal.force := some p } q ∧ q.cal.period = p) ∧
      ∃ q, Replies (.forceClear tag) s .maint { tag := tag, code := .done } q ∧
        Evaluated { s.part with cal.force := none } q ∧ q.cal.period = q.cal.calPeriod) ∧
  (∀ (s : State), TablesOk s.part →
      (s.part.cal.due = false → Makes .minuteBoundary s s.part) ∧
      (s.part.cal.due = true →
        ∃ t, exec .minuteBoundary s = .next t ∧ t.pending = s.pending ∧
          Evaluated { s.part with cal.due := false } t.part))

/-- The entry in force (R164): none while the time is INVALID or no entry is used, and otherwise the entry whose
instant lies the shortest way back in the week, the higher index of two at one instant. An evaluation gives its period
and its profile, and DAY and NORMAL where there is none. -/
def Obligations.EntryInForceIsTheNearest : Prop :=
  (∀ s : State, TablesOk s.part → s.part.cal.due = true →
    ∃ t, exec .minuteBoundary s = .next t ∧ t.part.cal.entry = entryInForce s.part ∧
      (entryInForce s.part = none → t.part.cal.calPeriod = .day ∧ t.part.cal.profile = .normal) ∧
      ∀ i, entryInForce s.part = some i →
        t.part.cal.calPeriod = (Table.get {} s.part.cal.entries i).period ∧
          t.part.cal.profile = (Table.get {} s.part.cal.entries i).profile) ∧
  ∀ s : Part,
    let now := 1440 * s.tb.day + s.tb.minute
    let e := fun i => Table.get ({} : CalEntry) s.cal.entries i
    let back := fun i d => (now + 10080 - (1440 * d + (e i).minute)) % 10080
    (s.tb.valid = false → entryInForce s = none) ∧
    ((∀ i, i < 16 → ∀ d, d < 7 → (e i).mask.getLsbD d = false) → entryInForce s = none) ∧
    (s.tb.valid = true → (∃ i d, i < 16 ∧ d < 7 ∧ (e i).mask.getLsbD d = true) →
      ∃ i d, entryInForce s = some i ∧ i < 16 ∧ d < 7 ∧ (e i).mask.getLsbD d = true ∧
        ∀ j c, j < 16 → c < 7 → (e j).mask.getLsbD c = true →
          back i d < back j c ∨ back i d = back j c ∧ j ≤ i)

/-! ## The maintenance port: RESTART, READ STATUS and the tables (R16, R42, R175, R192) -/

/-- RESTART (R192): BAD STATE in LOADING. In IN SERVICE the wait queue and the marks are emptied, each line that is
ORIGINATING without a call record becoming PARKED and each such junction HELD UNSERVED (R42). With no call active and
both controllers ABSENT, DONE at once (log entry 37). A PRESENT controller is made ABSENT (R183), and CONTROLLER ABSENT
is queued, its controller byte being the model's (log entry 65); with both PRESENT, A first, so that B has PEER ABSENT
only where its line begins to send it at once. With calls active, the RESTART is in flight and waits for them, and their
releases are taken with reason RESTART, in ascending call id (log entry 39): a call without orders in the table begins its
release at once (R80, R81), and one with orders has it pending. -/
def Obligations.Restart : Prop :=
  ∀ (s : State) (tag : Byte), MaintTakes s.part →
    (s.part.supply.inService = false →
      Replies (.restart tag) s .maint { tag := tag, code := .badState } s.part) ∧
    (s.part.supply.inService = true → TablesOk s.part → OriginsQuiet s.part →
      (callsWith Call.active s.part = [] → s.part.a.present = false → s.part.b.present = false →
        ∃ q, Replies (.restart tag) s .maint { tag := tag, code := .done } q ∧ OriginsEmptied s.part q) ∧
      (∀ c, s.part.calls = [] → (ctl c s.part).present = true → (ctl (otherCtl c) s.part).present = false →
        (ctl c s.part).io.queue = [] → MaintRoom s.part →
        ∃ t, exec (.restart tag) s = .next t ∧ t.pending = s.pending ∧
          repliesDue .maint t.part = repliesDue .maint s.part ++ [{ tag := tag, code := .done }] ∧
          noticesDue .maint t.part =
            noticesDue .maint s.part ++ [.maint (.controllerAbsent c) 0 [b8 (ctlIndex c)]] ∧
          ctl c t.part =
            { ctl c s.part with present := false, window := 0, extend := none, peer := none } ∧
          ctl (otherCtl c) t.part = ctl (otherCtl c) s.part ∧
          OriginsEmptied { s.part with a := t.part.a, b := t.part.b, m.io := t.part.m.io } t.part) ∧
      (s.part.calls = [] → s.part.a.present = true → s.part.b.present = true → s.part.a.io.queue = [] →
        s.part.b.io.queue = [] → (s.part.b.io.sending = none → s.part.b.io.replies = []) →
        s.part.m.held = [] → s.part.m.io.queue.length < 31 →
        ∃ t, exec (.restart tag) s = .next t ∧ t.pending = s.pending ∧
          repliesDue .maint t.part = repliesDue .maint s.part ++ [{ tag := tag, code := .done }] ∧
          noticesDue .maint t.part =
            noticesDue .maint s.part ++
              [.maint (.controllerAbsent .a) 0 [b8 0], .maint (.controllerAbsent .b) 0 [b8 1]] ∧
          t.part.a = { s.part.a with present := false, window := 0, extend := none, peer := none } ∧
          t.part.b =
            { s.part.b with
              present := false, window := 0, extend := none, peer := none
              io.sending :=
                if s.part.b.io.sending = none ∧ s.part.b.peer = none then some (.notice (.peer false))
                else s.part.b.io.sending } ∧
          OriginsEmptied { s.part with a := t.part.a, b := t.part.b, m.io := t.part.m.io } t.part) ∧
      (callsWith Call.active s.part ≠ [] → s.part.a.present = false → s.part.b.present = false →
        ∃ t u, exec (.restart tag) s = .next t ∧ t.pending = s.pending ∧
          ReleasesTaken .restart (callsWith Call.active s.part)
            { s.part with m.restart := some { tag := tag, waiting := callsWith Call.active s.part } } u ∧
          (OriginsQuiet u → OriginsEmptied u t.part)) ∧
      (callsWith Call.active s.part ≠ [] → s.part.a.present = false → s.part.b.present = false →
        (∀ id, (call id s.part).active = true →
          (call id s.part).released = false ∧ ordersOf id s.part ≠ [] ∧ Unawaited id s.part) →
        ∃ t, exec (.restart tag) s = .next t ∧ t.pending = s.pending ∧
          t.part.m =
            { s.part.m with restart := some { tag := tag, waiting := callsWith Call.active s.part } } ∧
          (∀ id, call id t.part =
            if (call id s.part).active then
              { call id s.part with
                reason := some .restart, timer := none, charging := false, relPending := true }
            else call id s.part) ∧
          OriginsEmptied { s.part with calls := t.part.calls, m := t.part.m } t.part))

/-- READ STATUS (R175): the status report of 32 bytes, field by field as section 10.3 lays it out, in LOADING as in
IN SERVICE, and nothing changes: the part state, the cause, the battery, the presences, the records in each state of
R85, the wait queue, the marked origins, the orders, the claims, the dirty list, the lines with NV FAULT, the pace,
the three notice queues, the lost CLEARED count and the last sample. -/
def Obligations.ReadStatus : Prop :=
  ∀ (s : State) (tag : Byte), MaintTakes s.part →
    Replies (.readStatus tag) s .maint { tag := tag, code := .done, data := statusReport s.part } s.part ∧
      (statusReport s.part).length = 32 ∧
      (statusReport s.part).take 5 =
        [flag s.part.supply.inService, b8 s.part.supply.cause.code, b8 s.part.supply.battery.code,
          flag s.part.a.present, flag s.part.b.present] ∧
      (statusReport s.part).drop 30 = b16 s.part.supply.sample ∧
      (let inState := fun st : CallState =>
          b8 ((List.range 128).filter (fun id => decide ((call id s.part).state = st))).length;
        statusReport s.part =
          [flag s.part.supply.inService, b8 s.part.supply.cause.code, b8 s.part.supply.battery.code,
              flag s.part.a.present, flag s.part.b.present] ++
            [inState .free, inState .settingOrigin, inState .dialling, inState .settingTerm, inState .ringing,
              inState .awaitingAnswer, inState .answered, inState .calledCleared, inState .releasing,
              inState .closed] ++
            [b8 s.part.orig.queue.length] ++
            b16 ((s.part.net.lines.filter (fun x => x.2.marked)).length +
              (s.part.net.junctions.filter (fun x => x.2.marked)).length) ++
            [b8 s.part.orders.length, b8 (claims s.part)] ++ b16 s.part.meters.dirty.length ++
            b16 (s.part.meters.entries.filter (fun x => x.2.nvFault)).length ++
            [(if s.part.supply.battery = .normal then 0 else 1), b8 s.part.a.io.queue.length,
              b8 s.part.b.io.queue.length, b8 s.part.m.io.queue.length] ++
            b16 s.part.m.lost ++ b16 s.part.supply.sample) ∧
      [Cause.powerOn, .battery].map Cause.code = [0, 1] ∧
      [Battery.normal, .low, .rideThrough].map Battery.code = [0, 1, 2]

/-- WRITE TABLE refused (R16, R172): a count of 0 or above 64 or a table code above 9 with FORMAT, records
beyond the table with NO SUCH, an enumerated field of any of its records outside its set with FORMAT, and frame links and
cords in service with BAD STATE; a refused request writes nothing, of any of its records. The fields are those of section
10.3: class and administrative state of a line, home controller of a frame or route, direction, glare preference and
administrative state of a junction, administrative state of a frame link or cord, period and profile of a calendar entry,
and preferred source. Where two refusals apply the order is the model's (log entry 32). -/
def Obligations.RefusedWriteWritesNothing : Prop :=
  ∀ (s : State) (tag table count : Byte) (first : Word16) (records : List Byte) (m : Moment),
    MaintTakes s.part → recordsFit table count records = true →
    let size := [3, 2, 2, 7, 2, 2, 6, 5, 15, 1].getD table.toNat 0
    let length := [2048, 32, 8, 48, 384, 96, 64, 16, 1, 1].getD table.toNat 0
    let field := fun i n => (records.getD (i * size + n) 0).toNat
    let inSet := fun i =>
      match table.toNat with
      | 0 => field i 0 ≤ 3 ∧ field i 1 ≤ 2
      | 1 => field i 0 = 1 ∨ field i 0 = 2
      | 2 => field i 0 = 1 ∨ field i 0 = 2
      | 3 => field i 1 ≤ 2 ∧ field i 2 ≤ 1 ∧ field i 3 ≤ 2
      | 4 => field i 0 ≤ 2
      | 5 => field i 0 ≤ 2
      | 7 => field i 3 ≤ 3 ∧ field i 4 ≤ 1
      | 9 => field i 0 ≤ 2
      | _ => True
    (count.toNat = 0 ∨ 64 < count.toNat ∨ 9 < table.toNat →
      Replies (.writeTable tag table first count records m) s .maint { tag := tag, code := .format } s.part) ∧
    (0 < count.toNat → count.toNat ≤ 64 → table.toNat ≤ 9 →
      (length < first.toNat + count.toNat →
        Replies (.writeTable tag table first count records m) s .maint
          { tag := tag, code := .noSuch } s.part) ∧
      (first.toNat + count.toNat ≤ length →
        (∃ i, i < count.toNat ∧ ¬ inSet i) →
        Replies (.writeTable tag table first count records m) s .maint
          { tag := tag, code := .format } s.part) ∧
      (first.toNat + count.toNat ≤ length →
        (∀ i, i < count.toNat → inSet i) →
        table.toNat = 4 ∨ table.toNat = 5 → s.part.supply.inService = true →
        Replies (.writeTable tag table first count records m) s .maint
          { tag := tag, code := .badState } s.part))

/-- WRITE TABLE of one record (R16, R172): of a frame and of a route, its home and the clamped seize persistence (R13,
R14); of a tariff entry, the clamped unit period and answer units, with the band's increment where the entry is of
the period in force (R108, R109, R110); of a line in IN SERVICE, its class, which waits for a line in a call (R12); of a
junction in IN SERVICE, its glare preference, and its route and direction, which wait for a junction in use (R15),
with the seizure of a junction whose loop is held (R34), in a freeze too (log entry 51); of a frame link or cord in
LOADING, its administrative state; of a calendar entry, with the evaluation (R163, R165); of the timer table, each field
clamped; and of the preferred source, with the policy (R158), whose TIMEBASE RESTORED follows log entry 12 and comes
before the reply is built (log entry 64). -/
def Obligations.WriteFrameAndTariff : Prop :=
  ∀ (s : State) (tag x y z : Byte) (first : Word16) (m : Moment), MaintTakes s.part → TablesOk s.part →
    (first.toNat < 32 → ∀ c : Ctl, ctlCode (some c) = x.toNat →
      ∃ q, Replies (.writeTable tag 1 first 1 [x, y] m) s .maint
          { tag := tag
            code := if 2 ≤ y.toNat ∧ y.toNat ≤ 15 then .done else .doneClamped } q ∧
        frame first.toNat q =
          { frame first.toNat s.part with home := some c, seize := max 2 (min y.toNat 15) } ∧
        (∀ f, f ≠ first.toNat → frame f q = frame f s.part) ∧
        q = { s.part with net.frames := q.net.frames, orig.request := q.orig.request }) ∧
    (first.toNat < 64 → s.part.calls = [] → s.part.charge.incs.length = 16 →
      let p := x.toNat * 256 + y.toNat
      ∃ q, Replies (.writeTable tag 6 first 1 [x, y, z, 0, 0, 0] m) s .maint
          { tag := tag
            code := if (p = 0 ∨ 10 ≤ p ∧ p ≤ 6000) ∧ z.toNat ≤ 15 then .done else .doneClamped } q ∧
        Table.get {} q.charge.tariff first.toNat =
          { unitPeriod := if p = 0 then 0 else max 10 (min p 6000), answerUnits := min z.toNat 15 } ∧
        (∀ i, i ≠ first.toNat →
          Table.get {} q.charge.tariff i = Table.get {} s.part.charge.tariff i) ∧
        (∀ b, b < 16 → q.charge.incs.getD b 0 =
          if b = first.toNat / 4 ∧ first.toNat % 4 = s.part.charge.period.code then
            increment (if p = 0 then 0 else max 10 (min p 6000))
          else s.part.charge.incs.getD b 0) ∧
        q = { s.part with charge := { q.charge with period := s.part.charge.period } }) ∧
    (first.toNat < 2048 → s.part.supply.inService = true → ∀ k : LineClass, k.code = x.toNat → y.toNat ≤ 2 →
      let l := line first.toNat s.part
      let goes := k = .unequipped ∧ l.cls ≠ .unequipped
      (callOf (.line first.toNat) s.part ≠ none →
        ∃ q, Replies (.writeTable tag 0 first 1 [x, y, z] m) s .maint { tag := tag, code := .done } q ∧
          line first.toNat q = { l with pendCls := if k = l.cls then none else some k } ∧
          (∀ lt, lt ≠ first.toNat → line lt q = line lt s.part) ∧
          q = { s.part with net.lines := q.net.lines, orig.request := q.orig.request }) ∧
      (callOf (.line first.toNat) s.part = none →
        ∃ q, Replies (.writeTable tag 0 first 1 [x, y, z] m) s .maint { tag := tag, code := .done } q ∧
          (goes → line first.toNat q =
            { l with
              cls := k, pendCls := none, marked := false
              sup := match l.sup with | .inCall id => .inCall id | _ => .idle }) ∧
          (¬ goes → line first.toNat q = { l with cls := k, pendCls := none }) ∧
          (∀ lt, lt ≠ first.toNat → line lt q = line lt s.part) ∧
          (goes → q.orig.queue =
            s.part.orig.queue.filter (fun w => decide (w.origin ≠ .line first.toNat))) ∧
          (¬ goes → q.orig.queue = s.part.orig.queue) ∧
          (l.cls = .unequipped → k ≠ .unequipped → l.admin = .inService → point first.toNat q = {}) ∧
          (∀ p, p ≠ first.toNat → point p q = point p s.part) ∧
          q = { s.part with
            net.lines := q.net.lines, scan.points := q.scan.points
            orig.queue := q.orig.queue, orig.request := q.orig.request })) ∧
    (first.toNat < 8 → ∀ c : Ctl, ctlCode (some c) = x.toNat →
      ∃ q, Replies (.writeTable tag 2 first 1 [x, y] m) s .maint { tag := tag, code := .done } q ∧
        route first.toNat q = { route first.toNat s.part with home := some c } ∧
        (∀ r, r ≠ first.toNat → route r q = route r s.part) ∧
        q = { s.part with net.routes := q.net.routes, orig.request := q.orig.request }) ∧
    (first.toNat < 48 → s.part.supply.inService = true → ∀ (d : Direction) (g : Glare) (w : Byte),
      d.code = y.toNat → g.code = z.toNat → w.toNat ≤ 2 →
      let r := junction first.toNat s.part
      let seized := r.elem.admin = .inService ∧ d ≠ .outgoing ∧
        (point (2336 + first.toNat) s.part).accepted = .loop
      ∃ q, Replies (.writeTable tag 3 first 1 [x, y, z, w, 0, 0, 0] m) s .maint
          { tag := tag, code := if x.toNat ≤ 7 then .done else .doneClamped } q ∧
        (¬ (r.elem.occ = .free ∧ r.sup = .idle) →
          junction first.toNat q =
            { r with glare := g, pendRoute := some (min x.toNat 7), pendDir := some d }) ∧
        (r.elem.occ = .free → r.sup = .idle →
          (¬ seized → junction first.toNat q =
            { r with route := some (min x.toNat 7), dir := d, glare := g, pendRoute := none, pendDir := none }) ∧
          (seized → junction first.toNat q =
            { r with
              route := some (min x.toNat 7), dir := d, glare := g, pendRoute := none, pendDir := none
              sup := .originating, marked := true })) ∧
        (∀ j, j ≠ first.toNat → junction j q = junction j s.part) ∧
        (∀ p, p ≠ 2336 + first.toNat → point p q = point p s.part) ∧
        q = { s.part with
          net.junctions := q.net.junctions, scan.points := q.scan.points, orig.request := q.orig.request }) ∧
    (s.part.supply.inService = false → x.toNat ≤ 2 → ∀ (e : ElemId) (table : Byte),
      (e = .fl first.toNat ∧ table = 4 ∧ first.toNat < 384) ∨
        (e = .cord first.toNat ∧ table = 5 ∧ first.toNat < 96) →
      (elem e s.part).occ = .free → (elem e s.part).admin ≠ .busyOutPending →
      ∃ q, Replies (.writeTable tag table first 1 [x, y] m) s .maint { tag := tag, code := .done } q ∧
        elem e q = { occ := .free, admin := if x.toNat = 0 then .inService else .busyOut } ∧
        (∀ f, f ≠ e → elem f q = elem f s.part) ∧
        q = { s.part with
          net.fls := q.net.fls, net.cords := q.net.cords, orig.request := q.orig.request }) ∧
    (first.toNat < 16 → ∀ (u v : Byte) (p : Period) (f : Profile), p.code = u.toNat → f.code = v.toNat →
      let minute := y.toNat * 256 + z.toNat
      ∃ q, Replies (.writeTable tag 7 first 1 [x, y, z, u, v] m) s .maint
          { tag := tag, code := if minute ≤ 1439 then .done else .doneClamped } q ∧
        (∀ i, Table.get {} q.cal.entries i =
          if i = first.toNat then
            { mask := b8 (x.toNat % 128), minute := min minute 1439, period := p, profile := f }
          else Table.get {} s.part.cal.entries i) ∧
        Evaluated { s.part with cal.entries := q.cal.entries } q) ∧
    (first.toNat = 0 → ∀ b0 b1 b2 b3 b4 b5 b6 b7 b8 b9 b10 b11 b12 b13 b14 : Byte,
      let ring := b6.toNat * 256 + b7.toNat
      Replies
        (.writeTable tag 8 first 1 [b0, b1, b2, b3, b4, b5, b6, b7, b8, b9, b10, b11, b12, b13, b14] m) s .maint
        { tag := tag
          code :=
            if (∀ b ∈ [b0, b1, b2, b3], 5 ≤ b.toNat ∧ b.toNat ≤ 60) ∧ b4.toNat ≤ 48 ∧ b5.toNat ≤ 48 ∧
              30 ≤ ring ∧ ring ≤ 300 ∧ 5 ≤ b9.toNat ∧ b9.toNat ≤ 120 ∧ b10.toNat ≤ 60 ∧
              ∀ b ∈ [b11, b12, b13, b14], b.toNat ≤ 3
            then .done else .doneClamped }
        { s.part with
          timers :=
            { firstNormal := max 5 (min b0.toNat 60), firstHeavy := max 5 (min b1.toNat 60)
              interNormal := max 5 (min b2.toNat 60), interHeavy := max 5 (min b3.toNat 60)
              reserveNormal := min b4.toNat 48, reserveHeavy := min b5.toNat 48
              noAnswer := max 30 (min ring 300), hold := b8.toNat
              waitLimit := max 5 (min b9.toNat 120), grace := min b10.toNat 60
              prioServer := min b11.toNat 3, prioA := min b12.toNat 3
              prioB := min b13.toNat 3, prioRelease := min b14.toNat 3 } }) ∧
    (first.toNat = 0 → ∀ src : Source, src.code = x.toNat →
      let done : Reply := { tag := tag, code := .done }
      let q := { s.part with tb.preferred := src }
      (usable src s.part = true → src = s.part.tb.selection →
        Replies (.writeTable tag 9 first 1 [x] m) s .maint done { q with tb.fallback := false }) ∧
      (usable src s.part = true → src ≠ s.part.tb.selection → src = .station ∨ m.sinceTick < 100 →
        (s.part.tb.fallback = false →
          Replies (.writeTable tag 9 first 1 [x] m) s .maint done { q with tb.selection := src }) ∧
        (s.part.tb.fallback = true → MaintRoom s.part →
          ∃ u, Noticed .timebaseRestored [b8 src.code, b8 s.part.tb.selection.code]
              { q with tb.selection := src, tb.fallback := false } u ∧
            Replies (.writeTable tag 9 first 1 [x] m) s .maint done u)) ∧
      (usable src s.part = false →
        (s.part.tb.crystal ≠ .ready ∨ s.part.tb.selection = .crystal →
          Replies (.writeTable tag 9 first 1 [x] m) s .maint done q) ∧
        (s.part.tb.crystal = .ready → s.part.tb.selection = .internal → m.sinceTick < 100 →
          (s.part.tb.fallback = false →
            Replies (.writeTable tag 9 first 1 [x] m) s .maint done { q with tb.selection := .crystal }) ∧
          (s.part.tb.fallback = true → MaintRoom s.part →
            ∃ u, Noticed .timebaseRestored [b8 1, b8 2] { q with tb.selection := .crystal } u ∧
              Replies (.writeTable tag 9 first 1 [x] m) s .maint done u))))

/-- READ TABLE (R16, R172): the refusals of a header, and otherwise the header with every record as it stands; a
record has the size of its table and the fields section 10.3 gives it, and nothing changes. A junction whose route is
none reads as absent (log entry 56); the order of the refusals is the model's (log entry 32). -/
def Obligations.ReadTable : Prop :=
  ∀ (s : State) (tag table count : Byte) (first : Word16), MaintTakes s.part →
    (count.toNat = 0 ∨ 64 < count.toNat ∨ 9 < table.toNat →
      Replies (.readTable tag table first count) s .maint { tag := tag, code := .format } s.part) ∧
    (0 < count.toNat → count.toNat ≤ 64 → table.toNat ≤ 9 →
      (tableLength table.toNat < first.toNat + count.toNat →
        Replies (.readTable tag table first count) s .maint { tag := tag, code := .noSuch } s.part) ∧
      (first.toNat + count.toNat ≤ tableLength table.toNat →
        Replies (.readTable tag table first count) s .maint
          { tag := tag, code := .done
            data := [table] ++ b16 first.toNat ++ [count] ++
              (List.range count.toNat).flatMap
                (fun i => tableRecord table.toNat (first.toNat + i) s.part) } s.part ∧
        ∀ i, some (tableRecord table.toNat i s.part).length = recordSize table.toNat)) ∧
    (∀ i, let l := line i s.part
      let j := junction i s.part
      let t := Table.get ({} : Tariff) s.part.charge.tariff i
      let c := Table.get ({} : CalEntry) s.part.cal.entries i
      let w := s.part.timers
      let home : Option Ctl → Byte := fun h => match h with | none => 0 | some .a => 1 | some .b => 2
      tableRecord 0 i s.part =
          [b8 l.cls.code, b8 l.admin.code, (match l.pendCls with | some k => b8 k.code | none => 255)] ∧
        tableRecord 1 i s.part = [home (frame i s.part).home, b8 (frame i s.part).seize] ∧
        tableRecord 2 i s.part = [home (route i s.part).home, b8 (route i s.part).hunt] ∧
        tableRecord 3 i s.part =
          [(match j.route with | some r => b8 r | none => 255), b8 j.dir.code, b8 j.glare.code,
            b8 j.elem.admin.code, b8 j.elem.occ.code, (match j.pendRoute with | some r => b8 r | none => 255),
            (match j.pendDir with | some d => b8 d.code | none => 255)] ∧
        tableRecord 4 i s.part = [b8 (elem (.fl i) s.part).admin.code, b8 (elem (.fl i) s.part).occ.code] ∧
        tableRecord 5 i s.part = [b8 (elem (.cord i) s.part).admin.code, b8 (elem (.cord i) s.part).occ.code] ∧
        tableRecord 6 i s.part =
          b16 t.unitPeriod ++ [b8 t.answerUnits] ++
            b24 (if t.unitPeriod = 0 then 0 else (1048576 + t.unitPeriod - 1) / t.unitPeriod) ∧
        tableRecord 7 i s.part = [c.mask] ++ b16 c.minute ++ [b8 c.period.code, b8 c.profile.code] ∧
        tableRecord 8 i s.part =
          [b8 w.firstNormal, b8 w.firstHeavy, b8 w.interNormal, b8 w.interHeavy, b8 w.reserveNormal,
              b8 w.reserveHeavy] ++ b16 w.noAnswer ++
            [b8 w.hold, b8 w.waitLimit, b8 w.grace, b8 w.prioServer, b8 w.prioA, b8 w.prioB, b8 w.prioRelease] ∧
        tableRecord 9 i s.part = [b8 s.part.tb.preferred.code]) ∧
    [LineClass.ordinary, .coin, .essential, .unequipped].map LineClass.code = [0, 1, 2, 3] ∧
    [Admin.inService, .busyOut, .busyOutPending].map Admin.code = [0, 1, 2] ∧
    [Occupancy.free, .reserved, .held, .releasing, .faulty].map Occupancy.code = [0, 1, 2, 3, 4] ∧
    [Direction.outgoing, .incoming, .bothway].map Direction.code = [0, 1, 2] ∧
    [Glare.hold, .yield].map Glare.code = [0, 1]

/-! ## The controller ports (R66, R100, R106, R170, R173, R174) -/

/-- PRESENCE (R174), in IN SERVICE and with no request of the port in flight: no effect beyond the sign of life of R182;
the reply gives the part state and the presence of each controller, and always shows the sender PRESENT. A PRESENT
sender's window begins again. An ABSENT one becomes PRESENT: an active record without an owner passes to it with CALL
TRANSFERRED (R105), a PRESENT peer hears PEER PRESENT, and CONTROLLER PRESENT is queued, its controller byte being the
model's (log entry 65). One whose 20th tick has been taken is made ABSENT first, and PRESENT again by the frame (R183).
-/
def Obligations.Presence : Prop :=
  ∀ (s : State) (c : Ctl) (tag : Byte), s.part.supply.inService = true → s.part.supply.decided = false →
    (ctl c s.part).extend = none →
    let q := signOfLife c s.part
    Replies (.presence c tag) s (.ctl c)
      { tag := tag, code := .done
        data := [flag s.part.supply.inService, flag q.a.present, flag q.b.present] } q ∧
    (ctl c q).present = true ∧
    ((ctl c s.part).present = true → (ctl c s.part).window < 20 → q = alive c s.part) ∧
    (∀ id r, (ctl c s.part).present = false → s.part.calls = [(id, r)] → r.active = true → r.owner = none →
      r.pend = [] → (ctl c s.part).io.queue.length < 64 → MaintRoom s.part →
      ((ctl (otherCtl c) s.part).present = true → (ctl (otherCtl c) s.part).peer = none ∧
        (ctl (otherCtl c) s.part).io.queue.length < 64) →
      call id q = { r with owner := some c } ∧ (∀ x, x ≠ id → call x q = call x s.part) ∧
      noticesDue (.ctl c) q =
        noticesDue (.ctl c) s.part ++ [.call .callTransferred id (callSummary id q)] ∧
      noticesDue (.ctl (otherCtl c)) q =
        noticesDue (.ctl (otherCtl c)) s.part ++
          (if (ctl (otherCtl c) s.part).present then [.peer true] else []) ∧
      noticesDue .maint q =
        noticesDue .maint s.part ++ [.maint (.controllerPresent c) 0 [b8 (ctlIndex c)]] ∧
      ctl c q = { ctl c s.part with io := (ctl c q).io, present := true, window := 0 } ∧
      q = { s.part with
        calls := q.calls, a := q.a, b := q.b, m.io := q.m.io, orig.request := q.orig.request }) ∧
    ((ctl c s.part).present = true → 20 ≤ (ctl c s.part).window → s.part.calls = [] →
      (ctl c s.part).io.queue = [] → (ctl (otherCtl c) s.part).present = false →
      s.part.m.held = [] → s.part.m.io.queue.length < 31 →
      noticesDue .maint q =
        noticesDue .maint s.part ++
          [.maint (.controllerAbsent c) 0 [b8 (ctlIndex c)], .maint (.controllerPresent c) 0 [b8 (ctlIndex c)]] ∧
      ctl c q = { ctl c s.part with present := true, window := 0, peer := none } ∧
      q = { s.part with a := q.a, b := q.b, m.io := q.m.io, orig.request := q.orig.request })

/-- RELEASE (R100): NO SUCH for a call id outside 0 to 127, BAD STATE for a record FREE or CLOSED, NOT OWNER for
another's record, in this order (log entry 32), and otherwise DONE and a release with reason CONTROLLER under R98,
which changes nothing where a release has been taken. That the reply is built before the release takes effect is log
entry 38. -/
def Obligations.Release : Prop :=
  ∀ (s : State) (c : Ctl) (tag id : Byte), CtlTakes c s.part → TablesOk s.part →
    (128 ≤ id.toNat →
      Replies (.release c tag id) s (.ctl c) { tag := tag, code := .noSuch } (alive c s.part)) ∧
    (id.toNat < 128 → ((call id.toNat s.part).state = .free ∨ (call id.toNat s.part).state = .closed) →
      Replies (.release c tag id) s (.ctl c) { tag := tag, code := .badState } (alive c s.part)) ∧
    (id.toNat < 128 → (call id.toNat s.part).state ≠ .free → (call id.toNat s.part).state ≠ .closed →
      ((call id.toNat s.part).owner ≠ some c →
        Replies (.release c tag id) s (.ctl c) { tag := tag, code := .notOwner } (alive c s.part)) ∧
      ((call id.toNat s.part).owner = some c →
        ∃ q, Answered (.ctl c) { tag := tag, code := .done } (alive c s.part) q ∧
          Makes (.release c tag id) s (takeRelease id.toNat .controller q) ∧
          ((call id.toNat s.part).released = true → takeRelease id.toNat .controller q = q) ∧
          ((call id.toNat s.part).released = false → Unawaited id.toNat s.part →
            TakesRelease id.toNat .controller q (takeRelease id.toNat .controller q))))

/-- READ CALL and READ LINE (R106, R173): the refusals in the order of the rule's sentences (log entry 32), and
otherwise the summaries, of 36 bytes and the digits and of 15 bytes, field by field as section 10.3 lays them out;
nothing changes but the window of the sign of life. During a reswitch the origin's frame link is that of the old set
and the terminating frame link that of the new set (log entry 23); a record whose set names no cord has 255 for it
(log entry 60). The coin fields of a record without a coin context are 0 (log entry 53), and a line whose cord has
left its record is reported by its own point (log entry 52). -/
def Obligations.ReadCallAndLine : Prop :=
  ∀ (s : State) (c : Ctl) (tag id : Byte) (n : Word16), CtlTakes c s.part →
    (128 ≤ id.toNat →
      Replies (.readCall c tag id) s (.ctl c) { tag := tag, code := .noSuch } (alive c s.part)) ∧
    (id.toNat < 128 → (call id.toNat s.part).state = .free →
      Replies (.readCall c tag id) s (.ctl c) { tag := tag, code := .badState } (alive c s.part)) ∧
    (id.toNat < 128 → (call id.toNat s.part).state ≠ .free → (call id.toNat s.part).owner ≠ some c →
      Replies (.readCall c tag id) s (.ctl c) { tag := tag, code := .notOwner } (alive c s.part)) ∧
    (id.toNat < 128 → (call id.toNat s.part).state ≠ .free → (call id.toNat s.part).owner = some c →
      Replies (.readCall c tag id) s (.ctl c)
        { tag := tag, code := .done, data := callSummary id.toNat s.part } (alive c s.part)) ∧
    (callSummary id.toNat s.part).length = 36 + (call id.toNat s.part).digits.length ∧
    (callSummary id.toNat s.part).take 3 =
      [id, b8 (call id.toNat s.part).state.code, b8 (ctlCode (call id.toNat s.part).owner)] ∧
    (2048 ≤ n.toNat →
      Replies (.readLine c tag n) s (.ctl c) { tag := tag, code := .noSuch } (alive c s.part)) ∧
    (n.toNat < 2048 →
      Replies (.readLine c tag n) s (.ctl c)
        { tag := tag, code := .done, data := lineSummary n.toNat s.part } (alive c s.part)) ∧
    (lineSummary n.toNat s.part).length = 15 ∧
    (lineSummary n.toNat s.part).take 6 =
      b16 n.toNat ++ [b8 (line n.toNat s.part).cls.code,
        o8 ((line n.toNat s.part).pendCls.map LineClass.code), b8 (line n.toNat s.part).admin.code,
        b8 (line n.toNat s.part).sup.code] ∧
    (let c := call id.toNat s.part
      let byte : Option Nat → Byte := fun x => match x with | some v => b8 v | none => 255
      let word : Option Nat → List Byte := fun x => match x with | some v => b16 v | none => [255, 255]
      ∀ x, c.origin = some x →
        callSummary id.toNat s.part =
          [id, b8 c.state.code, b8 (ctlCode c.owner)] ++
            (match x with | .line lt => [0] ++ b16 lt | .junction j => [1] ++ b16 j) ++
            word (if c.reswitch then c.old.fl else c.set.fl) ++
            [byte (if c.reswitch then c.old.cord else c.set.cord),
              (if c.reswitch then byte c.new.cord else 255), flag c.reswitch] ++
            (match c.term with
              | none => [0, 255, 255]
              | some (.line lt) => [1] ++ b16 lt
              | some (.junction j) => [2] ++ b16 j) ++
            word (if c.reswitch then c.new.tfl else c.set.tfl) ++ [byte c.band, b8 (timerCode c.timer)] ++
            (match c.timer with | some m => b16 (m.limit - m.count) | none => [255, 255]) ++
            b16 c.units ++ b24 c.accum ++ [flag c.degraded] ++
            (match c.coin with
              | none => [0, 0, 0, 0, 0, 255, 255]
              | some k => [1, b8 k.credit, b8 k.owed] ++ b16 k.deposits ++
                  (match k.grace with | some g => b16 (g.1 - g.2) | none => [255, 255])) ++
            [flag c.relPending, b8 (reasonCode c.reason), b8 c.digits.length] ++ c.digits.map b8) ∧
    (let l := line n.toNat s.part
      let p := match l.sup with
        | .inCall id =>
          let c := call id s.part
          if c.lineSpeaks = true ∧ c.origin = some (.line n.toNat) then n.toNat
          else if c.term = some (.line n.toNat) then
            match (if c.reswitch then c.new.cord else c.set.cord) with
            | some cord => 2144 + cord
            | none => n.toNat
          else
            match c.set.cord with
            | some cord => 2048 + cord
            | none => n.toNat
        | _ => n.toNat;
      lineSummary n.toNat s.part =
        b16 n.toNat ++
          [b8 l.cls.code, (match l.pendCls with | some k => b8 k.code | none => 255), b8 l.admin.code,
            b8 l.sup.code, (match l.sup with | .inCall id => b8 id | _ => 255), flag l.marked,
            flag (s.part.orig.queue.any (fun w => decide (w.origin = .line n.toNat)))] ++
          b16 p ++ [b8 (point p s.part).accepted.code] ++ b16 (point p s.part).duration ++
          [b8 (eventCode (point p s.part).pending)]) ∧
    [CallState.free, .settingOrigin, .dialling, .settingTerm, .ringing, .awaitingAnswer, .answered,
      .calledCleared, .releasing, .closed].map CallState.code = List.range 10 ∧
    [none, some Ctl.a, some .b].map ctlCode = [0, 1, 2] ∧
    [none, some Reason.callerCleared, some .calledCleared, some .dialTimeout, some .noAnswer,
      some .creditExhausted, some .controller, some .maintenance, some .reswitchFailed,
      some .restart].map reasonCode = List.range 10 ∧
    (∀ l n, [none, some (CallTimer.mk .firstDigit l n), some (CallTimer.mk .interdigit l n),
      some (CallTimer.mk .noAnswer l n), some (CallTimer.mk .hold l n)].map timerCode = [0, 1, 2, 3, 4]) ∧
    (∀ id, [LineSup.idle, .originating, .inCall id, .parked].map LineSup.code = [0, 1, 2, 3]) ∧
    [PointState.open_, .loop, .normal, .reversed].map PointState.code = [0, 1, 2, 3] ∧
    [none, some ScanEvent.callerClear, some .parkEnd, some .digitEnd, some .calledClear,
      some .farEndClear].map eventCode = [0, 1, 2, 3, 4, 5]

/-- EXTEND (R66): refused NO SUCH, FORMAT, BAD STATE or NOT OWNER, in this order, which is the model's where two of
them apply (log entry 32); otherwise it is in flight, the controller's request at the arbiter, and nothing else
changes. ARBITER_GRANT of it, for a call from a line or from an incoming junction, to a line (R67): refused
UNAVAILABLE for a line out of service and for one of the calling line's frame, LINE BUSY for a line in use,
CONGESTED for a frame link that is not available where no reswitch is to be had, with the call in DIALLING and its
INTERDIGIT timer started; otherwise DONE, the frame link RESERVED, the line IN CALL with the cord's T point loaded
from its own, and the plane crosspoint, the line crosspoint and RING ON ordered. To a route (R68): DONE with the
junction hunted and its junctor crosspoint ordered, or CONGESTED. With permission, a call of a line whose called
side is not to be reached on its plane is reswitched (R72, R73), toward a line or a route: the elements of the new
set become RESERVED and those of the old set RELEASING, the two origin crosspoints are ordered released, and the
calling line's point is loaded from the old O point and speaks; with no plane that qualifies, CONGESTED. Beside them
the plane and the cord that R72 chooses, and the junction that the hunt of R68 chooses. The names of the orders are
the model's (log entry 15). -/
def Obligations.Extend : Prop :=
  (∀ (s : State) (c : Ctl) (tag id kind band perm : Byte) (dest : Word16), CtlTakes c s.part →
    let r := call id.toNat s.part
    let noSuch := 128 ≤ id.toNat ∨ (kind = 0 ∧ 2048 ≤ dest.toNat) ∨ (kind = 1 ∧ 8 ≤ dest.toNat)
    let format := 2 ≤ kind.toNat ∨ 16 ≤ band.toNat ∨ 2 ≤ perm.toNat
    let badState := r.state ≠ .dialling ∨ r.relPending = true
    (noSuch →
      Replies (.extend c tag id kind dest band perm) s (.ctl c) { tag := tag, code := .noSuch }
        (alive c s.part)) ∧
    (¬ noSuch → format →
      Replies (.extend c tag id kind dest band perm) s (.ctl c) { tag := tag, code := .format }
        (alive c s.part)) ∧
    (¬ noSuch → ¬ format → badState →
      Replies (.extend c tag id kind dest band perm) s (.ctl c) { tag := tag, code := .badState }
        (alive c s.part)) ∧
    (¬ noSuch → ¬ format → ¬ badState → r.owner ≠ some c →
      Replies (.extend c tag id kind dest band perm) s (.ctl c) { tag := tag, code := .notOwner }
        (alive c s.part)) ∧
    (¬ noSuch → ¬ format → ¬ badState → r.owner = some c →
      Makes (.extend c tag id kind dest band perm) s
        (modCtl c
          (fun p => { p with
            window := 0
            extend := some
              { tag := tag, call := id.toNat, band := band.toNat, allow := decide (perm = 1)
                dest := if kind = 0 then .line dest.toNat else .route dest.toNat } }) s.part))) ∧
  (∀ (s : State) (c : Ctl) (e : ExtendRequest) (o : Party) (cord : Nat), ExtendGranted c e o cord s.part →
    let r := call e.call s.part
    let granted := s.part.arb.last.set (match c with | .a => s.part.timers.prioA | .b => s.part.timers.prioB)
      (.ctl c)
    let own := match o with | .line lo => lo | .junction j => 2336 + j
    let places := match o with | .line _ => 0 | .junction _ => 1
    let unarmed := fun p => { point p s.part with pending := none }
    let oEnd := { point (2048 + cord) s.part with pulses := 0, pending := none }
    let placed (claim : Nat) : Call :=
      { r with
        timer := none, band := some e.band, dest := some e.dest, state := .settingTerm, claim := claim
        op := .extension, opFailed := false, yielded := false }
    let replied (code : ResultCode) (t : Part) : Prop :=
      repliesDue (.ctl c) t = repliesDue (.ctl c) s.part ++ [{ tag := e.tag, code := code }] ∧
        (ctl c t).io.queue = (ctl c s.part).io.queue ∧
        ctl c t = { ctl c s.part with extend := none, io := (ctl c t).io } ∧
        ctl (otherCtl c) t = ctl (otherCtl c) s.part ∧ t.arb = { s.part.arb with last := granted }
    let refused (code : ResultCode) : Prop :=
      ∃ t, exec .arbiterGrant s = .next t ∧ t.pending = s.pending ∧ replied code t.part ∧
        call e.call t.part =
          { r with
            claim := 0
            timer := some
              { kind := .interdigit
                limit := 10 *
                  (match s.part.cal.profile with
                    | .normal => s.part.timers.interNormal
                    | .heavy => s.part.timers.interHeavy) } } ∧
        (∀ x, x ≠ e.call → call x t.part = call x s.part) ∧
        point (2048 + cord) t.part = oEnd ∧ point (2144 + cord) t.part = unarmed (2144 + cord) ∧
        point own t.part = unarmed own ∧
        (∀ p, p ≠ 2048 + cord → p ≠ 2144 + cord → p ≠ own → point p t.part = point p s.part) ∧
        t.part = { s.part with
          arb := t.part.arb, calls := t.part.calls, scan.points := t.part.scan.points
          a := t.part.a, b := t.part.b }
    let movable (lo n0 x : Nat) : Prop :=
      o = .line lo ∧ r.set = { fl := some n0, cord := some cord } ∧
        r.xps = [(.line lo n0, .operated), (.plane n0 cord .o, .operated)] ∧
        (elem (.fl n0) s.part).occ = .held ∧ callOfElem (.cord x) s.part = none
    let moved (lo n0 k x : Nat) (term : Party) (tfl tjunction : Option Nat) : Call :=
      { placed 7 with
        op := .reswitch1, reswitch := true, lineSpeaks := true, term := some term, old := r.set, set := {}
        new :=
          { fl := some (12 * (lo / 64) + k), cord := some x, tfl := tfl, tjunction := tjunction }
        xps := [(.line lo n0, .releasing), (.plane n0 cord .o, .releasing)] }
    let moving (lo n0 k x : Nat) (t : Part) : Prop :=
      (∀ y, y ≠ e.call → call y t = call y s.part) ∧
        t.orders = s.part.orders ++
          [{ id := s.part.serial, call := e.call, act := .release (.line lo n0) },
            { id := s.part.serial + 1, call := e.call, act := .release (.plane n0 cord .o) }] ∧
        elem (.fl (12 * (lo / 64) + k)) t = { elem (.fl (12 * (lo / 64) + k)) s.part with occ := .reserved } ∧
        elem (.cord x) t = { elem (.cord x) s.part with occ := .reserved } ∧
        elem (.fl n0) t = { elem (.fl n0) s.part with occ := .releasing } ∧
        elem (.cord cord) t = { elem (.cord cord) s.part with occ := .releasing } ∧
        (∀ y, y ≠ x → y ≠ cord → elem (.cord y) t = elem (.cord y) s.part) ∧
        point lo t = oEnd ∧ point (2048 + cord) t = oEnd ∧ point (2048 + x) t = {} ∧ point (2240 + x) t = {}
    (∀ lt, e.dest = .line lt → lt < 2048 →
      let l := line lt s.part
      let n := 12 * (lt / 64) + cord / 8
      let out := l.cls = .unequipped ∨ l.admin = .busyOut
      let busy := callOf (.line lt) s.part ≠ none ∨ l.sup ≠ .idle
      let same := ∃ lo, o = .line lo ∧ lo / 64 = lt / 64
      (out → refused .unavailable) ∧
      (¬ out → busy → refused .lineBusy) ∧
      (¬ out → ¬ busy → same → refused .unavailable) ∧
      (¬ out → ¬ busy → ¬ same → avail (.fl n) s.part = false →
        e.allow = false ∨ (∃ j, o = .junction j) ∨
          (∃ lo, o = .line lo ∧ linePlane (lo / 64) (lt / 64) (cord / 8) s.part = none) →
        refused .congested) ∧
      (¬ out → ¬ busy → ¬ same → avail (.fl n) s.part = true →
        ∃ t, exec .arbiterGrant s = .next t ∧ t.pending = s.pending ∧ replied .done t.part ∧
          call e.call t.part =
            { placed (3 + places) with
              set := { r.set with ring := true, tfl := some n }, term := some (.line lt)
              xps := setXp (.line lt n) .operating (setXp (.plane n cord .t) .operating r.xps) } ∧
          (∀ x, x ≠ e.call → call x t.part = call x s.part) ∧
          t.part.orders = s.part.orders ++
            [{ id := s.part.serial, call := e.call, act := .operate (.plane n cord .t) },
              { id := s.part.serial + 1, call := e.call, act := .operate (.line lt n) },
              { id := s.part.serial + 2, call := e.call, act := .ringOn cord }] ∧
          elem (.fl n) t.part = { elem (.fl n) s.part with occ := .reserved } ∧
          (∀ f, f ≠ .fl n → elem f t.part = elem f s.part) ∧
          line lt t.part = { l with sup := .inCall e.call } ∧
          (∀ x, x ≠ lt → line x t.part = line x s.part) ∧
          point (2144 + cord) t.part = { point lt s.part with pulses := 0, pending := none } ∧
          point (2048 + cord) t.part = oEnd ∧ point own t.part = unarmed own ∧ point lt t.part = unarmed lt ∧
          (∀ p, p ≠ 2048 + cord → p ≠ 2144 + cord → p ≠ own → p ≠ lt → point p t.part = point p s.part) ∧
          t.part = { s.part with
            arb := t.part.arb, calls := t.part.calls, scan.points := t.part.scan.points
            net.fls := t.part.net.fls, net.lines := t.part.net.lines, orders := t.part.orders
            serial := s.part.serial + 3, a := t.part.a, b := t.part.b }) ∧
      (∀ lo n0 k x, ¬ out → ¬ busy → ¬ same → avail (.fl n) s.part = false → e.allow = true →
        movable lo n0 x → linePlane (lo / 64) (lt / 64) (cord / 8) s.part = some (k, x) →
        let n2 := 12 * (lt / 64) + k
        ∃ t, exec .arbiterGrant s = .next t ∧ t.pending = s.pending ∧ replied .done t.part ∧
          call e.call t.part = moved lo n0 k x (.line lt) (some n2) none ∧ moving lo n0 k x t.part ∧
          elem (.fl n2) t.part = { elem (.fl n2) s.part with occ := .reserved } ∧
          (∀ y, y ≠ n0 → y ≠ 12 * (lo / 64) + k → y ≠ n2 → elem (.fl y) t.part = elem (.fl y) s.part) ∧
          line lt t.part = { l with sup := .inCall e.call } ∧
          (∀ y, y ≠ lt → line y t.part = line y s.part) ∧
          point (2144 + x) t.part = { point lt s.part with pulses := 0, pending := none } ∧
          point lt t.part = unarmed lt ∧
          (∀ p, p ≠ lo → p ≠ 2048 + cord → p ≠ 2048 + x → p ≠ 2144 + x → p ≠ 2240 + x → p ≠ lt →
            point p t.part = point p s.part) ∧
          t.part = { s.part with
            arb := t.part.arb, calls := t.part.calls, scan.points := t.part.scan.points
            net.fls := t.part.net.fls, net.cords := t.part.net.cords, net.lines := t.part.net.lines
            orders := t.part.orders, serial := s.part.serial + 2, a := t.part.a, b := t.part.b })) ∧
    (∀ rt, e.dest = .route rt →
      let hunted := hunt rt (route rt s.part).hunt (fun k => decide (k = cord / 8)) s.part
      let other := hunt rt (route rt s.part).hunt (fun k => decide (k ≠ cord / 8)) s.part
      (hunted = none →
        e.allow = false ∨ (∃ j, o = .junction j) ∨ other = none ∨
          (∃ lo j, o = .line lo ∧ other = some j ∧
            (lowestCord (j % 12) s.part = none ∨ avail (.fl (12 * (lo / 64) + j % 12)) s.part = false)) →
        refused .congested) ∧
      (∀ j, hunted = some j →
        ∃ t, exec .arbiterGrant s = .next t ∧ t.pending = s.pending ∧ replied .done t.part ∧
          call e.call t.part =
            { placed (1 + places) with
              set := { r.set with tjunction := some j }, term := some (.junction j)
              xps := setXp (.junctor j cord .t) .operating r.xps } ∧
          (∀ x, x ≠ e.call → call x t.part = call x s.part) ∧
          t.part.orders = s.part.orders ++
            [{ id := s.part.serial, call := e.call, act := .operate (.junctor j cord .t) }] ∧
          junction j t.part =
            { junction j s.part with elem := { (junction j s.part).elem with occ := .reserved } } ∧
          (∀ x, x ≠ j → junction x t.part = junction x s.part) ∧
          route rt t.part = { route rt s.part with hunt := (j + 1) % 48 } ∧
          (∀ x, x ≠ rt → route x t.part = route x s.part) ∧
          point (2048 + cord) t.part = oEnd ∧ point (2144 + cord) t.part = unarmed (2144 + cord) ∧
          point own t.part = unarmed own ∧ point (2336 + j) t.part = unarmed (2336 + j) ∧
          (∀ p, p ≠ 2048 + cord → p ≠ 2144 + cord → p ≠ own → p ≠ 2336 + j → point p t.part = point p s.part) ∧
          t.part = { s.part with
            arb := t.part.arb, calls := t.part.calls, scan.points := t.part.scan.points
            net.junctions := t.part.net.junctions, net.routes := t.part.net.routes, orders := t.part.orders
            serial := s.part.serial + 1, a := t.part.a, b := t.part.b }) ∧
      (∀ lo n0 j x, hunted = none → e.allow = true → movable lo n0 x → other = some j →
        lowestCord (j % 12) s.part = some x → avail (.fl (12 * (lo / 64) + j % 12)) s.part = true →
        ∃ t, exec .arbiterGrant s = .next t ∧ t.pending = s.pending ∧ replied .done t.part ∧
          call e.call t.part = moved lo n0 (j % 12) x (.junction j) none (some j) ∧
          moving lo n0 (j % 12) x t.part ∧
          (∀ y, y ≠ n0 → y ≠ 12 * (lo / 64) + j % 12 → elem (.fl y) t.part = elem (.fl y) s.part) ∧
          junction j t.part =
            { junction j s.part with elem := { (junction j s.part).elem with occ := .reserved } } ∧
          (∀ y, y ≠ j → junction y t.part = junction y s.part) ∧
          route rt t.part = { route rt s.part with hunt := (j + 1) % 48 } ∧
          (∀ y, y ≠ rt → route y t.part = route y s.part) ∧
          point (2144 + x) t.part = {} ∧ point (2336 + j) t.part = unarmed (2336 + j) ∧
          (∀ p, p ≠ lo → p ≠ 2048 + cord → p ≠ 2048 + x → p ≠ 2144 + x → p ≠ 2240 + x → p ≠ 2336 + j →
            point p t.part = point p s.part) ∧
          t.part = { s.part with
            arb := t.part.arb, calls := t.part.calls, scan.points := t.part.scan.points
            net.fls := t.part.net.fls, net.cords := t.part.net.cords
            net.junctions := t.part.net.junctions, net.routes := t.part.net.routes
            orders := t.part.orders, serial := s.part.serial + 2, a := t.part.a, b := t.part.b }))) ∧
  (∀ (s : Part) (f1 f2 k : Nat), k < 12 →
    let reached := fun p c =>
      avail (.fl (12 * f1 + p)) s = true ∧ avail (.fl (12 * f2 + p)) s = true ∧ c / 8 = p ∧
        avail (.cord c) s = true
    (∀ p c, linePlane f1 f2 k s = some (p, c) →
      p < 12 ∧ p ≠ k ∧ reached p c ∧ (∀ d, d < c → ¬ reached p d) ∧
        ∀ q d, q < 12 → q ≠ k → (q + 12 - k) % 12 < (p + 12 - k) % 12 → ¬ reached q d) ∧
    (linePlane f1 f2 k s = none → ∀ q d, q < 12 → q ≠ k → ¬ reached q d)) ∧
  ∀ (s : Part) (rt start : Nat) (onPlane : Nat → Bool), start < 48 →
    let fits := fun j =>
      avail (.junction j) s = true ∧ (junction j s).route = some rt ∧ (junction j s).dir ≠ .incoming ∧
        onPlane (j % 12) = true
    (∀ j, hunt rt start onPlane s = some j →
      j < 48 ∧ fits j ∧ ∀ i, i < 48 → (i + 48 - start) % 48 < (j + 48 - start) % 48 → ¬ fits i) ∧
    (hunt rt start onPlane s = none → ∀ i, i < 48 → ¬ fits i)

/-- The checks of reception (R170), for every request of every port: BUSY while a battery reset is decided or a
request is in flight, NOT READY to a controller in LOADING, each an immediate reply, discarded while one waits;
nothing else changes but the sign of life (R182): a frame in LOADING is none, and one of a PRESENT controller
restarts its window. -/
def Obligations.ReceptionChecks : Prop :=
  ∀ (s : State) (i : Instr) (p : Port) (tag : Byte) (rest : List Byte),
    requestFrame i = some (p, tag :: rest) → i.wf = true →
    let q := match p with
      | .ctl c => signOfLife c s.part
      | .maint => s.part
    let busy := q.supply.decided = true ∨
      match p with
      | .ctl c => (ctl c q).extend ≠ none
      | .maint => q.m.restart ≠ none
    let notReady := q.supply.inService = false ∧ p ≠ .maint
    let waits := ∃ r, r ∈ (io p q).replies ∧ r.immediate = true
    (busy ∨ notReady → waits → Makes i s q) ∧
    (busy → ¬ waits → Replies i s p { tag := tag, code := .busy, immediate := true } q) ∧
    (¬ busy → notReady → ¬ waits → Replies i s p { tag := tag, code := .notReady, immediate := true } q) ∧
    ∀ c, p = .ctl c →
      (s.part.supply.inService = false → q = s.part) ∧
      (s.part.supply.inService = true → (ctl c s.part).present = true → (ctl c s.part).window < 20 →
        q = alive c s.part)

/-- A frame that is not well-formed (R170): without a byte it is discarded, otherwise it is answered FORMAT at
once, unless an immediate reply waits; it is no sign of life, and nothing else changes. -/
def Obligations.MalformedFrames : Prop :=
  ∀ (s : State) (p : Port) (tag : Byte) (rest : List Byte),
    Makes (.malformedFrame p []) s s.part ∧
    (wellFormedFrame p (tag :: rest) = false →
      ((∃ r, r ∈ (io p s.part).replies ∧ r.immediate = true) →
        Makes (.malformedFrame p (tag :: rest)) s s.part) ∧
      ((∀ r, r ∈ (io p s.part).replies → r.immediate = false) →
        Replies (.malformedFrame p (tag :: rest)) s p
          { tag := tag, code := .format, immediate := true } s.part))

/-! ## The ports' outbound side (R169, R179, R181, R102) -/

/-- OUTBOUND_FRAME_END with nothing held (R169): the oldest waiting reply is sent next, else the notice at the
head of the queue, which leaves its queue, else nothing. With no frame being sent nothing happens (log entry
17). -/
def Obligations.NextFrameIsChosen : Prop :=
  ∀ (s : State) (p : Port),
    (match p with
      | .ctl c => (ctl c s.part).peer = none ∧ nextHeld c s.part = none
      | .maint => s.part.m.held = [] ∧ nextOwnerless s.part = none) →
    ((io p s.part).sending = none → Makes (.outboundFrameEnd p) s s.part) ∧
    ((io p s.part).sending ≠ none →
      (∀ r rs, (io p s.part).replies = r :: rs →
        Makes (.outboundFrameEnd p) s
          (modIo p (fun x => { x with sending := some (.reply r), replies := rs }) s.part)) ∧
      ((io p s.part).replies = [] →
        (∀ n ns, (io p s.part).queue = n :: ns →
          Makes (.outboundFrameEnd p) s
            (modIo p (fun x => { x with sending := some (.notice n), queue := ns }) s.part)) ∧
        ((io p s.part).queue = [] →
          Makes (.outboundFrameEnd p) s (modIo p (fun x => { x with sending := none }) s.part))))

/-- PENDING_NOTICE_ENTRY (R179, R102): nothing enters a full queue. Where there is room, the peer item enters first and is
emptied; then the records, each in kind order, from the one after the rotating pointer; a record whose CLEARED enters
becomes FREE. OUTBOUND_FRAME_END on a full queue: its head begins to be sent, and the notice first in that order enters
in its place. The model takes a notice that has room in the event that makes the room (log entry 4), so that in its
runs the last of these is the one that occurs. A notice raised for an ownerless record, or with the owner's queue full, is
set pending: the set holds at most one of a kind, the latest, and rises in the kind order of R178. The data of DIGIT,
DEPOSIT DUE and CLEARED are read from the record as it enters (R177), laid out as section 10.4 gives them; those of every
other kind were fixed when it was raised. -/
def Obligations.PendingNoticesEnter : Prop :=
  ∀ (s : State) (c : Ctl),
    (64 ≤ (ctl c s.part).io.queue.length → Makes (.pendingNoticeEntry c) s s.part) ∧
    (∀ b, (ctl c s.part).io.queue.length < 64 → s.part.calls = [] → (ctl c s.part).peer = some b →
      ∃ t, exec (.pendingNoticeEntry c) s = .next t ∧ t.pending = s.pending ∧
        noticesDue (.ctl c) t.part = noticesDue (.ctl c) s.part ++ [.peer b] ∧
        (ctl c t.part).peer = none ∧
        t.part = modCtl c (fun x => { x with io := (ctl c t.part).io, peer := none }) s.part) ∧
    (∀ id r k d, (ctl c s.part).io.queue.length < 64 → (ctl c s.part).peer = none →
      s.part.calls = [(id, r)] → r.owner = some c → r.pend = [(k, d)] →
      ∃ t, exec (.pendingNoticeEntry c) s = .next t ∧ t.pending = s.pending ∧
        noticesDue (.ctl c) t.part =
          noticesDue (.ctl c) s.part ++ [.call k id (noticeData id k d s.part)] ∧
        call id t.part = (if k = .cleared then {} else { r with pend := [] }) ∧
        (ctl c t.part).pointer = id ∧
        t.part = { modCtl c (fun x => { x with io := (ctl c t.part).io, pointer := id }) s.part with
          calls := t.part.calls, orig.request := t.part.orig.request }) ∧
    (∀ b id r k d, (ctl c s.part).io.queue.length < 63 → (ctl c s.part).peer = some b →
      s.part.calls = [(id, r)] → r.owner = some c → r.pend = [(k, d)] →
      ∃ t, exec (.pendingNoticeEntry c) s = .next t ∧ t.pending = s.pending ∧
        noticesDue (.ctl c) t.part =
          noticesDue (.ctl c) s.part ++ [.peer b, .call k id (noticeData id k d s.part)] ∧
        (ctl c t.part).peer = none) ∧
    (∀ i j r w k d l f, (ctl c s.part).io.queue.length < 63 → (ctl c s.part).peer = none → i < j →
      s.part.calls = [(i, r), (j, w)] → r.owner = some c → w.owner = some c → r.pend = [(k, d)] →
      w.pend = [(l, f)] →
      ∃ t, exec (.pendingNoticeEntry c) s = .next t ∧ t.pending = s.pending ∧
        noticesDue (.ctl c) t.part =
          noticesDue (.ctl c) s.part ++
            (if i ≤ (ctl c s.part).pointer ∧ (ctl c s.part).pointer < j then
              [.call l j (noticeData j l f s.part), .call k i (noticeData i k d s.part)]
            else [.call k i (noticeData i k d s.part), .call l j (noticeData j l f s.part)])) ∧
    (∀ id r k d l f, (ctl c s.part).io.queue.length < 63 → (ctl c s.part).peer = none →
      s.part.calls = [(id, r)] → r.owner = some c → k.rank < l.rank → r.pend = [(k, d), (l, f)] →
      ∃ t, exec (.pendingNoticeEntry c) s = .next t ∧ t.pending = s.pending ∧
        noticesDue (.ctl c) t.part =
          noticesDue (.ctl c) s.part ++
            [.call k id (noticeData id k d s.part), .call l id (noticeData id l f s.part)]) ∧
    (∀ x n ns id r k d, (ctl c s.part).io.sending = some x → (ctl c s.part).io.replies = [] →
      (ctl c s.part).io.queue = n :: ns → ns.length = 63 → s.part.calls = [(id, r)] → r.owner = some c →
      r.pend = [(k, d)] →
      ∃ t, exec (.outboundFrameEnd (.ctl c)) s = .next t ∧ t.pending = s.pending ∧
        (ctl c t.part).io.sending = some (.notice n) ∧
        (∀ b, (ctl c s.part).peer = some b →
          (ctl c t.part).io.queue = ns ++ [.peer b] ∧ (ctl c t.part).peer = none ∧ call id t.part = r) ∧
        ((ctl c s.part).peer = none →
          (ctl c t.part).io.queue = ns ++ [.call k id (noticeData id k d s.part)] ∧
            call id t.part = (if k = .cleared then {} else { r with pend := [] }))) ∧
    (∀ id k d, (call id s.part).owner = none ∨
        (call id s.part).owner = some c ∧ 64 ≤ (ctl c s.part).io.queue.length →
      raiseCall id k d s.part =
        modCall id (fun r => { r with pend := setPending k d r.pend }) s.part) ∧
    (∀ k d (l : List (CallKind × List Byte)), l.Pairwise (fun x y => x.1.rank < y.1.rank) →
      (setPending k d l).Pairwise (fun x y => x.1.rank < y.1.rank) ∧
        ∀ x, x ∈ setPending k d l ↔ x = (k, d) ∨ x ∈ l ∧ x.1 ≠ k) ∧
    [CallKind.callTransferred, .originReady, .incomingReady, .setFailed, .ringing, .awaitingAnswer, .digit,
      .digitFault, .digitOverflow, .answered, .calledCleared, .ringFault, .depositDue, .cleared].map
        CallKind.rank = List.range 14 ∧
    (∀ id k fixed, k ≠ .digit → k ≠ .depositDue → k ≠ .cleared → noticeData id k fixed s.part = fixed) ∧
    (∀ id fixed pre x, (call id s.part).digits = pre ++ [x] →
      noticeData id .digit fixed s.part = [b8 id, b8 (pre.length + 1), b8 x]) ∧
    (∀ id fixed k g, (call id s.part).coin = some k → k.grace = some g →
      noticeData id .depositDue fixed s.part = [b8 id, b8 k.credit, b8 k.owed] ++ b16 (g.1 - g.2)) ∧
    (∀ id fixed o, (call id s.part).origin = some o →
      let r := call id s.part
      noticeData id .cleared fixed s.part =
        [b8 id] ++ (match o with | .line lt => [0] ++ b16 lt | .junction j => [1] ++ b16 j) ++
          [b8 (reasonCode r.reason)] ++ b16 r.units ++
          [(match r.band with | some b => b8 b | none => 255), flag r.degraded] ++
          b16 (match r.coin with | some k => k.deposits | none => 0) ++
          [b8 r.digits.length] ++ r.digits.map b8)

/-- MAINTENANCE_PENDING_ENTRY (R181): nothing enters a full queue; the entries of the pending set enter in its order, each
with its merged count; a CLEARED of an ownerless CLOSED record enters after them, and the record becomes FREE.
OUTBOUND_FRAME_END on a full queue: its head begins to be sent, and the notice first in that order enters in its place.
The model takes a notice that has room in the event that makes the room (log entry 4), so that in its runs the last of
these is the one that occurs. A maintenance notice that is raised (R180) enters at once, with a merged count of 0, where
the queue has room and none is held. With a full queue it joins the pending set at its tail, with a merged count of 0;
where an entry of its kind is held, that entry takes its data, its merged count rises by 1, up to 255, and it moves to
the tail. -/
def Obligations.MaintenanceNoticesEnter : Prop :=
  ∀ (s : State),
    (32 ≤ s.part.m.io.queue.length → Makes .maintenancePendingEntry s s.part) ∧
    (∀ k n d, s.part.m.io.queue.length < 32 → s.part.calls = [] → s.part.m.held = [(k, n, d)] →
      ∃ t, exec .maintenancePendingEntry s = .next t ∧ t.pending = s.pending ∧
        noticesDue .maint t.part = noticesDue .maint s.part ++ [.maint k n d] ∧
        t.part = { s.part with m := { s.part.m with io := t.part.m.io, held := [] } }) ∧
    (∀ id r d, s.part.m.io.queue.length < 32 → s.part.m.held = [] → s.part.calls = [(id, r)] →
      r.owner = none → r.state = .closed → r.pend = [(.cleared, d)] →
      ∃ t, exec .maintenancePendingEntry s = .next t ∧ t.pending = s.pending ∧
        noticesDue .maint t.part =
          noticesDue .maint s.part ++ [.call .cleared id (noticeData id .cleared d s.part)] ∧
        t.part = { s.part with
          calls := [], orig.request := t.part.orig.request
          m := { s.part.m with io := t.part.m.io, pointer := id } }) ∧
    (∀ k n d l i f, s.part.m.io.queue.length < 31 → s.part.calls = [] →
      s.part.m.held = [(k, n, d), (l, i, f)] →
      ∃ t, exec .maintenancePendingEntry s = .next t ∧ t.pending = s.pending ∧ t.part.m.held = [] ∧
        noticesDue .maint t.part = noticesDue .maint s.part ++ [.maint k n d, .maint l i f]) ∧
    (∀ k n d id r f, s.part.m.io.queue.length < 31 → s.part.m.held = [(k, n, d)] → s.part.calls = [(id, r)] →
      r.owner = none → r.state = .closed → r.pend = [(.cleared, f)] →
      ∃ t, exec .maintenancePendingEntry s = .next t ∧ t.pending = s.pending ∧ t.part.m.held = [] ∧
        t.part.calls = [] ∧
        noticesDue .maint t.part =
          noticesDue .maint s.part ++ [.maint k n d, .call .cleared id (noticeData id .cleared f s.part)]) ∧
    (∀ x n ns id r f, s.part.m.io.sending = some x → s.part.m.io.replies = [] → s.part.m.io.queue = n :: ns →
      ns.length = 31 → s.part.calls = [(id, r)] → r.owner = none → r.state = .closed → r.pend = [(.cleared, f)] →
      ∃ t, exec (.outboundFrameEnd .maint) s = .next t ∧ t.pending = s.pending ∧
        t.part.m.io.sending = some (.notice n) ∧
        (∀ k i d held, s.part.m.held = (k, i, d) :: held →
          t.part.m.io.queue = ns ++ [.maint k i d] ∧ t.part.m.held = held ∧ call id t.part = r) ∧
        (s.part.m.held = [] →
          t.part.m.io.queue = ns ++ [.call .cleared id (noticeData id .cleared f s.part)] ∧
            call id t.part = {})) ∧
    (∀ k d, MaintRoom s.part → Noticed k d s.part (raiseMaint k d s.part)) ∧
    (∀ k d, 32 ≤ s.part.m.io.queue.length →
      ((∀ x ∈ s.part.m.held, x.1 ≠ k) →
        raiseMaint k d s.part = { s.part with m.held := s.part.m.held ++ [(k, 0, d)] }) ∧
      (∀ pre n f post, s.part.m.held = pre ++ (k, n, f) :: post → (∀ x ∈ pre ++ post, x.1 ≠ k) →
        raiseMaint k d s.part = { s.part with m.held := pre ++ post ++ [(k, min (n + 1) 255, d)] })) ∧
    (∀ k d, s.part.m.io.queue.length < 32 → s.part.m.held ≠ [] → (∀ x ∈ s.part.m.held, x.1 ≠ k) →
      s.part.calls = [] → s.part.m.io.queue.length + s.part.m.held.length < 32 →
      noticesDue .maint (raiseMaint k d s.part) =
        noticesDue .maint s.part ++ s.part.m.held.map (fun x => .maint x.1 x.2.1 x.2.2) ++ [.maint k 0 d] ∧
        (raiseMaint k d s.part).m.held = [])

/-- PRESENCE_WINDOW_EXPIRY (R183): a PRESENT controller whose 20th tick has been taken becomes ABSENT, its EXTEND and
its peer item go, its peer hears PEER ABSENT, and CONTROLLER ABSENT is queued. Its record passes to a PRESENT peer with
CALL TRANSFERRED, or is without an owner (R104). A notice in its queue (R184) is set pending again in its record, a
CLEARED goes to the maintenance queue, or is counted as lost where that is full, and a peer notice is dropped. That a
notice set pending again keeps the data it carried in the queue is log entry 40. Before the 20th tick nothing happens
(log entry 17). The controller byte of CONTROLLER ABSENT is the model's (log entry 65). -/
def Obligations.PresenceWindowExpires : Prop :=
  ∀ (s : State) (c : Ctl),
    ((ctl c s.part).present = false ∨ (ctl c s.part).window < 20 →
      Makes (.presenceWindowExpiry c) s s.part) ∧
    ((ctl c s.part).present = true → 20 ≤ (ctl c s.part).window →
      let gone := { ctl c s.part with present := false, window := 0, extend := none, peer := none }
      let absent := Notice.maint (.controllerAbsent c) 0 [b8 (ctlIndex c)]
      (s.part.calls = [] →
        (ctl c s.part).io.queue = [] → MaintRoom s.part →
        ((ctl (otherCtl c) s.part).present = true → (ctl (otherCtl c) s.part).peer = none ∧
          (ctl (otherCtl c) s.part).io.queue.length < 64) →
        ∃ t, exec (.presenceWindowExpiry c) s = .next t ∧ t.pending = s.pending ∧
          ctl c t.part = gone ∧
          noticesDue .maint t.part = noticesDue .maint s.part ++ [absent] ∧
          noticesDue (.ctl (otherCtl c)) t.part =
            noticesDue (.ctl (otherCtl c)) s.part ++
              (if (ctl (otherCtl c) s.part).present then [.peer false] else []) ∧
          t.part = { s.part with
            a := t.part.a, b := t.part.b, m.io := t.part.m.io, orig.request := t.part.orig.request }) ∧
      (∀ id r, s.part.calls = [(id, r)] → r.active = true → r.owner = some c → r.pend = [] → MaintRoom s.part →
        ((ctl c s.part).io.queue = [] → (ctl (otherCtl c) s.part).present = true →
          (ctl (otherCtl c) s.part).peer = none → (ctl (otherCtl c) s.part).io.queue.length < 63 →
          ∃ t, exec (.presenceWindowExpiry c) s = .next t ∧ t.pending = s.pending ∧ ctl c t.part = gone ∧
            call id t.part = { r with owner := some (otherCtl c) } ∧
            (∀ x, x ≠ id → call x t.part = call x s.part) ∧
            noticesDue .maint t.part = noticesDue .maint s.part ++ [absent] ∧
            noticesDue (.ctl (otherCtl c)) t.part =
              noticesDue (.ctl (otherCtl c)) s.part ++
                [.call .callTransferred id (callSummary id t.part), .peer false] ∧
            t.part = { s.part with
              calls := t.part.calls, a := t.part.a, b := t.part.b, m.io := t.part.m.io
              orig.request := t.part.orig.request }) ∧
        ((ctl (otherCtl c) s.part).present = false →
          (∀ b, (ctl c s.part).io.queue = [] ∨ (ctl c s.part).io.queue = [.peer b] →
            ∃ t, exec (.presenceWindowExpiry c) s = .next t ∧ t.pending = s.pending ∧
              ctl c t.part = { gone with io.queue := [] } ∧ call id t.part = { r with owner := none } ∧
              noticesDue .maint t.part = noticesDue .maint s.part ++ [absent]) ∧
          (∀ k d, k ≠ .cleared → (ctl c s.part).io.queue = [.call k id d] →
            ∃ t, exec (.presenceWindowExpiry c) s = .next t ∧ t.pending = s.pending ∧
              ctl c t.part = { gone with io.queue := [] } ∧
              call id t.part = { r with owner := none, pend := [(k, d)] } ∧
              noticesDue .maint t.part = noticesDue .maint s.part ++ [absent]))) ∧
      (∀ id d, s.part.calls = [] → (ctl c s.part).io.queue = [.call .cleared id d] →
        (ctl (otherCtl c) s.part).present = false → s.part.m.held = [] →
        (s.part.m.io.queue.length < 31 →
          ∃ t, exec (.presenceWindowExpiry c) s = .next t ∧ t.pending = s.pending ∧
            ctl c t.part = { gone with io.queue := [] } ∧ t.part.m.lost = s.part.m.lost ∧
            noticesDue .maint t.part = noticesDue .maint s.part ++ [.call .cleared id d, absent]) ∧
        (32 ≤ s.part.m.io.queue.length →
          ∃ t, exec (.presenceWindowExpiry c) s = .next t ∧ t.pending = s.pending ∧
            ctl c t.part = { gone with io.queue := [] } ∧
            t.part.m =
              { s.part.m with
                lost := min (s.part.m.lost + 1) 65535
                held := [(.controllerAbsent c, 0, [b8 (ctlIndex c)])] })))

/-! ## The Supply Monitor and start-up (R186, R188, R189) -/

/-- A battery sample (R186): the new state and ride-through count of the table, the sample kept, and the reset
decided at the fifth sample below HOLD; none is taken once a reset is decided (R188). A sample that leaves NORMAL
queues BATTERY LOW with the sample, and an IDLE engine outside a save starts the write of the first line of the dirty
list at once (R146); one that returns to NORMAL queues BATTERY NORMAL. The return from RIDE-THROUGH ends the freeze
(R40): every candidate run is 0, and a call in DIALLING with pulses counted loses them with DIGIT FAULT. -/
def Obligations.BatterySample : Prop :=
  ∀ (s : State) (v : Nat),
    (s.part.supply.decided = true → Makes (.batterySample v) s s.part) ∧
    (s.part.supply.decided = false →
      ∃ t, exec (.batterySample v) s = .next t ∧ t.pending = s.pending ∧
        t.part.supply = { s.part.supply with
          sample := v
          battery :=
            match s.part.supply.battery with
            | .normal => if 450 ≤ v then .normal else if 420 ≤ v then .low else .rideThrough
            | .low => if 461 ≤ v then .normal else if 420 ≤ v then .low else .rideThrough
            | .rideThrough => if 420 ≤ v then .low else .rideThrough
          ride :=
            if 420 ≤ v then 0
            else if s.part.supply.battery = .rideThrough then s.part.supply.ride + 1 else 1
          decided :=
            decide (s.part.supply.battery = .rideThrough ∧ v < 420 ∧ 5 ≤ s.part.supply.ride + 1) } ∧
        ((s.part.supply.battery = .normal ∧ 450 ≤ v) ∨ (s.part.supply.battery = .low ∧ v < 461) ∨
            (s.part.supply.battery = .rideThrough ∧ v < 420) →
          t.part = { s.part with supply := t.part.supply }) ∧
        (s.part.supply.battery = .normal → v < 450 → s.part.meters.save = none → MaintRoom s.part →
          noticesDue .maint t.part = noticesDue .maint s.part ++ [.maint .batteryLow 0 (b16 v)] ∧
          t.part = { s.part with
            supply := t.part.supply, m.io := t.part.m.io
            meters :=
              match s.part.meters.engine, s.part.meters.dirty with
              | .idle, lt :: rest =>
                { s.part.meters with
                  dirty := rest
                  engine := .meter lt
                    { count := (meter lt s.part).count, rollover := (meter lt s.part).rollover } false }
              | _, _ => s.part.meters }) ∧
        (s.part.supply.battery = .low → 461 ≤ v → MaintRoom s.part →
          noticesDue .maint t.part = noticesDue .maint s.part ++ [.maint .batteryNormal 0 (b16 v)] ∧
          t.part = { s.part with supply := t.part.supply, m.io := t.part.m.io }) ∧
        (s.part.supply.battery = .rideThrough → 420 ≤ v → TablesOk s.part →
          ((∀ p, (point p s.part).pending = none) → (∀ id, (call id s.part).state ≠ .dialling) →
            (∀ p, point p t.part = { point p s.part with run := 0 }) ∧
            t.part = { s.part with supply := t.part.supply, scan.points := t.part.scan.points }) ∧
          (∀ id r cord c, s.part.calls = [(id, r)] → r.state = .dialling → r.relPending = false →
            r.set.cord = some cord → cord < 96 → r.owner = some c → r.pend = [] →
            (io (.ctl c) s.part).queue.length < 64 → (point (2048 + cord) s.part).accepted = .loop →
            1 ≤ (point (2048 + cord) s.part).pulses → (point (2048 + cord) s.part).duration < 25 →
            (∀ p, p ≠ 2048 + cord → (point p s.part).pending = none) →
            ((point (2048 + cord) s.part).pending = some .digitEnd) →
            call id t.part =
              { r with
                timer := some
                  { kind := .interdigit
                    limit := 10 *
                      (match s.part.cal.profile with
                        | .normal => s.part.timers.interNormal
                        | .heavy => s.part.timers.interHeavy) } } ∧
            noticesDue (.ctl c) t.part =
              noticesDue (.ctl c) s.part ++ [.call .digitFault id [b8 id]] ∧
            point (2048 + cord) t.part =
              { point (2048 + cord) s.part with run := 0, pulses := 0, pending := none } ∧
            (∀ p, p ≠ 2048 + cord → point p t.part = { point p s.part with run := 0 }) ∧
            t.part = { s.part with
              supply := t.part.supply, scan.points := t.part.scan.points, calls := t.part.calls
              a := t.part.a, b := t.part.b })))

/-- A start-up that stays LOADING (R189, R152): POWER_ON, and BATTERY_RESET once it is decided and no write is
in progress. All is as after reset but the nonvolatile meter records and image, which are kept, and each meter
entry, which is loaded from its record. The model's counters go on (log entries 13 and 15), and a BATTERY_RESET
that is not called for does nothing (log entry 17). -/
def Obligations.StartUpToLoading : Prop :=
  ∀ (s : State) (mode : ModeInput),
    (s.part.supply.decided = false ∨ s.part.meters.engine ≠ .idle →
      Makes (.batteryReset mode) s s.part) ∧
    (mode = .manual ∨ s.part.meters.image.marker = false → s.part.meters.engine = .idle →
      ∀ (i : Instr) (cause : Cause),
        (i = .powerOn mode ∧ cause = .powerOn) ∨
          (i = .batteryReset mode ∧ cause = .battery ∧ s.part.supply.decided = true) →
        ∃ t, exec i s = .next t ∧ t.pending = s.pending ∧
          t.part =
            { supply := { cause := cause, mode := mode }
              meters := { records := s.part.meters.records, image := s.part.meters.image
                          entries := t.part.meters.entries }
              serial := s.part.serial, fresh := s.part.fresh } ∧
          ∀ lt, meter lt t.part =
            { count := (Table.get {} s.part.meters.records lt).count
              rollover := (Table.get {} s.part.meters.records lt).rollover })

/-- A start-up with AUTOLOAD and the validity marker set (R189, R17, R107, R122, R167): every configuration record
is loaded into its table and the part is IN SERVICE, with both controllers ABSENT; each meter entry is loaded from its
record (R152). The model's counters go on (log entries 13 and 15). -/
def Obligations.StartUpFromTheImage : Prop :=
  ∀ (s : State), s.part.meters.image.marker = true → s.part.meters.engine = .idle →
    ∀ (i : Instr) (cause : Cause),
      (i = .powerOn .autoload ∧ cause = .powerOn) ∨
        (i = .batteryReset .autoload ∧ cause = .battery ∧ s.part.supply.decided = true) →
      ∃ t, exec i s = .next t ∧ t.pending = s.pending ∧
        t.part =
          { supply := { inService := true, cause := cause, mode := .autoload }
            net :=
              { lines := s.part.meters.image.lines, frames := s.part.meters.image.frames
                routes := s.part.meters.image.routes, junctions := s.part.meters.image.junctions
                fls := s.part.meters.image.fls, cords := s.part.meters.image.cords }
            timers := s.part.meters.image.timers
            charge := { tariff := s.part.meters.image.tariff, incs := t.part.charge.incs }
            cal := { entries := s.part.meters.image.entries }
            tb := { preferred := s.part.meters.image.preferred }
            meters := { records := s.part.meters.records, image := s.part.meters.image
                        entries := t.part.meters.entries }
            serial := s.part.serial, fresh := s.part.fresh } ∧
        (∀ lt, meter lt t.part =
          { count := (Table.get {} s.part.meters.records lt).count
            rollover := (Table.get {} s.part.meters.records lt).rollover }) ∧
        ∀ b, b < 16 → t.part.charge.incs[b]? =
          some (increment (Table.get {} s.part.meters.image.tariff (4 * b)).unitPeriod)

/-! ## The Line Scanner (R19 to R22, R26, R29, R39) -/

/-- SCAN (R19, R21, R22, R39). A scan instant during a freeze: the run duration of every point that would have been
updated grows by 1, up to 1023, and nothing else changes. A steady scan, where every updated point shows its
accepted state and no event is pending: each updated point's candidate run becomes 0 and its run duration
grows by 1, up to 1023; nothing else changes. Any scan outside a freeze with no event due before it: the points are
processed in ascending order (R19), one sample each where the entry is updated and no hand-over has counted the scan for
it (R24). A scan that accepts a seizure (R26) at one line, and finds every other point steady: the line is ORIGINATING
and marked, and the server tests for its request (R47). A scan that brings the OPEN of a PARKED line to its 25th scan
(R22, R28), and finds every other point steady: PARK END is taken and the line is IDLE, unless the event is left to its
own command; one left so by an earlier scan is taken before the points are sampled (log entry 9). -/
def Obligations.Scan : Prop :=
  (∀ (s : State) (inputs : ScanInputs) (later : List Nat), s.part.supply.battery = .rideThrough →
      TablesOk s.part →
      ∃ t, exec (.scan inputs later) s = .next t ∧ t.pending = s.pending ∧
        t.part = { s.part with scan.points := t.part.scan.points } ∧
        ∀ p, point p t.part =
          { point p s.part with
            duration :=
              if p < 2384 ∧ updated p s.part = true ∧ (point p s.part).duration < 1023 then
                (point p s.part).duration + 1
              else (point p s.part).duration }) ∧
  (∀ (s : State) (inputs : ScanInputs) (later : List Nat), s.part.supply.battery ≠ .rideThrough →
    (∀ p, p < 2384 → eventDue p s.part = none) →
    let sampled := (List.range 2384).foldl
      (fun q p =>
        let q := { q with scan.pos := some p }
        if updated p q = true ∧ p ∉ q.scan.skip then samplePoint later p (inputs.getLsbD p) q else q)
      s.part
    Makes (.scan inputs later) s { sampled with scan.pos := none, scan.skip := [] }) ∧
  ∀ (s : State) (inputs : ScanInputs) (later : List Nat), s.part.supply.battery ≠ .rideThrough →
    TablesOk s.part → s.part.scan.skip = [] →
    let after := fun p =>
      if p < 2384 ∧ updated p s.part = true then (point p s.part).counted else point p s.part
    ((∀ p, p < 2384 → SteadyAt inputs p s.part) →
      ∃ t, exec (.scan inputs later) s = .next t ∧ t.pending = s.pending ∧
        t.part = { s.part with scan := { points := t.part.scan.points, pos := none, skip := [] } } ∧
        ∀ p, point p t.part = after p) ∧
    ∀ lt, lt < 2048 → (line lt s.part).cls ≠ .unequipped → (line lt s.part).admin ≠ .busyOut →
      (point lt s.part).accepted = .open_ → (∀ p, p < 2384 → p ≠ lt → SteadyAt inputs p s.part) →
      ((line lt s.part).sup = .idle → (point lt s.part).pending = none → inputs.getLsbD lt = true →
        let run := (point lt s.part).run + 1
        (frame (lt / 64) s.part).seize ≤ run → run ≤ 15 →
        ∃ t, exec (.scan inputs later) s = .next t ∧ t.pending = s.pending ∧
          line lt t.part = { line lt s.part with sup := .originating, marked := true } ∧
          (∀ x, x ≠ lt → line x t.part = line x s.part) ∧
          point lt t.part =
            { point lt s.part with accepted := .loop, candidate := .open_, run := 0, duration := run } ∧
          (∀ p, p ≠ lt → point p t.part = after p) ∧
          t.part = { s.part with
            net.lines := t.part.net.lines
            scan := { points := t.part.scan.points, pos := none, skip := [] }
            orig.request := (chooseWork t.part).map (Work.worst t.part) }) ∧
      ((line lt s.part).sup = .parked → (point lt s.part).pending = some .parkEnd → inputs.getLsbD lt = false →
        let d := (point lt s.part).duration
        24 ≤ d →
        ∃ t, exec (.scan inputs later) s = .next t ∧ t.pending = s.pending ∧
          (d = 24 ∧ lt ∈ later → line lt t.part = line lt s.part ∧
            point lt t.part = { point lt s.part with run := 0, duration := 25 }) ∧
          (d = 24 ∧ lt ∉ later ∨ 25 ≤ d → line lt t.part = { line lt s.part with sup := .idle } ∧
            point lt t.part = { (point lt s.part).counted with pending := none }) ∧
          (∀ x, x ≠ lt → line x t.part = line x s.part) ∧ (∀ p, p ≠ lt → point p t.part = after p) ∧
          t.part = { s.part with
            net.lines := t.part.net.lines
            scan := { points := t.part.scan.points, pos := none, skip := [] } })

/-- One sample of an idle line that shows LOOP (R21, R26, R13): below the frame's seize persistence the candidate
run grows; at it the LOOP is accepted, and the line is ORIGINATING and marked. One sample of an idle INCOMING or BOTHWAY
junction that shows LOOP (R21, R34, R54, R55): after 6 scans the LOOP is accepted. A FREE junction is then ORIGINATING
and marked; a RESERVED BOTHWAY one meets a glare, which HOLD leaves to the outgoing call, and which YIELD takes from a
call whose junctor order is DISPATCHED, the order's outcome being awaited with a re-hunt entry added. A junction that
becomes FREE while IDLE with LOOP accepted is taken as a seizure then (R56), on the pending direction if it has one (log
entry 48), and in RIDE-THROUGH too, where R39 classifies no seizure (log entry 51). -/
def Obligations.SeizureOfALine : Prop :=
  ∀ (s : Part), TablesOk s →
    (∀ lt, lt < 2048 → (line lt s).cls ≠ .unequipped →
    (line lt s).admin ≠ .busyOut → (line lt s).sup = .idle → (point lt s).accepted = .open_ →
    (point lt s).pending = none → (frame (lt / 64) s).seize ≤ 15 →
    let run := (point lt s).run + 1
    (run < (frame (lt / 64) s).seize →
      samplePoint [] lt true s =
        modPoint lt
          (fun e => { e with
            candidate := .loop, run := run
            duration := if e.duration < 1023 then e.duration + 1 else e.duration }) s) ∧
    ((frame (lt / 64) s).seize ≤ run → run ≤ 15 →
      let t := samplePoint [] lt true s
      line lt t = { line lt s with sup := .originating, marked := true } ∧
      point lt t = { point lt s with
        accepted := .loop, candidate := .open_, run := 0, duration := run, pending := none } ∧
      (∀ x, x ≠ lt → line x t = line x s ∧ point x t = point x s) ∧
      t = { s with
        net.lines := t.net.lines, scan.points := t.scan.points, orig.request := t.orig.request })) ∧
    (∀ j, j < 48 → (junction j s).sup = .idle → (junction j s).elem.admin ≠ .busyOut →
      (point (2336 + j) s).accepted = .open_ → (point (2336 + j) s).pending = none →
      let run := (point (2336 + j) s).run + 1
      let t := samplePoint [] (2336 + j) true s
      let accepted := { point (2336 + j) s with
        accepted := .loop, candidate := .open_, run := 0, duration := run, pending := none }
      ((junction j s).dir ≠ .outgoing → (junction j s).elem.occ = .free →
        (run < 6 → t = modPoint (2336 + j)
          (fun e => { e with
            candidate := .loop, run := run
            duration := if e.duration < 1023 then e.duration + 1 else e.duration }) s) ∧
        (6 ≤ run → run ≤ 15 →
          junction j t = { junction j s with sup := .originating, marked := true } ∧
          point (2336 + j) t = accepted ∧ (∀ x, x ≠ j → junction x t = junction x s) ∧
          (∀ p, p ≠ 2336 + j → point p t = point p s) ∧
          t = { s with
            net.junctions := t.net.junctions, scan.points := t.scan.points
            orig.request := t.orig.request })) ∧
      ((junction j s).dir = .bothway → (junction j s).elem.occ = .reserved → 6 ≤ run → run ≤ 15 →
        ((junction j s).glare = .hold →
          junction j t = junction j s ∧ point (2336 + j) t = accepted ∧
            (∀ p, p ≠ 2336 + j → point p t = point p s) ∧ t = { s with scan.points := t.scan.points }) ∧
        (∀ id o r, (junction j s).glare = .yield → callOfElem (.junction j) s = some id →
          (call id s).new.tjunction ≠ some j → (call id s).dest = some (.route r) →
          (call id s).relPending = false → s.orig.rehunts.any (fun x => decide (x.call = id)) = false →
          junctorOrder id j s = some o → isDispatched o s = true →
          junction j t = junction j s ∧ point (2336 + j) t = accepted ∧
            call id t = { call id s with op := .yielding, yielded := true } ∧
            (∀ x, x ≠ id → call x t = call x s) ∧
            t.orig.rehunts = s.orig.rehunts ++ [{ call := id, route := r, junction := j, made := false }] ∧
            t = { s with
              calls := t.calls, scan.points := t.scan.points
              orig.rehunts := t.orig.rehunts, orig.request := t.orig.request }))) ∧
    (∀ j, j < 48 → (junction j s).sup = .idle → (junction j s).elem.admin = .inService →
      (junction j s).pendDir.getD (junction j s).dir ≠ .outgoing → (point (2336 + j) s).accepted = .loop →
      let r := junction j s
      junction j (becomeFree (.junction j) s) =
        { r with
          route := match r.pendRoute with | some x => some x | none => r.route
          dir := r.pendDir.getD r.dir, pendRoute := none, pendDir := none
          elem := { occ := .free, admin := .inService }, sup := .originating, marked := true })

/-- DIGIT_END (R30, R91): a pulse count of 1 to 9 gives that digit and 10 gives 0; it joins the digit list, DIGIT is
queued for the owner. A count of 11 gives DIGIT FAULT instead, and a 25th digit is discarded with DIGIT OVERFLOW. In
each case the INTERDIGIT timer starts under the profile in force, and the pulse count is 0. The sample that ends a
break of b scans on a dialling call's O point (R29): a break under 20 is a pulse, counted up to 11; one of 20 to 49
is mutilated, and drops the count with DIGIT FAULT; a longer one drops the count. -/
def Obligations.DigitEnd : Prop :=
  (∀ (s : State) (cord id : Nat) (c : Ctl), cord < 96 → TablesOk s.part →
    s.part.supply.battery ≠ .rideThrough → callOfElem (.cord cord) s.part = some id →
    (call id s.part).set.cord = some cord → (call id s.part).state = .dialling →
    (call id s.part).relPending = false → (call id s.part).lineSpeaks = false →
    (call id s.part).owner = some c →
    (call id s.part).pend = [] → (io (.ctl c) s.part).queue.length < 64 →
    (point (2048 + cord) s.part).accepted = .loop →
    (point (2048 + cord) s.part).pending = some .digitEnd → 25 ≤ (point (2048 + cord) s.part).duration →
    1 ≤ (point (2048 + cord) s.part).pulses →
    let pulses := (point (2048 + cord) s.part).pulses
    let held := (call id s.part).digits
    let digit := pulses % 10
    let taken := pulses ≤ 10 ∧ held.length < 24
    ∃ t, exec (.digitEnd cord) s = .next t ∧ t.pending = s.pending ∧
      call id t.part =
        { call id s.part with
          digits := if taken then held ++ [digit] else held
          timer := some
            { kind := .interdigit
              limit := 10 *
                (match s.part.cal.profile with
                  | .normal => s.part.timers.interNormal
                  | .heavy => s.part.timers.interHeavy) } } ∧
      (∀ x, x ≠ id → call x t.part = call x s.part) ∧
      noticesDue (.ctl c) t.part = noticesDue (.ctl c) s.part ++
        [if taken then .call .digit id [b8 id, b8 (held.length + 1), b8 digit]
          else if 11 ≤ pulses then .call .digitFault id [b8 id]
          else .call .digitOverflow id [b8 id]] ∧
      point (2048 + cord) t.part = { point (2048 + cord) s.part with pulses := 0, pending := none } ∧
      (∀ p, p ≠ 2048 + cord → point p t.part = point p s.part) ∧
      t.part = { s.part with
        calls := t.part.calls, scan.points := t.part.scan.points, a := t.part.a, b := t.part.b }) ∧
  ∀ (s : Part) (cord id : Nat), cord < 96 → TablesOk s → callOfElem (.cord cord) s = some id →
    (call id s).set.cord = some cord → (call id s).state = .dialling → (call id s).relPending = false →
    (call id s).lineSpeaks = false → (point (2048 + cord) s).accepted = .open_ →
    (point (2048 + cord) s).run = 1 → 1 ≤ (point (2048 + cord) s).duration →
    let b := (point (2048 + cord) s).duration - 1
    let t := samplePoint [] (2048 + cord) true s
    let ended := { point (2048 + cord) s with
      accepted := .loop, candidate := .open_, run := 0, duration := 2, pulses := 0, pending := none }
    (∀ p, p ≠ 2048 + cord → point p t = point p s) ∧
    (b < 20 →
      point (2048 + cord) t =
        { ended with
          pulses := min ((point (2048 + cord) s).pulses + 1) 11, pending := some .digitEnd } ∧
      t = { s with scan.points := t.scan.points }) ∧
    (50 ≤ b → point (2048 + cord) t = ended ∧ t = { s with scan.points := t.scan.points }) ∧
    (∀ c, 20 ≤ b → b < 50 → (call id s).owner = some c → (call id s).pend = [] →
      (io (.ctl c) s).queue.length < 64 →
      point (2048 + cord) t = ended ∧
      call id t =
        { call id s with
          timer := some
            { kind := .interdigit
              limit := 10 *
                (match s.cal.profile with
                  | .normal => s.timers.interNormal
                  | .heavy => s.timers.interHeavy) } } ∧
      (∀ x, x ≠ id → call x t = call x s) ∧
      noticesDue (.ctl c) t = noticesDue (.ctl c) s ++ [.call .digitFault id [b8 id]] ∧
      t = { s with calls := t.calls, scan.points := t.scan.points, a := t.a, b := t.b })

/-- PARK_END (R28): a PARKED line whose OPEN has lasted 25 scans becomes IDLE. Where the event is not due
nothing happens (log entry 17). -/
def Obligations.ParkEnd : Prop :=
  ∀ (s : State) (lt : Nat), lt < 2048 → TablesOk s.part →
    (eventDue lt s.part ≠ some .parkEnd → Makes (.parkEnd lt) s s.part) ∧
    ((point lt s.part).pending = some .parkEnd → 25 ≤ (point lt s.part).duration →
      s.part.supply.battery ≠ .rideThrough → (line lt s.part).sup = .parked →
      Makes (.parkEnd lt) s
        (modLine lt (fun l => { l with sup := .idle })
          (modPoint lt (fun e => { e with pending := none }) s.part)))

/-- CALLED_CLEAR (R95): an ANSWERED call enters CALLED CLEARED with the HOLD timer, CALLED CLEARED is queued for its owner,
and its charging goes on; with a hold of 0 the call takes a release at once. A re-answer (R96): the call is ANSWERED
again, its timer stops, and ANSWERED is queued. The answer of a ringing call of a line (R94, R71, R112): its timer
stops, RING OFF is placed, the call is ANSWERED, charging starts with the answer units of its band's tariff entry, each
counted and added to the charged line's meter, and ANSWERED is queued. One sample of a junction in outgoing use (R37,
R97): a change of polarity is accepted at its second scan; REVERSED is the answer in AWAITING ANSWER and the re-answer in
CALLED CLEARED, NORMAL the called clear in ANSWERED, and in other states the change is recorded alone. The name of the
RING OFF order is the model's (log entry 15). -/
def Obligations.CalledClear : Prop :=
  (∀ (s : State) (cord id : Nat) (c : Ctl), cord < 96 → TablesOk s.part →
    s.part.supply.battery ≠ .rideThrough → callOfElem (.cord cord) s.part = some id →
    (call id s.part).state = .answered → (call id s.part).relPending = false →
    s.part.timers.hold ≠ 0 → (call id s.part).owner = some c → (call id s.part).pend = [] →
    (io (.ctl c) s.part).queue.length < 64 → (point (2144 + cord) s.part).pending = some .calledClear →
    50 ≤ (point (2144 + cord) s.part).duration →
    ∃ t, exec (.calledClear cord) s = .next t ∧ t.pending = s.pending ∧
      call id t.part =
        { call id s.part with
          state := .calledCleared
          timer := some { kind := .hold, limit := 10 * s.part.timers.hold } } ∧
      (∀ x, x ≠ id → call x t.part = call x s.part) ∧
      noticesDue (.ctl c) t.part =
        noticesDue (.ctl c) s.part ++ [.call .calledCleared id [b8 id]] ∧
      (∀ p, p ≠ 2144 + cord → p ∉ callPoints (call id s.part) → point p t.part = point p s.part) ∧
      t.part = { s.part with
        calls := t.part.calls, scan.points := t.part.scan.points, a := t.part.a, b := t.part.b }) ∧
  (∀ (s : State) (cord id : Nat), cord < 96 → TablesOk s.part → s.part.supply.battery ≠ .rideThrough →
    callOfElem (.cord cord) s.part = some id → (call id s.part).state = .answered → s.part.timers.hold = 0 →
    Releasable id s.part → (point (2144 + cord) s.part).pending = some .calledClear →
    50 ≤ (point (2144 + cord) s.part).duration →
    ∃ t, exec (.calledClear cord) s = .next t ∧ t.pending = s.pending ∧
      TakesRelease id .calledCleared
        (modPoint (2144 + cord) (fun e => { e with pending := none }) s.part) t.part) ∧
  (∀ (s : Part) (id : Nat) (c : Ctl), TablesOk s → (call id s).relPending = false →
    (call id s).owner = some c → (call id s).pend = [] → (io (.ctl c) s).queue.length < 64 →
    ((call id s).state = .calledCleared →
      call id (reAnswer id s) = { call id s with state := .answered, timer := none } ∧
      (∀ x, x ≠ id → call x (reAnswer id s) = call x s) ∧
      noticesDue (.ctl c) (reAnswer id s) = noticesDue (.ctl c) s ++ [.call .answered id [b8 id]] ∧
      (∀ p, p ∉ callPoints (call id s) → point p (reAnswer id s) = point p s) ∧
      reAnswer id s = { s with
        calls := (reAnswer id s).calls, scan.points := (reAnswer id s).scan.points
        a := (reAnswer id s).a, b := (reAnswer id s).b }) ∧
    (∀ lt cord band, (call id s).state = .ringing → (call id s).origin = some (.line lt) →
      (call id s).set.cord = some cord → (call id s).set.ring = true → (call id s).coin = none →
      (call id s).charged = some lt → (call id s).band = some band → ordersOf id s = [] →
      s.supply.battery = .normal → s.meters.save = none →
      let n := (Table.get {} s.charge.tariff (4 * band + s.charge.period.code)).answerUnits
      let t := answer id s
      (call id s).units + n ≤ 65535 → (meter lt s).count + n < 10000000 →
      call id t =
        { call id s with
          state := .answered, answered := true, timer := none, op := .answer
          set := { (call id s).set with ring := false }
          accum := 0, incr := s.charge.incs.getD band 0, units := (call id s).units + n, charging := true } ∧
      (∀ x, x ≠ id → call x t = call x s) ∧
      t.orders = s.orders ++ [{ id := s.serial, call := id, act := .ringOff cord }] ∧
      meter lt t = { meter lt s with count := (meter lt s).count + n } ∧
      (∀ x, x ≠ lt → meter x t = meter x s) ∧
      t.meters.dirty =
        (if n = 0 ∨ lt ∈ s.meters.dirty ∨ (meter lt s).nvFault = true then s.meters.dirty
          else s.meters.dirty ++ [lt]) ∧
      noticesDue (.ctl c) t = noticesDue (.ctl c) s ++ [.call .answered id [b8 id]] ∧
      (∀ p, p ∉ callPoints (call id s) → point p t = point p s) ∧
      t = { s with
        calls := t.calls, scan.points := t.scan.points, orders := t.orders, serial := s.serial + 1
        meters.entries := t.meters.entries, meters.dirty := t.meters.dirty, a := t.a, b := t.b })) ∧
  ∀ (s : Part) (j id : Nat) (c : Ctl) (bit : Bool), TablesOk s → j < 48 →
    (junction j s).sup = .inCall .outgoing id → (point (2336 + j) s).pending = none →
    let r := call id s
    let e := point (2336 + j) s
    let shown : PointState := if bit then .reversed else .normal
    let t := samplePoint [] (2336 + j) bit s
    let changed :=
      { e with accepted := shown, candidate := e.accepted, run := 0, duration := 2, pending := none }
    let told (kind : CallKind) : Prop :=
      (∀ x, x ≠ id → call x t = call x s) ∧
      noticesDue (.ctl c) t = noticesDue (.ctl c) s ++ [.call kind id [b8 id]] ∧
      point (2336 + j) t = changed ∧
      (∀ p, p ≠ 2336 + j → p ∉ callPoints r → point p t = point p s)
    e.accepted = (if bit then .normal else .reversed) →
    (e.run = 0 → t = modPoint (2336 + j)
      (fun e => { e with
        candidate := shown, run := 1
        duration := if e.duration < 1023 then e.duration + 1 else e.duration }) s) ∧
    (e.run = 1 → (bit = true → r.state ≠ .awaitingAnswer ∧ r.state ≠ .calledCleared) →
      (bit = false → r.state ≠ .answered) → t = modPoint (2336 + j) (fun _ => changed) s) ∧
    (e.run = 1 → r.relPending = false → r.owner = some c → r.pend = [] →
      (io (.ctl c) s).queue.length < 64 →
      (bit = false → r.state = .answered → s.timers.hold ≠ 0 →
        call id t =
          { r with state := .calledCleared, timer := some { kind := .hold, limit := 10 * s.timers.hold } } ∧
        told .calledCleared ∧
        t = { s with calls := t.calls, scan.points := t.scan.points, a := t.a, b := t.b }) ∧
      (bit = true → r.state = .calledCleared →
        call id t = { r with state := .answered, timer := none } ∧ told .answered ∧
        t = { s with calls := t.calls, scan.points := t.scan.points, a := t.a, b := t.b }) ∧
      (∀ lt cord band, bit = true → r.state = .awaitingAnswer → r.origin = some (.line lt) →
        r.set.cord = some cord → r.coin = none → r.charged = some lt → r.band = some band →
        ordersOf id s = [] → s.supply.battery = .normal → s.meters.save = none →
        let n := (Table.get {} s.charge.tariff (4 * band + s.charge.period.code)).answerUnits
        r.units + n ≤ 65535 → (meter lt s).count + n < 10000000 →
        call id t =
          { r with
            state := .answered, answered := true, timer := none, op := .idle, claim := 0
            accum := 0, incr := s.charge.incs.getD band 0, units := r.units + n, charging := true } ∧
        told .answered ∧ meter lt t = { meter lt s with count := (meter lt s).count + n } ∧
        (∀ x, x ≠ lt → meter x t = meter x s) ∧
        t.meters.dirty =
          (if n = 0 ∨ lt ∈ s.meters.dirty ∨ (meter lt s).nvFault = true then s.meters.dirty
            else s.meters.dirty ++ [lt]) ∧
        t = { s with
          calls := t.calls, scan.points := t.scan.points
          meters.entries := t.meters.entries, meters.dirty := t.meters.dirty, a := t.a, b := t.b }))

/-! ## Releases (R98, R91, R93, R95, R128, R36) -/

/-- CALLER_CLEAR and FAR_END_CLEAR (R98, R36, R35): an OPEN of 50 scans on the point that speaks for the calling party
takes a release with reason CALLER CLEARED, on a junction in incoming use and on one ORIGINATING that a call names. A
junction ORIGINATING without a call, or HELD UNSERVED, is IDLE instead: its mark and its queue entry go, and its pending
changes take effect where it is FREE (R15). -/
def Obligations.CallerClearReleases : Prop :=
  (∀ (s : State) (id : Nat), TablesOk s.part → s.part.supply.battery ≠ .rideThrough →
    Releasable id s.part →
    (∀ p, (p < 2048 ∧ callOf (.line p) s.part = some id ∨
        ∃ cord, cord < 96 ∧ p = 2048 + cord ∧ callOfElem (.cord cord) s.part = some id) →
      (point p s.part).pending = some .callerClear → 50 ≤ (point p s.part).duration →
      ∃ t, exec (.callerClear p) s = .next t ∧ t.pending = s.pending ∧
        TakesRelease id .callerCleared (modPoint p (fun e => { e with pending := none }) s.part) t.part) ∧
    (∀ j, j < 48 →
      (junction j s.part).sup = .inCall .incoming id ∨
        (junction j s.part).sup = .originating ∧ callOf (.junction j) s.part = some id →
      (point (2336 + j) s.part).pending = some .farEndClear → 50 ≤ (point (2336 + j) s.part).duration →
      ∃ t, exec (.farEndClear j) s = .next t ∧ t.pending = s.pending ∧
        TakesRelease id .callerCleared
          (modPoint (2336 + j) (fun e => { e with pending := none }) s.part) t.part)) ∧
  ∀ (s : State) (j : Nat), TablesOk s.part → s.part.supply.battery ≠ .rideThrough → j < 48 →
    (junction j s.part).sup = .heldUnserved ∨
      (junction j s.part).sup = .originating ∧ callOf (.junction j) s.part = none →
    (point (2336 + j) s.part).pending = some .farEndClear → 50 ≤ (point (2336 + j) s.part).duration →
    ∃ t, exec (.farEndClear j) s = .next t ∧ t.pending = s.pending ∧
      junction j t.part = ({ junction j s.part with sup := .idle, marked := false } : Junction).settled ∧
      (∀ x, x ≠ j → junction x t.part = junction x s.part) ∧
      point (2336 + j) t.part = { point (2336 + j) s.part with pending := none } ∧
      (∀ p, p ≠ 2336 + j → point p t.part = point p s.part) ∧
      t.part.orig.queue = s.part.orig.queue.filter (fun w => decide (w.origin ≠ .junction j)) ∧
      t.part = { s.part with
        net.junctions := t.part.net.junctions, scan.points := t.part.scan.points
        orig.queue := t.part.orig.queue, orig.request := t.part.orig.request }

/-- DIAL_TIMEOUT, NO_ANSWER, HOLD_EXPIRY and GRACE_EXPIRY (R88, R91, R93, R95, R127, R128, R98): a timer that
has reached its limit takes a release with the reason of its kind. One that has not changes nothing (log entry
17). -/
def Obligations.ExpiryReleases : Prop :=
  ∀ (s : State) (id : Nat), TablesOk s.part →
    (∀ (i : Instr) (why : Reason) (kinds : List TimerKind),
      (i = .dialTimeout id ∧ why = .dialTimeout ∧ kinds = [.firstDigit, .interdigit]) ∨
        (i = .noAnswer id ∧ why = .noAnswer ∧ kinds = [.noAnswer]) ∨
        (i = .holdExpiry id ∧ why = .calledCleared ∧ kinds = [.hold]) →
      ((∀ m, (call id s.part).timer = some m → m.count < m.limit ∨ m.kind ∉ kinds) → Makes i s s.part) ∧
      ∀ m, (call id s.part).timer = some m → m.limit ≤ m.count → m.kind ∈ kinds →
        Releasable id s.part →
        ∃ t, exec i s = .next t ∧ t.pending = s.pending ∧ TakesRelease id why s.part t.part) ∧
    ((∀ k limit count, (call id s.part).coin = some k → k.grace = some (limit, count) → count < limit) →
      Makes (.graceExpiry id) s s.part) ∧
    ∀ k limit count, (call id s.part).coin = some k → k.grace = some (limit, count) → limit ≤ count →
      Releasable id s.part →
      ∃ t, exec (.graceExpiry id) s = .next t ∧ t.pending = s.pending ∧
        TakesRelease id .creditExhausted s.part t.part

/-- The release of a dialling call that has room (R80, R82, R83): DIAL_TIMEOUT of a line's call that holds its line
crosspoint and its plane crosspoint and no coin context places the two release orders, line crosspoint first, with a
claim of 5 places; its frame link and cord are RELEASING, and the record is RELEASING. The first step of a release
(R82): RING OFF where the ring is on, then for a coin call whose cord is joined to its line COIN COLLECT if it was
answered and COIN REFUND if not; for a coin call with no such cord COIN FAULT (R133), whose action byte of 1,
REFUND, is the model's reading of that rule (log entry 31). The names of the orders are the model's (log entry 15). -/
def Obligations.DiallingCallIsReleased : Prop :=
  (∀ (s : State) (id lt n cord : Nat) (m : CallTimer), TablesOk s.part → Releasable id s.part →
    (call id s.part).timer = some m → m.kind = .interdigit → m.limit ≤ m.count →
    (call id s.part).state = .dialling → (call id s.part).origin = some (.line lt) →
    (call id s.part).term = none → (call id s.part).set = { fl := some n, cord := some cord } →
    (call id s.part).old = {} → (call id s.part).new = {} → (call id s.part).reswitch = false →
    (call id s.part).coin = none → (call id s.part).claim = 0 →
    (call id s.part).xps = [(.line lt n, .operated), (.plane n cord .o, .operated)] →
    (elem (.fl n) s.part).occ = .held → (elem (.cord cord) s.part).occ = .held →
    ordersOf id s.part = [] → s.part.arb.releaseWait = [] → 5 ≤ freePlaces s.part →
    ∃ t, exec (.dialTimeout id) s = .next t ∧ t.pending = s.pending ∧
      t.part.orders = s.part.orders ++
        [{ id := s.part.serial, call := id, act := .release (.line lt n) },
          { id := s.part.serial + 1, call := id, act := .release (.plane n cord .o) }] ∧
      t.part.serial = s.part.serial + 2 ∧
      call id t.part =
        { call id s.part with
          state := .releasing, reason := some .dialTimeout, timer := none, charging := false, claim := 5
          op := .release2
          xps := [(.line lt n, .releasing), (.plane n cord .o, .releasing)] } ∧
      (∀ x, x ≠ id → call x t.part = call x s.part) ∧
      elem (.fl n) t.part = { elem (.fl n) s.part with occ := .releasing } ∧
      elem (.cord cord) t.part = { elem (.cord cord) s.part with occ := .releasing } ∧
      (∀ e, e ≠ .fl n → e ≠ .cord cord → elem e t.part = elem e s.part) ∧
      t.part = { s.part with
        orders := t.part.orders, serial := t.part.serial, calls := t.part.calls
        net.fls := t.part.net.fls, net.cords := t.part.net.cords
        scan.points := t.part.scan.points }) ∧
  (∀ (s : Part) (id lt n cord : Nat), TablesOk s → (call id s).state ≠ .free →
    (call id s).origin = some (.line lt) → (call id s).set.cord = some cord →
    (call id s).xps = [(.line lt n, .operated), (.plane n cord .o, .operated)] →
    (call id s).set.ring = true ∨ (call id s).coin ≠ none →
    let ring : List Order :=
      if (call id s).set.ring then [{ id := s.serial, call := id, act := .ringOff cord }] else []
    let t := releaseStep1 id s
    t.orders = s.orders ++ ring ++
        (if (call id s).coin = none then []
          else [{ id := s.serial + ring.length, call := id
                  act := if (call id s).answered then .collect cord else .refund cord }]) ∧
      call id t = { call id s with op := .release1, set := { (call id s).set with ring := false } } ∧
      (∀ x, x ≠ id → call x t = call x s) ∧
      t = { s with orders := t.orders, serial := t.serial, calls := t.calls }) ∧
  ∀ (s : Part) (id lt : Nat) (k : Coin) (c : Ctl), TablesOk s → MaintRoom s →
    (call id s).origin = some (.line lt) → (call id s).owner = some c → (call id s).coin = some k →
    (call id s).set.ring = false → (call id s).xps = [] →
    noticesDue .maint (releaseStep1 id s) =
      noticesDue .maint s ++ [.maint .coinFault 0 ([b8 id] ++ b16 lt ++ [1] ++ b16 k.deposits)]

/-! ## The clock (R113, R119, R154 to R161, R165, R52) -/

/-- TICK (R154, R160, R161, R50, R183, R166): one tick of the divider of CRYSTAL or INTERNAL, with no call
record and no expiry left to be taken; none while STATION is the selection (log entry 42). -/
def Obligations.Tick : Prop :=
  ∀ (s : State) (early : List Nat),
    (s.part.tb.selection = .station → Makes (.tick early) s s.part) ∧
    (s.part.tb.selection ≠ .station → QuietForTick s.part → s.part.tb.day ≤ 6 → s.part.tb.minute ≤ 1439 →
      s.part.tb.second ≤ 59 → s.part.tb.tenth ≤ 9 →
      ∃ t, exec (.tick early) s = .next t ∧ t.pending = s.pending ∧ Ticked s.part t.part)

/-- A tick at a charging call (R113, R115, R116, R119, R137, R140): the accumulator takes the increment in force; at
Q it gives up Q and a unit is charged, to the charged line's meter or, for a junction's call, to the units alone; a
meter of 9,999,999 goes to 0 with its rollover flag set, and ROLLOVER is queued; a tick of INTERNAL or of an INVALID
time degrades the call; its timer counts. A unit of a coin call takes a credit, and without credit is owed: the
grace timer starts, and DEPOSIT DUE is queued (R126, R127). A sample that completes a coin pulse (R33, R125, R127,
R131): a deposit, which gives a credit, or pays a unit owed, the last of which stops the grace timer and withdraws a
DEPOSIT DUE that is pending; after the release it is a deposit alone. -/
def Obligations.TickCharges : Prop :=
  (∀ (s : State) (id : Nat) (r : Call), s.part.calls = [(id, r)] → r.state = .answered → r.charging = true →
    r.coin = none → r.relPending = false → (∀ m, r.timer = some m → m.count < m.limit) →
    r.accum < 1048576 → r.incr ≤ 104858 → s.part.tb.selection ≠ .station → TablesOk s.part →
    s.part.orig.queue = [] → s.part.cal.due = false → (∀ c, (ctl c s.part).present = false) →
    s.part.supply.battery = .normal → s.part.meters.save = none →
    (∀ lt, r.charged = some lt → (meter lt s.part).count ≤ 9999999) → MaintRoom s.part →
    let unit := decide (1048576 ≤ r.accum + r.incr)
    let wraps := fun lt => unit ∧ r.charged = some lt ∧ (meter lt s.part).count = 9999999
    ∃ t, exec (.tick []) s = .next t ∧ t.pending = s.pending ∧
      call id t.part =
        { r with
          timer := r.timer.map (fun m => { m with count := m.count + 1 })
          accum := if unit then r.accum + r.incr - 1048576 else r.accum + r.incr
          units := if unit then min (r.units + 1) 65535 else r.units
          degraded := r.degraded || decide (s.part.tb.selection = .internal) || !s.part.tb.valid } ∧
      (∀ x, x ≠ id → call x t.part = call x s.part) ∧
      (∀ x, meter x t.part =
        if wraps x then { meter x s.part with count := 0, rollover := true }
        else if unit ∧ r.charged = some x then { meter x s.part with count := (meter x s.part).count + 1 }
        else meter x s.part) ∧
      t.part.meters.dirty =
        (match r.charged with
          | some lt =>
            if unit ∧ lt ∉ s.part.meters.dirty ∧ (meter lt s.part).nvFault = false then
              s.part.meters.dirty ++ [lt]
            else s.part.meters.dirty
          | none => s.part.meters.dirty) ∧
      (∀ lt, wraps lt → Noticed .rollover (b16 lt) { t.part with m := s.part.m } t.part) ∧
      ((∀ lt, ¬ wraps lt) → t.part.m = s.part.m) ∧
      t.part = { s.part with
        tb := t.part.tb, cal := t.part.cal, calls := t.part.calls, m := t.part.m
        meters.entries := t.part.meters.entries, meters.dirty := t.part.meters.dirty }) ∧
  (∀ (s : State) (id : Nat) (r : Call) (k : Coin), s.part.calls = [(id, r)] → r.state = .answered →
    r.charging = true → r.coin = some k → k.grace = none → k.owed = 0 → r.relPending = false →
    (∀ m, r.timer = some m → m.count < m.limit) → 1048576 ≤ r.accum + r.incr →
    s.part.tb.selection ≠ .station → s.part.orig.queue = [] → s.part.cal.due = false →
    (∀ c, (ctl c s.part).present = true → (ctl c s.part).window < 20) →
    let charged (coin : Coin) : Call :=
      { r with
        timer := r.timer.map (fun m => { m with count := m.count + 1 })
        accum := r.accum + r.incr - 1048576, units := min (r.units + 1) 65535
        degraded := r.degraded || decide (s.part.tb.selection = .internal) || !s.part.tb.valid
        coin := some coin }
    (1 ≤ k.credit →
      ∃ t, exec (.tick []) s = .next t ∧ t.pending = s.pending ∧
        call id t.part = charged { k with credit := k.credit - 1 } ∧
        t.part = { s.part with
          tb := t.part.tb, cal := t.part.cal, calls := t.part.calls, a := s.part.a.ticked
          b := s.part.b.ticked }) ∧
    (∀ c, k.credit = 0 → s.part.timers.grace ≠ 0 → r.owner = some c → r.pend = [] →
      (io (.ctl c) s.part).queue.length < 64 →
      let grace := 10 * s.part.timers.grace
      ∃ t, exec (.tick []) s = .next t ∧ t.pending = s.pending ∧
        call id t.part = charged { k with owed := 1, grace := some (grace, 0) } ∧
        noticesDue (.ctl c) t.part =
          noticesDue (.ctl c) s.part ++ [.call .depositDue id ([b8 id, 0, 1] ++ b16 grace)] ∧
        t.part = { s.part with
          tb := t.part.tb, cal := t.part.cal, calls := t.part.calls, a := t.part.a, b := t.part.b })) ∧
  ∀ (s : Part) (cord id : Nat) (k : Coin), cord < 96 → TablesOk s → callOfElem (.cord cord) s = some id →
    (call id s).coin = some k → (point (2240 + cord) s).accepted = .open_ → (point (2240 + cord) s).run = 1 →
    let t := samplePoint [] (2240 + cord) true s
    let deposited := { k with deposits := min (k.deposits + 1) 999 }
    call id t =
      (if (call id s).released then { call id s with coin := some deposited }
        else if k.owed = 0 then
          if k.deposits < 999 then
            { call id s with coin := some { deposited with credit := min (k.credit + 1) 99 } }
          else call id s
        else if k.owed = 1 then
          { call id s with
            coin := some { deposited with owed := 0, grace := none }
            pend := (call id s).pend.filter (fun x => decide (x.1 ≠ .depositDue)) }
        else { call id s with coin := some { deposited with owed := k.owed - 1 } }) ∧
    (∀ x, x ≠ id → call x t = call x s) ∧
    point (2240 + cord) t = { point (2240 + cord) s with
      accepted := .loop, candidate := .open_, run := 0, duration := 2, pending := none } ∧
    (∀ p, p ≠ 2240 + cord → point p t = point p s) ∧
    t = { s with calls := t.calls, scan.points := t.scan.points }

/-- WAIT_LIMIT_EXPIRY (R52): an entry whose wait has reached its limit leaves the queue, its line PARKED or its
junction HELD UNSERVED; a line whose OPEN has already lasted 25 scans is IDLE at once, its PARK END being due (R22,
R28). Before the limit nothing happens (log entry 17). -/
def Obligations.WaitLimitExpires : Prop :=
  ∀ (s : State) (w : WaitEntry), TablesOk s.part → w ∈ s.part.orig.queue →
    (∀ x ∈ s.part.orig.queue, x.origin = w.origin → x = w) →
    (w.wait < w.limit → Makes (.waitLimitExpiry w.origin) s s.part) ∧
    (w.limit ≤ w.wait → (∀ lt, w.origin = .line lt → lt < 2048) →
      (∀ j, w.origin = .junction j → (point (2336 + j) s.part).accepted = .open_ →
        (point (2336 + j) s.part).duration < 50 ∨ s.part.supply.battery = .rideThrough) →
      ∃ t, exec (.waitLimitExpiry w.origin) s = .next t ∧ t.pending = s.pending ∧
        t.part.orig.queue = s.part.orig.queue.filter (fun x => decide (x.origin ≠ w.origin)) ∧
        (∀ lt, line lt t.part =
          if w.origin = .line lt then
            { line lt s.part with
              sup :=
                if (point lt s.part).accepted = .open_ ∧ 25 ≤ (point lt s.part).duration ∧
                    s.part.supply.battery ≠ .rideThrough then .idle
                else .parked }
          else line lt s.part) ∧
        (∀ j, junction j t.part =
          if w.origin = .junction j then { junction j s.part with sup := .heldUnserved }
          else junction j s.part) ∧
        t.part = { s.part with
          net.lines := t.part.net.lines, net.junctions := t.part.net.junctions
          scan.points := t.part.scan.points, orig.queue := t.part.orig.queue
          orig.request := t.part.orig.request })

/-- STATION_PULSE (R156, R158, R160): ABSENT to QUALIFYING with a count of 1; a count below the requirement
grows; at the requirement the station is VALID, and the selection where it is preferred, and the fallback flag
is cleared where CRYSTAL is preferred and selected; with STATION selected a pulse of a VALID station is a tick,
unless it comes within 50 ms of the last. The milliseconds since the last tick are the command's operand (log
entry 10). -/
def Obligations.StationPulse : Prop :=
  ∀ (s : State) (m : Moment),
    (s.part.tb.selection ≠ .station → s.part.tb.station = .absent →
      Makes (.stationPulse m) s { s.part with tb.station := .qualifying, tb.count := 1 }) ∧
    (s.part.tb.selection ≠ .station → s.part.tb.station = .qualifying →
      s.part.tb.count + 1 < s.part.tb.requirement →
      Makes (.stationPulse m) s { s.part with tb.count := s.part.tb.count + 1 }) ∧
    (s.part.tb.selection ≠ .station → s.part.tb.station = .qualifying →
      s.part.tb.requirement ≤ s.part.tb.count + 1 →
      let q := { s.part with tb.station := .valid, tb.count := 0, tb.requirement := 10 }
      (s.part.tb.preferred = .station → s.part.tb.fallback = false →
        Makes (.stationPulse m) s { q with tb.selection := .station }) ∧
      (s.part.tb.preferred = .station → s.part.tb.fallback = true → MaintRoom s.part →
        ∃ t, exec (.stationPulse m) s = .next t ∧ t.pending = s.pending ∧
          Noticed .timebaseRestored [b8 0, b8 s.part.tb.selection.code]
            { q with tb.selection := .station, tb.fallback := false } t.part) ∧
      (s.part.tb.preferred = .crystal → s.part.tb.crystal = .ready → s.part.tb.selection = .crystal →
        Makes (.stationPulse m) s { q with tb.fallback := false })) ∧
    (s.part.tb.selection = .station → s.part.tb.station = .valid →
      (m.sinceTick < 50 → Makes (.stationPulse m) s s.part) ∧
      (50 ≤ m.sinceTick → QuietForTick s.part → s.part.tb.day ≤ 6 → s.part.tb.minute ≤ 1439 →
        s.part.tb.second ≤ 59 → s.part.tb.tenth ≤ 9 →
        ∃ t, exec (.stationPulse m) s = .next t ∧ t.pending = s.pending ∧ Ticked s.part t.part))

/-- STATION_GAP (R156, R159): QUALIFYING to ABSENT with the requirement kept; VALID to ABSENT with a requirement
of 600; where STATION was the selection, it falls to a READY crystal and else to INTERNAL, with TIMEBASE FALLBACK, and
the fallback flag is set unless the source now selected is the preferred one. Where 100 ms have passed since the last
tick, a tick falls at once (R160), before the notice is queued (log entry 11). A flag that was set is cleared by a fall to
the preferred source (log entry 63). A gap of an ABSENT station changes nothing (log entry 17). -/
def Obligations.StationGap : Prop :=
  ∀ (s : State) (m : Moment),
    (s.part.tb.station = .absent → Makes (.stationGap m) s s.part) ∧
    (s.part.tb.station = .qualifying →
      Makes (.stationGap m) s { s.part with tb.station := .absent, tb.count := 0 }) ∧
    (s.part.tb.station = .valid →
      let q := { s.part with tb.station := .absent, tb.count := 0, tb.requirement := 600 }
      (s.part.tb.selection ≠ .station → Makes (.stationGap m) s q) ∧
      (s.part.tb.selection = .station → m.sinceTick < 100 → MaintRoom s.part →
        let src : Source := if s.part.tb.crystal = .ready then .crystal else .internal
        ∃ t, exec (.stationGap m) s = .next t ∧ t.pending = s.pending ∧
          Noticed .timebaseFallback [b8 0, b8 src.code]
            { q with tb.selection := src, tb.fallback := decide (src ≠ s.part.tb.preferred) } t.part) ∧
      (s.part.tb.selection = .station → 100 ≤ m.sinceTick → MaintRoom s.part → QuietForTick s.part →
        s.part.tb.day ≤ 6 → s.part.tb.minute ≤ 1439 → s.part.tb.second ≤ 59 → s.part.tb.tenth ≤ 9 →
        let src : Source := if s.part.tb.crystal = .ready then .crystal else .internal
        ∃ t u, exec (.stationGap m) s = .next t ∧ t.pending = s.pending ∧
          Ticked { q with tb.selection := src, tb.fallback := decide (src ≠ s.part.tb.preferred) } u ∧
          Noticed .timebaseFallback [b8 0, b8 src.code] u t.part))

/-- CRYSTAL_READY and CRYSTAL_FAILURE (R155, R158, R159): a STARTING crystal becomes READY, and where CRYSTAL or
INTERNAL is preferred the policy is applied from INTERNAL; where STATION is preferred and not VALID CRYSTAL is selected
in its place, the fallback flag standing as it was (log entry 12); a STARTING or READY crystal that fails is STOPPED,
and where it was the selection this falls to INTERNAL with TIMEBASE FALLBACK. Where 100 ms have passed since the last
tick, a tick falls at once (R160), before a notice is queued (log entry 11). A flag that was set is cleared by a fall to
the preferred source (log entry 63). A crystal that is not STARTING does not become READY, nor does a STOPPED one fail
(log entry 17). -/
def Obligations.CrystalReadyAndFailure : Prop :=
  ∀ (s : State) (m : Moment),
    (s.part.tb.crystal ≠ .starting → Makes (.crystalReady m) s s.part) ∧
    (s.part.tb.crystal = .starting →
      (s.part.tb.preferred = .internal → s.part.tb.selection = .internal →
        Makes (.crystalReady m) s { s.part with tb.crystal := .ready, tb.fallback := false }) ∧
      (s.part.tb.preferred = .crystal → s.part.tb.selection = .internal → m.sinceTick < 100 →
        s.part.tb.fallback = false →
        Makes (.crystalReady m) s { s.part with tb.crystal := .ready, tb.selection := .crystal }) ∧
      (s.part.tb.preferred = .crystal → s.part.tb.selection = .internal → m.sinceTick < 100 →
        s.part.tb.fallback = true → MaintRoom s.part →
        ∃ t, exec (.crystalReady m) s = .next t ∧ t.pending = s.pending ∧
          Noticed .timebaseRestored [b8 1, b8 2]
            { s.part with tb.crystal := .ready, tb.selection := .crystal, tb.fallback := false }
            t.part) ∧
      (s.part.tb.preferred = .crystal → s.part.tb.selection = .internal → 100 ≤ m.sinceTick →
        s.part.tb.fallback = false → QuietForTick s.part → s.part.tb.day ≤ 6 → s.part.tb.minute ≤ 1439 →
        s.part.tb.second ≤ 59 → s.part.tb.tenth ≤ 9 →
        ∃ t, exec (.crystalReady m) s = .next t ∧ t.pending = s.pending ∧
          Ticked { s.part with tb.crystal := .ready, tb.selection := .crystal } t.part) ∧
      (s.part.tb.preferred = .station → s.part.tb.station ≠ .valid → s.part.tb.selection = .internal →
        m.sinceTick < 100 →
        (s.part.tb.fallback = false →
          Makes (.crystalReady m) s { s.part with tb.crystal := .ready, tb.selection := .crystal }) ∧
        (s.part.tb.fallback = true → MaintRoom s.part →
          ∃ t, exec (.crystalReady m) s = .next t ∧ t.pending = s.pending ∧
            Noticed .timebaseRestored [b8 1, b8 2]
              { s.part with tb.crystal := .ready, tb.selection := .crystal } t.part))) ∧
    (s.part.tb.crystal = .stopped → Makes (.crystalFailure m) s s.part) ∧
    (s.part.tb.crystal ≠ .stopped → s.part.tb.selection ≠ .crystal →
      Makes (.crystalFailure m) s { s.part with tb.crystal := .stopped }) ∧
    (s.part.tb.crystal ≠ .stopped → s.part.tb.selection = .crystal → m.sinceTick < 100 →
      MaintRoom s.part →
      ∃ t, exec (.crystalFailure m) s = .next t ∧ t.pending = s.pending ∧
        Noticed .timebaseFallback [b8 1, b8 2]
          { s.part with
            tb.crystal := .stopped, tb.selection := .internal
            tb.fallback := decide (s.part.tb.preferred ≠ .internal) } t.part) ∧
    (s.part.tb.crystal ≠ .stopped → s.part.tb.selection = .crystal → 100 ≤ m.sinceTick →
      MaintRoom s.part → QuietForTick s.part → s.part.tb.day ≤ 6 → s.part.tb.minute ≤ 1439 →
      s.part.tb.second ≤ 59 → s.part.tb.tenth ≤ 9 →
      ∃ t u, exec (.crystalFailure m) s = .next t ∧ t.pending = s.pending ∧
        Ticked
          { s.part with
            tb.crystal := .stopped, tb.selection := .internal
            tb.fallback := decide (s.part.tb.preferred ≠ .internal) } u ∧
        Noticed .timebaseFallback [b8 1, b8 2] u t.part)

/-! ## The Drive Order Unit and the arbiter (R4, R5, R49, R59 to R63, R67, R77 to R80) -/

/-- The outcomes of orders (R62, R77, R78). The OPERATE of a line crosspoint is DONE while other orders of its call are
outstanding (R4): the order leaves the table, the crosspoint is OPERATED, and its RESERVED frame link is HELD unless
another OPERATE of the call names it. The last OPERATE of an origin search is DONE (R65, R24): the line is IN CALL, the
call is DIALLING with FIRST DIGIT, and ORIGIN READY is queued. The last order of an extension to a line is DONE (R69): the
call is RINGING with NO ANSWER, and RINGING is queued. The junctor crosspoint of an extension to a junction is DONE (R37,
R69, R93): the junction is HELD and IN CALL with use OUTGOING, its point NORMAL with run and duration 0, the call is
AWAITING ANSWER with NO ANSWER, and AWAITING ANSWER is queued. The junctor crosspoint of a junction origin is DONE (R65,
R90, R36): the junction is HELD and IN CALL with use INCOMING, the call is DIALLING with FIRST DIGIT, the cord's O point
is loaded from the junction's, and INCOMING READY is queued. The last order of a reversal has its outcome (R70, R92): the
called line leaves, the call is DIALLING with INTERDIGIT, and SET FAILED is queued. The last release of a reswitch's
first step has its outcome (R74): the orders of the second step are placed; with its last order DONE the new set is the
call's, and RINGING is queued. The last release of a release has its outcome (R83, R102, R192): CLEARED enters, the
record is FREE, and a RESTART that waited for this call alone is answered. The names of the orders are the model's (log
entry 15). -/
def Obligations.OperateIsDone : Prop :=
  (∀ (s : State) (o : Order) (lt n : Nat), TablesOk s.part → o.act = .operate (.line lt n) →
    dispatched o.act.unit s.part = some o → (call o.call s.part).state ≠ .free →
    (elem (.fl n) s.part).occ ≠ .faulty →
    let orders := s.part.orders.filter (fun x => decide (x.id ≠ o.id))
    (∃ x, x ∈ orders ∧ x.call = o.call) →
    ∃ t, exec (.driveConfirmation o.act.unit o.id true) s = .next t ∧ t.pending = s.pending ∧
      t.part.orders = orders ∧
      call o.call t.part =
        { call o.call s.part with xps := setXp (.line lt n) .operated (call o.call s.part).xps } ∧
      (∀ x, x ≠ o.call → call x t.part = call x s.part) ∧
      elem (.fl n) t.part =
        { elem (.fl n) s.part with
          occ :=
            if (elem (.fl n) s.part).occ = .reserved ∧
                operating o.call (.fl n) { s.part with orders := orders } = false then .held
            else (elem (.fl n) s.part).occ } ∧
      (∀ e, e ≠ .fl n → elem e t.part = elem e s.part) ∧
      t.part = { s.part with
        orders := t.part.orders, calls := t.part.calls, net.fls := t.part.net.fls }) ∧
  ∀ (s : State) (o : Order) (c : Ctl), TablesOk s.part → dispatched o.act.unit s.part = some o →
    (∀ x ∈ s.part.orders, x.call = o.call → x.id = o.id) →
    (call o.call s.part).relPending = false → (call o.call s.part).owner = some c →
    (call o.call s.part).pend = [] → (io (.ctl c) s.part).queue.length < 64 → s.part.scan.pos = none →
    let r := call o.call s.part
    let orders := s.part.orders.filter (fun x => decide (x.id ≠ o.id))
    let i := Instr.driveConfirmation o.act.unit o.id true
    let ended := { r with op := .idle, opFailed := false, yielded := false }
    (∀ lt n cord again, r.state = .settingOrigin → r.op = .origin again → r.opFailed = false →
      r.origin = some (.line lt) → lt < 2048 → r.term = none → r.lineSpeaks = false → cord < 96 →
      r.set = { fl := some n, cord := some cord } → r.new = {} →
      o.act = .operate (.plane n cord .o) →
      r.xps = [(.line lt n, .operated), (.plane n cord .o, .operating)] →
      (elem (.fl n) s.part).occ = .held → (elem (.cord cord) s.part).occ = .reserved →
      callOfElem (.cord cord) s.part = some o.call → (point lt s.part).accepted = .loop →
      ∃ t, exec i s = .next t ∧ t.pending = s.pending ∧ t.part.orders = orders ∧
        call o.call t.part =
          { ended with
            state := .dialling, claim := 0
            xps := [(.line lt n, .operated), (.plane n cord .o, .operated)]
            timer := some
              { kind := .firstDigit
                limit := 10 *
                  (match s.part.cal.profile with
                    | .normal => s.part.timers.firstNormal
                    | .heavy => s.part.timers.firstHeavy) } } ∧
        (∀ x, x ≠ o.call → call x t.part = call x s.part) ∧
        line lt t.part = { line lt s.part with sup := .inCall o.call } ∧
        (∀ x, x ≠ lt → line x t.part = line x s.part) ∧
        elem (.cord cord) t.part = { elem (.cord cord) s.part with occ := .held } ∧
        (∀ e, e ≠ .cord cord → elem e t.part = elem e s.part) ∧
        point (2048 + cord) t.part = { point lt s.part with pulses := 0, pending := none } ∧
        noticesDue (.ctl c) t.part = noticesDue (.ctl c) s.part ++
          [.call .originReady o.call
            ([b8 o.call] ++ b16 lt ++ [b8 (line lt s.part).cls.code, b8 cord])] ∧
        t.part = { s.part with
          orders := orders, calls := t.part.calls, net.lines := t.part.net.lines
          net.cords := t.part.net.cords, scan.points := t.part.scan.points, a := t.part.a, b := t.part.b }) ∧
    (∀ j cord rt again, r.state = .settingOrigin → r.op = .origin again → r.opFailed = false →
      r.origin = some (.junction j) → j < 48 → r.term = none → r.lineSpeaks = false → cord < 96 →
      r.set = { junction := some j, cord := some cord } → r.new = {} →
      o.act = .operate (.junctor j cord .o) → r.xps = [(.junctor j cord .o, .operating)] →
      (junction j s.part).elem.occ = .reserved → (elem (.cord cord) s.part).occ = .reserved →
      (junction j s.part).route = some rt → callOfElem (.cord cord) s.part = some o.call →
      (point (2336 + j) s.part).accepted = .loop →
      ∃ t, exec i s = .next t ∧ t.pending = s.pending ∧ t.part.orders = orders ∧
        call o.call t.part =
          { ended with
            state := .dialling, claim := 0, xps := [(.junctor j cord .o, .operated)]
            timer := some
              { kind := .firstDigit
                limit := 10 *
                  (match s.part.cal.profile with
                    | .normal => s.part.timers.firstNormal
                    | .heavy => s.part.timers.firstHeavy) } } ∧
        (∀ x, x ≠ o.call → call x t.part = call x s.part) ∧
        junction j t.part =
          { junction j s.part with
            sup := .inCall .incoming o.call, marked := false
            elem := { (junction j s.part).elem with occ := .held } } ∧
        (∀ x, x ≠ j → junction x t.part = junction x s.part) ∧
        elem (.cord cord) t.part = { elem (.cord cord) s.part with occ := .held } ∧
        (∀ x, x ≠ cord → elem (.cord x) t.part = elem (.cord x) s.part) ∧
        point (2048 + cord) t.part = { point (2336 + j) s.part with pulses := 0, pending := none } ∧
        noticesDue (.ctl c) t.part = noticesDue (.ctl c) s.part ++
          [.call .incomingReady o.call [b8 o.call, b8 j, b8 rt, b8 cord]] ∧
        t.part = { s.part with
          orders := orders, calls := t.part.calls, net.junctions := t.part.net.junctions
          net.cords := t.part.net.cords, scan.points := t.part.scan.points, a := t.part.a, b := t.part.b }) ∧
    (∀ lo j cord, r.state = .settingTerm → r.op = .extension → r.opFailed = false → r.yielded = false →
      r.origin = some (.line lo) → lo < 2048 → r.term = some (.junction j) → j < 48 → cord < 96 →
      r.set.cord = some cord → r.reswitch = false → r.lineSpeaks = false → r.new = {} →
      s.part.orig.rehunts.any (fun x => decide (x.call = o.call)) = false →
      o.act = .operate (.junctor j cord .t) → (junction j s.part).elem.occ = .reserved →
      (elem (.cord cord) s.part).occ = .held → (line lo s.part).sup = .inCall o.call →
      callOfElem (.cord cord) s.part = some o.call → (point (2048 + cord) s.part).accepted = .loop →
      (point (2048 + cord) s.part).pulses = 0 →
      ∃ t, exec i s = .next t ∧ t.pending = s.pending ∧ t.part.orders = orders ∧
        call o.call t.part =
          { ended with
            state := .awaitingAnswer, claim := 0, dest := none
            xps := setXp (.junctor j cord .t) .operated r.xps
            timer := some { kind := .noAnswer, limit := 10 * s.part.timers.noAnswer } } ∧
        (∀ x, x ≠ o.call → call x t.part = call x s.part) ∧
        junction j t.part =
          { junction j s.part with
            sup := .inCall .outgoing o.call, elem := { (junction j s.part).elem with occ := .held } } ∧
        (∀ x, x ≠ j → junction x t.part = junction x s.part) ∧
        (point (2336 + j) t.part).accepted = .normal ∧ (point (2336 + j) t.part).run = 0 ∧
        (point (2336 + j) t.part).duration = 0 ∧ (point (2336 + j) t.part).pending = none ∧
        noticesDue (.ctl c) t.part = noticesDue (.ctl c) s.part ++
          [.call .awaitingAnswer o.call [b8 o.call, b8 j, b8 cord]] ∧
        t.part = { s.part with
          orders := orders, calls := t.part.calls, net.junctions := t.part.net.junctions
          scan.points := t.part.scan.points, a := t.part.a, b := t.part.b }) ∧
    (∀ lt lo cord, r.state = .settingTerm → r.opFailed = false → r.origin = some (.line lo) →
      r.term = some (.line lt) → lt ≠ lo → lo < 2048 → lt < 2048 → r.set.cord = some cord → cord < 96 →
      r.reswitch = false → r.lineSpeaks = false → r.new = {} →
      s.part.orig.rehunts.any (fun x => decide (x.call = o.call)) = false →
      (line lo s.part).sup = .inCall o.call → (line lt s.part).sup = .inCall o.call →
      callOfElem (.cord cord) s.part = some o.call → (point (2048 + cord) s.part).accepted = .loop →
      (point (2048 + cord) s.part).pulses = 0 → (point (2144 + cord) s.part).accepted = .open_ →
      (r.op = .extension → o.act = .ringOn cord →
        ∃ t, exec i s = .next t ∧ t.pending = s.pending ∧ t.part.orders = orders ∧
          call o.call t.part =
            { ended with
              state := .ringing, claim := 1, dest := none
              timer := some { kind := .noAnswer, limit := 10 * s.part.timers.noAnswer } } ∧
          (∀ x, x ≠ o.call → call x t.part = call x s.part) ∧
          noticesDue (.ctl c) t.part = noticesDue (.ctl c) s.part ++
            [.call .ringing o.call ([b8 o.call] ++ b16 lt ++ [b8 cord])] ∧
          t.part = { s.part with
            orders := orders, calls := t.part.calls, scan.points := t.part.scan.points
            a := t.part.a, b := t.part.b }) ∧
      (r.op = .reversal → o.act = .ringOff cord → r.dest = some (.line lt) →
        (line lt s.part).admin = .inService → (line lt s.part).pendCls = none →
        ∃ t, exec i s = .next t ∧ t.pending = s.pending ∧ t.part.orders = orders ∧
          call o.call t.part =
            { ended with
              state := .dialling, claim := 0, dest := none, band := none, term := none
              timer := some
                { kind := .interdigit
                  limit := 10 *
                    (match s.part.cal.profile with
                      | .normal => s.part.timers.interNormal
                      | .heavy => s.part.timers.interHeavy) } } ∧
          (∀ x, x ≠ o.call → call x t.part = call x s.part) ∧
          line lt t.part = { line lt s.part with sup := .idle, marked := false } ∧
          (∀ x, x ≠ lt → line x t.part = line x s.part) ∧
          noticesDue (.ctl c) t.part = noticesDue (.ctl c) s.part ++
            [.call .setFailed o.call ([b8 o.call] ++ [0] ++ b16 lt)] ∧
          t.part = { s.part with
            orders := orders, calls := t.part.calls, scan.points := t.part.scan.points
            net.lines := t.part.net.lines, a := t.part.a, b := t.part.b })) ∧
    (∀ lo lt n m cord x, r.state = .settingTerm → r.reswitch = true → r.opFailed = false →
      r.origin = some (.line lo) → r.term = some (.line lt) → lo ≠ lt → lo < 2048 → lt < 2048 → cord < 96 →
      r.new.fl = some n → r.new.cord = some cord → r.new.tfl = some m → r.new.tjunction = none →
      (r.op = .reswitch1 → o.act = .release x → (∀ e ∈ x.elems, e ∉ r.new.elems) →
        ∃ t, exec i s = .next t ∧ t.pending = s.pending ∧ (call o.call t.part).op = .reswitch2 ∧
          (call o.call t.part).new.ring = true ∧
          t.part.orders = orders ++
            [{ id := s.part.serial, call := o.call, act := .operate (.line lo n) },
              { id := s.part.serial + 1, call := o.call, act := .operate (.plane n cord .o) },
              { id := s.part.serial + 2, call := o.call, act := .operate (.plane m cord .t) },
              { id := s.part.serial + 3, call := o.call, act := .operate (.line lt m) },
              { id := s.part.serial + 4, call := o.call, act := .ringOn cord }]) ∧
      (r.op = .reswitch2 → o.act = .ringOn cord → r.set = {} →
        s.part.orig.rehunts.any (fun x => decide (x.call = o.call)) = false →
        (line lo s.part).sup = .inCall o.call → (line lt s.part).sup = .inCall o.call →
        callOfElem (.cord cord) s.part = some o.call → (point lo s.part).accepted = .loop →
        (point (2144 + cord) s.part).accepted = .open_ →
        ∃ t, exec i s = .next t ∧ t.pending = s.pending ∧ t.part.orders = orders ∧
          call o.call t.part =
            { ended with
              state := .ringing, claim := 1, dest := none, set := r.new, old := {}, new := {}
              reswitch := false, lineSpeaks := false
              timer := some { kind := .noAnswer, limit := 10 * s.part.timers.noAnswer } } ∧
          point (2048 + cord) t.part = { point lo s.part with pulses := 0, pending := none } ∧
          noticesDue (.ctl c) t.part = noticesDue (.ctl c) s.part ++
            [.call .ringing o.call ([b8 o.call] ++ b16 lt ++ [b8 cord])])) ∧
    (∀ x, r.op = .release2 → r.state = .releasing → o.act = .release x →
      ∃ t, exec i s = .next t ∧ t.pending = s.pending ∧ t.part.orders = orders ∧ call o.call t.part = {} ∧
        noticesDue (.ctl c) t.part = noticesDue (.ctl c) s.part ++
          [.call .cleared o.call (noticeData o.call .cleared [] s.part)] ∧
        (∀ w, s.part.m.restart = some { tag := w, waiting := [o.call] } →
          t.part.m.restart = none ∧
            repliesDue .maint t.part = repliesDue .maint s.part ++ [{ tag := w, code := .done }]))

/-- Orders that are REFUSED or time out (R5, R62, R78, R79), but for those of a reswitch (R75). An OPERATE of the
origin's line crosspoint, while other orders of its call are outstanding: the crosspoint leaves the list, the frame
link is FAULTY and leaves the record, a pending busy-out becomes BUSY OUT, and ELEMENT FAULTY is queued (log entry
22). A RELEASE of the origin path does the same, and a cord that no other RELEASE names becomes FREE (R4), its two
points' entries kept with the record (log entry 19). A coin order has its outcome (R132, R133): COIN COLLECT adds
the deposits to the origin line's meter, a count that passes 9,999,999 wrapping with ROLLOVER (R137); one that
fails, and a COIN REFUND that fails, queues COIN FAULT with the action and the deposits, ahead of the ROLLOVER (log
entry 55). The last order of a line's origin search fails (R65): an operated plane crosspoint is released, and
otherwise the search is retried once; with no path, or at the second failure, it ends CONGESTED, the record FREE and
the line queued again, or marked where the queue is full (R51), with no event armed (log entry 50). A junction's
search is not retried: the junction is IDLE and FAULTY (R25, R38), the record FREE without a notice. The last order
of an extension to a line fails (R70): the called line leaves the call (R25), CALLED CLEAR is disarmed (R22), and
RING OFF and the release of the operated terminating crosspoint are placed, while the cord stays as it is, which is
the model's reading (log entry 21). One to a junction has nothing to reverse: SET FAILED is queued at once with the
route of the EXTEND, which is the model's reading (log entry 27), and the call is DIALLING (R92). The last RELEASE
of a call fails: CLEARED enters all the same. RING ON, RING OFF and REVERSE fail (R71, R79): RING FAULT is queued
with the action, the call stays ANSWERED, and one in extension enters RINGING (R69). The names of the orders are the
model's (log entry 15). -/
def Obligations.OperateFails : Prop :=
  (∀ (s : State) (o : Order) (lt n : Nat) (i : Instr), TablesOk s.part → o.act = .operate (.line lt n) →
    dispatched o.act.unit s.part = some o →
    i = .driveConfirmation o.act.unit o.id false ∨ i = .driveTimeout o.act.unit o.id →
    (call o.call s.part).active = true → (call o.call s.part).reswitch = false →
    callOfElem (.fl n) s.part = some o.call → (call o.call s.part).set.tfl ≠ some n →
    (call o.call s.part).new.tfl ≠ some n →
    (∀ y, y ∈ (call o.call s.part).xps → y.2 ≠ .operated) → MaintRoom s.part →
    let orders := s.part.orders.filter (fun x => decide (x.id ≠ o.id))
    (∃ x, x ∈ orders ∧ x.call = o.call) →
    ∃ t, exec i s = .next t ∧ t.pending = s.pending ∧ t.part.orders = orders ∧
      call o.call t.part =
        { (call o.call s.part).without (.fl n) with
          xps := (call o.call s.part).xps.filter (fun y => decide (y.1 ≠ .line lt n))
          opFailed := true } ∧
      (∀ x, x ≠ o.call → call x t.part = call x s.part) ∧
      elem (.fl n) t.part =
        { occ := .faulty
          admin := if (elem (.fl n) s.part).admin = .busyOutPending then .busyOut
            else (elem (.fl n) s.part).admin } ∧
      (∀ e, e ≠ .fl n → elem e t.part = elem e s.part) ∧
      noticesDue .maint t.part = noticesDue .maint s.part ++
        [.maint .elementFaulty 0 ([b8 0] ++ b16 n ++ [b8 o.call])] ∧
      t.part = { s.part with
        orders := t.part.orders, calls := t.part.calls, net.fls := t.part.net.fls
        m.io := t.part.m.io }) ∧
  (∀ (s : State) (o : Order) (i : Instr) (ok : Bool) (cord lt : Nat) (k : Coin) (c : Ctl), TablesOk s.part →
    dispatched o.act.unit s.part = some o →
    (i = .driveConfirmation o.act.unit o.id ok ∨ i = .driveTimeout o.act.unit o.id ∧ ok = false) →
    (call o.call s.part).op = .release1 → (call o.call s.part).relPending = false →
    (call o.call s.part).coin = some k → (call o.call s.part).origin = some (.line lt) →
    (call o.call s.part).owner = some c → (io .maint s.part).queue.length < 31 → s.part.m.held = [] →
    s.part.supply.battery = .normal → s.part.meters.save = none →
    o.act = .collect cord ∨ o.act = .refund cord →
    let collected := o.act = .collect cord ∧ k.deposits ≠ 0
    let total := (meter lt s.part).count + k.deposits
    ∃ t, exec i s = .next t ∧ t.pending = s.pending ∧
      (collected → meter lt t.part =
        { meter lt s.part with
          count := total % 10000000, rollover := (meter lt s.part).rollover || decide (10000000 ≤ total) }) ∧
      (¬ collected → meter lt t.part = meter lt s.part) ∧
      (∀ x, x ≠ lt → meter x t.part = meter x s.part) ∧
      t.part.meters = { s.part.meters with
        entries := t.part.meters.entries
        dirty :=
          if collected ∧ lt ∉ s.part.meters.dirty ∧ (meter lt s.part).nvFault = false then
            s.part.meters.dirty ++ [lt]
          else s.part.meters.dirty } ∧
      noticesDue .maint t.part =
        noticesDue .maint s.part ++
          (if ok then []
            else
              [.maint .coinFault 0
                ([b8 o.call] ++ b16 lt ++ [if o.act = .collect cord then 0 else 1] ++ b16 k.deposits)]) ++
          (if collected ∧ 10000000 ≤ total then [.maint .rollover 0 (b16 lt)] else [])) ∧
  (∀ (s : State) (o : Order) (i : Instr) (x : Xp) (n : Nat), TablesOk s.part → o.act = .release x →
    dispatched o.act.unit s.part = some o →
    i = .driveConfirmation o.act.unit o.id false ∨ i = .driveTimeout o.act.unit o.id →
    (call o.call s.part).reswitch = false → callOfElem (.fl n) s.part = some o.call →
    (call o.call s.part).set.tfl ≠ some n → (call o.call s.part).new.tfl ≠ some n →
    (∀ y, y ∈ (call o.call s.part).xps → y.2 ≠ .operated) → MaintRoom s.part →
    let orders := s.part.orders.filter (fun y => decide (y.id ≠ o.id))
    (∃ y, y ∈ orders ∧ y.call = o.call) →
    let left :=
      { (call o.call s.part).without (.fl n) with
        xps := (call o.call s.part).xps.filter (fun y => decide (y.1 ≠ x)), opFailed := true }
    let failed := fun t : State =>
      t.pending = s.pending ∧ t.part.orders = orders ∧
        (∀ y, y ≠ o.call → call y t.part = call y s.part) ∧
        elem (.fl n) t.part =
          { occ := .faulty
            admin := if (elem (.fl n) s.part).admin = .busyOutPending then .busyOut
              else (elem (.fl n) s.part).admin } ∧
        noticesDue .maint t.part = noticesDue .maint s.part ++
          [.maint .elementFaulty 0 ([b8 0] ++ b16 n ++ [b8 o.call])] ∧
        t.part = { s.part with
          orders := t.part.orders, calls := t.part.calls, net.fls := t.part.net.fls
          net.cords := t.part.net.cords, orig.request := t.part.orig.request, m.io := t.part.m.io }
    (∀ lt, x = .line lt n →
      ∃ t, exec i s = .next t ∧ failed t ∧ call o.call t.part = left ∧
        t.part.orig.request = s.part.orig.request ∧ ∀ e, e ≠ .fl n → elem e t.part = elem e s.part) ∧
    (∀ cord, x = .plane n cord .o → (call o.call s.part).set.cord = some cord →
      (elem (.cord cord) s.part).occ = .releasing →
      (∀ y z, y ∈ orders → y.call = o.call → y.act = .release z → .cord cord ∉ z.elems) →
      ∃ t, exec i s = .next t ∧ failed t ∧
        call o.call t.part =
          { left.without (.cord cord) with
            lastO := some (point (2048 + cord) s.part), lastT := some (point (2144 + cord) s.part) } ∧
        elem (.cord cord) t.part =
          { occ := .free
            admin := if (elem (.cord cord) s.part).admin = .busyOutPending then .busyOut
              else (elem (.cord cord) s.part).admin } ∧
        (∀ e, e ≠ .fl n → e ≠ .cord cord → elem e t.part = elem e s.part) ∧
        t.part.orig.request =
          if avail (.cord cord) t.part then (chooseWork t.part).map (Work.worst t.part)
          else s.part.orig.request)) ∧
  (∀ (s : State) (o : Order) (i : Instr) (lt n cord : Nat) (again : Bool), TablesOk s.part →
    dispatched o.act.unit s.part = some o →
    i = .driveConfirmation o.act.unit o.id false ∨ i = .driveTimeout o.act.unit o.id →
    (∀ x ∈ s.part.orders, x.call = o.call → x.id = o.id) → MaintRoom s.part →
    let r := call o.call s.part
    let orders := s.part.orders.filter (fun x => decide (x.id ≠ o.id))
    let faulty := modElem (.fl n)
      (fun x => { occ := .faulty, admin := if x.admin = .busyOutPending then .busyOut else x.admin }) s.part
    let freed := modElem (.cord cord)
      (fun x => { occ := .free, admin := if x.admin = .busyOutPending then .busyOut else x.admin }) faulty
    let told := fun t : Part => noticesDue .maint t = noticesDue .maint s.part ++
      [.maint .elementFaulty 0 ([b8 0] ++ b16 n ++ [b8 o.call])]
    r.state = .settingOrigin → r.relPending = false → r.reswitch = false → r.op = .origin again →
    r.origin = some (.line lt) → lt < 2048 → r.old = {} → r.new = {} →
    (elem (.cord cord) s.part).occ ≠ .faulty →
    (o.act = .operate (.line lt n) → r.set = { fl := some n, cord := some cord } →
      r.xps = [(.line lt n, .operating), (.plane n cord .o, .operated)] →
      callOfElem (.fl n) s.part = some o.call →
      ∃ t, exec i s = .next t ∧ t.pending = s.pending ∧ told t.part ∧
        call o.call t.part =
          { r with
            set := { cord := some cord }, xps := [(.plane n cord .o, .releasing)]
            op := .originBack again, opFailed := false, yielded := false } ∧
        (∀ x, x ≠ o.call → call x t.part = call x s.part) ∧
        t.part.orders = orders ++
          [{ id := s.part.serial, call := o.call, act := .release (.plane n cord .o) }] ∧
        (∀ e, elem e t.part =
          if e = .cord cord then { elem e s.part with occ := .releasing } else elem e faulty) ∧
        t.part = { s.part with
          orders := t.part.orders, serial := s.part.serial + 1, calls := t.part.calls
          net.fls := t.part.net.fls, net.cords := t.part.net.cords, m.io := t.part.m.io }) ∧
    (∀ x, o.act = .operate x →
      (x = .plane n cord .o ∧ r.set = { fl := some n, cord := some cord } ∧
          callOfElem (.fl n) s.part = some o.call ∧
          r.xps = [(.line lt n, .operated), (x, .operating)]) ∨
        ((x = .line lt n ∨ x = .plane n cord .o) ∧ r.set = { cord := some cord } ∧
          callOfElem (.fl n) s.part = none ∧ r.xps = [(x, .operating)]) →
      (∀ k c, again = false → findOriginPath (lt / 64) freed = some (k, c) →
        let m := 12 * (lt / 64) + k
        ∃ t, exec i s = .next t ∧ t.pending = s.pending ∧ told t.part ∧
          call o.call t.part =
            { r with
              set := { fl := some m, cord := some c }
              xps := [(.line lt m, .operating), (.plane m c .o, .operating)]
              op := .origin true, opFailed := false, yielded := false
              lastO := some (point (2048 + cord) s.part), lastT := some (point (2144 + cord) s.part) } ∧
          (∀ x, x ≠ o.call → call x t.part = call x s.part) ∧
          t.part.orders = orders ++
            [{ id := s.part.serial, call := o.call, act := .operate (.line lt m) },
              { id := s.part.serial + 1, call := o.call, act := .operate (.plane m c .o) }] ∧
          (∀ e, elem e t.part =
            if e = .fl m ∨ e = .cord c then { elem e freed with occ := .reserved } else elem e freed) ∧
          (∀ f, frame f t.part =
            if f = lt / 64 then { frame f s.part with hunt := (k + 1) % 12 } else frame f s.part) ∧
          (∀ p, point p t.part =
            if p = 2048 + c ∨ p = 2144 + c ∨ p = 2240 + c then {} else point p s.part) ∧
          t.part.orig = { s.part.orig with
            request :=
              if avail (.cord cord) freed then (chooseWork freed).map (Work.worst freed)
              else s.part.orig.request } ∧
          t.part = { s.part with
            orders := t.part.orders, serial := s.part.serial + 2, calls := t.part.calls
            net := { t.part.net with
              lines := s.part.net.lines, routes := s.part.net.routes, junctions := s.part.net.junctions }
            scan.points := t.part.scan.points, orig := t.part.orig, m.io := t.part.m.io }) ∧
      (again = true ∨ findOriginPath (lt / 64) freed = none → r.originHeld = true →
        (line lt s.part).admin = .inService → (line lt s.part).pendCls = none →
        (line lt s.part).cls ≠ .unequipped →
        ((point lt s.part).accepted = .open_ → (line lt s.part).sup = .originating ∧
          ∀ x, x ≠ o.call → (call x s.part).namesParty (.line lt) = false) →
        ∃ t, exec i s = .next t ∧ t.pending = s.pending ∧ told t.part ∧
          call o.call t.part = {} ∧ (∀ x, x ≠ o.call → call x t.part = call x s.part) ∧
          t.part.orders = orders ∧ (∀ e, elem e t.part = elem e freed) ∧
          (∀ x, line x t.part =
            if x = lt ∧ 64 ≤ s.part.orig.queue.length then { line x s.part with marked := true }
            else line x s.part) ∧
          (∀ p, point p t.part = if p = lt then { point p s.part with pending := none } else point p s.part) ∧
          t.part.orig = { s.part.orig with
            queue :=
              if s.part.orig.queue.length < 64 then
                s.part.orig.queue ++ [{ origin := .line lt, wait := 0, limit := 10 * s.part.timers.waitLimit }]
              else s.part.orig.queue
            request := (chooseWork t.part).map (Work.worst t.part) } ∧
          t.part = { s.part with
            orders := orders, calls := t.part.calls
            net := { t.part.net with
              frames := s.part.net.frames, routes := s.part.net.routes, junctions := s.part.net.junctions }
            scan.points := t.part.scan.points, orig := t.part.orig, m.io := t.part.m.io }))) ∧
  (∀ (s : State) (o : Order) (i : Instr) (j cord : Nat) (again : Bool), TablesOk s.part →
    dispatched o.act.unit s.part = some o →
    i = .driveConfirmation o.act.unit o.id false ∨ i = .driveTimeout o.act.unit o.id →
    (∀ x ∈ s.part.orders, x.call = o.call → x.id = o.id) → MaintRoom s.part →
    let r := call o.call s.part
    r.state = .settingOrigin → r.relPending = false → r.reswitch = false → r.op = .origin again →
    r.origin = some (.junction j) → r.originHeld = true → r.term = none → j < 48 →
    r.set = { junction := some j, cord := some cord } → r.old = {} → r.new = {} →
    o.act = .operate (.junctor j cord .o) → r.xps = [(.junctor j cord .o, .operating)] →
    (elem (.cord cord) s.part).occ ≠ .faulty → callOfElem (.junction j) s.part = some o.call →
    (junction j s.part).sup = .originating → (∀ w ∈ s.part.orig.queue, w.origin ≠ .junction j) →
    ∃ t, exec i s = .next t ∧ t.pending = s.pending ∧
      noticesDue .maint t.part = noticesDue .maint s.part ++
        [.maint .elementFaulty 0 ([b8 1] ++ b16 j ++ [b8 o.call])] ∧
      call o.call t.part = {} ∧ (∀ x, x ≠ o.call → call x t.part = call x s.part) ∧
      (∀ x, junction x t.part =
        if x = j then
          { junction x s.part with
            sup := .idle, marked := false
            elem :=
              { occ := .faulty
                admin := if (elem (.junction x) s.part).admin = .busyOutPending then .busyOut
                  else (elem (.junction x) s.part).admin } }
        else junction x s.part) ∧
      (∀ x, elem (.cord x) t.part =
        if x = cord then
          { occ := .free
            admin := if (elem (.cord x) s.part).admin = .busyOutPending then .busyOut
              else (elem (.cord x) s.part).admin }
        else elem (.cord x) s.part) ∧
      (∀ p, point p t.part =
        if p = 2336 + j then { point p s.part with pending := none } else point p s.part) ∧
      t.part.orig = { s.part.orig with request := (chooseWork t.part).map (Work.worst t.part) } ∧
      t.part = { s.part with
        orders := s.part.orders.filter (fun x => decide (x.id ≠ o.id)), calls := t.part.calls
        net.junctions := t.part.net.junctions, net.cords := t.part.net.cords
        scan.points := t.part.scan.points, orig := t.part.orig, m.io := t.part.m.io }) ∧
  ∀ (s : State) (o : Order) (i : Instr) (c : Ctl), TablesOk s.part →
    dispatched o.act.unit s.part = some o →
    i = .driveConfirmation o.act.unit o.id false ∨ i = .driveTimeout o.act.unit o.id →
    (call o.call s.part).owner = some c → (call o.call s.part).pend = [] →
    let r := call o.call s.part
    let orders := s.part.orders.filter (fun x => decide (x.id ≠ o.id))
    let alone := ∀ x ∈ s.part.orders, x.call = o.call → x.id = o.id
    let ended := { r with op := .idle, opFailed := false, yielded := false }
    let spent := fun e => ({
      occ := .faulty
      admin := if (elem e s.part).admin = .busyOutPending then .busyOut else (elem e s.part).admin } : Element)
    let told := fun (d : List Byte) (t : Part) => noticesDue .maint t = noticesDue .maint s.part ++
      [.maint .elementFaulty 0 (d ++ [b8 o.call])]
    let owned := fun (l : List Notice) (t : Part) => noticesDue (.ctl c) t = noticesDue (.ctl c) s.part ++ l
    (∀ lo lt n m cord, alone → MaintRoom s.part → r.relPending = false → r.reswitch = false →
      r.lineSpeaks = false → o.act = .operate (.line lt n) → r.state = .settingTerm → r.op = .extension →
      r.origin = some (.line lo) → r.term = some (.line lt) → lt < 2048 → cord < 96 → m ≠ n →
      r.set = { fl := some m, cord := some cord, tfl := some n, ring := true } → r.old = {} → r.new = {} →
      r.xps =
        [(.line lo m, .operated), (.plane m cord .o, .operated), (.plane n cord .t, .operated),
          (.line lt n, .operating)] →
      (elem (.fl m) s.part).occ ≠ .faulty → (elem (.cord cord) s.part).occ ≠ .faulty →
      callOfElem (.fl n) s.part = some o.call → callOfElem (.cord cord) s.part = some o.call →
      (line lt s.part).sup = .inCall o.call → (line lt s.part).admin = .inService →
      (line lt s.part).pendCls = none →
      let shown := point (2144 + cord) s.part
      ∃ t, exec i s = .next t ∧ t.pending = s.pending ∧ told ([b8 0] ++ b16 n) t.part ∧
        call o.call t.part =
          { r with
            term := none, set := { fl := some m, cord := some cord }
            xps :=
              [(.line lo m, .operated), (.plane m cord .o, .operated), (.plane n cord .t, .releasing)]
            op := .reversal, opFailed := false, yielded := false } ∧
        (∀ x, x ≠ o.call → call x t.part = call x s.part) ∧
        t.part.orders = orders ++
          [{ id := s.part.serial, call := o.call, act := .ringOff cord },
            { id := s.part.serial + 1, call := o.call, act := .release (.plane n cord .t) }] ∧
        elem (.fl n) t.part = spent (.fl n) ∧ (∀ e, e ≠ .fl n → elem e t.part = elem e s.part) ∧
        (∀ x, line x t.part =
          if x = lt then
            { line x s.part with sup := if shown.accepted = .loop then .parked else .idle, marked := false }
          else line x s.part) ∧
        (∀ p, point p t.part =
          if p = lt then { shown with pulses := 0, pending := none }
          else if p = 2144 + cord then { shown with pending := none }
          else point p s.part) ∧
        t.part = { s.part with
          orders := t.part.orders, serial := s.part.serial + 2, calls := t.part.calls
          net.fls := t.part.net.fls, net.lines := t.part.net.lines, scan.points := t.part.scan.points
          m.io := t.part.m.io }) ∧
    (∀ lo j m cord rt, alone → MaintRoom s.part → (io (.ctl c) s.part).queue.length < 64 →
      r.relPending = false → r.reswitch = false → r.lineSpeaks = false →
      o.act = .operate (.junctor j cord .t) → r.state = .settingTerm → r.op = .extension →
      r.origin = some (.line lo) → r.term = some (.junction j) → lo < 2048 → j < 48 → cord < 96 →
      r.set = { fl := some m, cord := some cord, tjunction := some j } → r.old = {} → r.new = {} →
      r.xps =
        [(.line lo m, .operated), (.plane m cord .o, .operated), (.junctor j cord .t, .operating)] →
      (elem (.fl m) s.part).occ ≠ .faulty → (elem (.cord cord) s.part).occ ≠ .faulty →
      callOfElem (.junction j) s.part = some o.call → callOfElem (.cord cord) s.part = some o.call →
      (junction j s.part).sup = .idle → (∀ w ∈ s.part.orig.queue, w.origin ≠ .junction j) →
      (∀ w ∈ s.part.orig.rehunts, w.call ≠ o.call) → r.dest = some (.route rt) →
      (line lo s.part).sup = .inCall o.call → (point (2048 + cord) s.part).accepted = .loop →
      (point (2048 + cord) s.part).pulses = 0 →
      ∃ t, exec i s = .next t ∧ t.pending = s.pending ∧ told ([b8 1] ++ b16 j) t.part ∧
        owned [.call .setFailed o.call ([b8 o.call] ++ [1] ++ b16 rt)] t.part ∧
        call o.call t.part =
          { ended with
            state := .dialling, claim := 0, band := none, dest := none, term := none
            set := { fl := some m, cord := some cord }
            xps := [(.line lo m, .operated), (.plane m cord .o, .operated)]
            timer := some
              { kind := .interdigit
                limit := 10 *
                  (match s.part.cal.profile with
                    | .normal => s.part.timers.interNormal
                    | .heavy => s.part.timers.interHeavy) } } ∧
        (∀ x, x ≠ o.call → call x t.part = call x s.part) ∧
        (∀ x, junction x t.part =
          if x = j then { junction x s.part with marked := false, elem := spent (.junction x) }
          else junction x s.part) ∧
        (∀ p, point p t.part =
          if p = lo ∨ p = 2048 + cord ∨ p = 2144 + cord ∨ p = 2336 + j then
            { point p s.part with pending := none }
          else point p s.part) ∧
        t.part = { s.part with
          orders := orders, calls := t.part.calls, net.junctions := t.part.net.junctions
          scan.points := t.part.scan.points, a := t.part.a, b := t.part.b, m.io := t.part.m.io }) ∧
    (∀ x n, alone → MaintRoom s.part → (io (.ctl c) s.part).queue.length < 64 → r.relPending = false →
      r.reswitch = false → o.act = .release x → r.op = .release2 → r.state = .releasing → x.blame = .fl n →
      callOfElem (.fl n) s.part = none ∨ callOfElem (.fl n) s.part = some o.call →
      ∃ t, exec i s = .next t ∧ t.pending = s.pending ∧ told ([b8 0] ++ b16 n) t.part ∧
        owned [.call .cleared o.call (noticeData o.call .cleared [] s.part)] t.part ∧
        call o.call t.part = {} ∧ t.part.orders = orders ∧ elem (.fl n) t.part = spent (.fl n)) ∧
    ∀ cord code, (io (.ctl c) s.part).queue.length < 63 →
      (o.act = .ringOn cord ∧ code = 0) ∨ (o.act = .ringOff cord ∧ code = 1) ∨
        (o.act = .reverse cord ∧ code = 2) →
      let faulted := Notice.call .ringFault o.call [b8 o.call, code]
      ((∃ x, x ∈ orders ∧ x.call = o.call) →
        ∃ t, exec i s = .next t ∧ t.pending = s.pending ∧ owned [faulted] t.part ∧
          t.part = { s.part with orders := orders, a := t.part.a, b := t.part.b }) ∧
      (alone → r.relPending = false → r.op = .answer →
        ∃ t, exec i s = .next t ∧ t.pending = s.pending ∧ owned [faulted] t.part ∧
          call o.call t.part = { ended with claim := 0 } ∧
          (∀ x, x ≠ o.call → call x t.part = call x s.part) ∧
          t.part = { s.part with
            orders := orders, calls := t.part.calls, a := t.part.a, b := t.part.b }) ∧
      (∀ lo lt, alone → r.relPending = false → r.reswitch = false → r.lineSpeaks = false →
        r.op = .extension → r.opFailed = false → code = 0 → r.state = .settingTerm →
        r.origin = some (.line lo) → r.term = some (.line lt) → lt ≠ lo → lo < 2048 → lt < 2048 → cord < 96 →
        r.set.cord = some cord → r.new = {} → (∀ w ∈ s.part.orig.rehunts, w.call ≠ o.call) →
        (line lo s.part).sup = .inCall o.call → (line lt s.part).sup = .inCall o.call →
        callOfElem (.cord cord) s.part = some o.call → (point (2048 + cord) s.part).accepted = .loop →
        (point (2144 + cord) s.part).accepted = .open_ →
        ∃ t, exec i s = .next t ∧ t.pending = s.pending ∧
          owned [faulted, .call .ringing o.call ([b8 o.call] ++ b16 lt ++ [b8 cord])] t.part ∧
          call o.call t.part =
            { ended with
              state := .ringing, claim := 1, dest := none
              timer := some { kind := .noAnswer, limit := 10 * s.part.timers.noAnswer } } ∧
          (∀ x, x ≠ o.call → call x t.part = call x s.part) ∧
          t.part = { s.part with
            orders := orders, calls := t.part.calls, scan.points := t.part.scan.points
            a := t.part.a, b := t.part.b })

/-- The arbiter (R59, R60, R61): it selects the waiting client of the highest priority, and among those of one
priority the first in the cyclic order after the client last granted at it; that client is granted where the free
places hold its worst case, with 5 places more unless it is the release path, and otherwise the release path in its
place where its own worst case fits; otherwise no client. Each client's worst case is that of R59. ARBITER_GRANT:
with no client to grant nothing changes; the release path's grant takes the head of the release wait list, with a
claim of 5, and its first step (R80); the server's queues a marked origin with the wait limit in force (R50), makes
a re-hunt or fails its extension (R57) with SET FAILED (R92), which carries the route of the EXTEND (log entry 27),
or is returned unused where the work needs a larger claim or nothing remains (R48), and in each case the server
tests for its next request (R47). The name of the re-hunt's order is the model's (log entry 15). -/
def Obligations.ArbiterKeepsPlacesForReleases : Prop :=
  (∀ (s : Part) (c : Client), s.timers.prioServer ≤ 3 → s.timers.prioA ≤ 3 → s.timers.prioB ≤ 3 →
    s.timers.prioRelease ≤ 3 → grantee s = some c → claims s ≤ 64 →
    PlacesEnough c s ∧
      ∃ d, Selected d s ∧ (c = d ∨ c = .release ∧ d ≠ .release ∧ ¬ PlacesEnough d s)) ∧
  (∀ (s : Part), s.timers.prioServer ≤ 3 → s.timers.prioA ≤ 3 → s.timers.prioB ≤ 3 →
    s.timers.prioRelease ≤ 3 → grantee s = none → claims s ≤ 64 →
    ∀ d, Selected d s → ¬ PlacesEnough d s ∧ ¬ PlacesEnough .release s) ∧
  (∀ (s : Part),
    requestOf .server s = s.orig.request ∧
    (∀ c, (ctl c s).extend = none → requestOf (.ctl c) s = none) ∧
    (∀ c e, (ctl c s).extend = some e →
      requestOf (.ctl c) s =
        some
          (match e.allow, (call e.call s).origin with
            | true, some (.line _) => 7
            | _, some (.junction _) => (match e.dest with | .line _ => 4 | .route _ => 2)
            | _, _ => (match e.dest with | .line _ => 3 | .route _ => 1))) ∧
    (s.arb.releaseWait = [] → requestOf .release s = none) ∧
    ∀ id rest, s.arb.releaseWait = id :: rest → requestOf .release s = some (5 - (call id s).claim)) ∧
  ∀ (s : State), TablesOk s.part →
    let served := s.part.arb.last.set s.part.timers.prioServer .server
    (grantee s.part = none → Makes .arbiterGrant s s.part) ∧
    (∀ id rest, grantee s.part = some .release → s.part.arb.releaseWait = id :: rest →
      Makes .arbiterGrant s
        (releaseStep1 id
          (modCall id (fun r => { r with claim := max r.claim 5 })
            { s.part with
              arb := { last := s.part.arb.last.set s.part.timers.prioRelease .release, releaseWait := rest } }))) ∧
    (∀ w, grantee s.part = some .server → s.part.orig.request = some w →
      (chooseWork s.part = none →
        Makes .arbiterGrant s { s.part with arb.last := served, orig.request := none }) ∧
      (∀ x, chooseWork s.part = some x → w < x.need s.part →
        Makes .arbiterGrant s
          { s.part with
            arb.last := served, orig.request := (chooseWork s.part).map (Work.worst s.part) }) ∧
      (∀ x, chooseWork s.part = some (.enqueue x) →
        ∃ t, exec .arbiterGrant s = .next t ∧ t.pending = s.pending ∧
          t.part.orig =
            { s.part.orig with
              queue := s.part.orig.queue ++
                [{ origin := x, wait := 0, limit := 10 * s.part.timers.waitLimit }]
              pointer :=
                if isMarked x s.part then
                  (match x with | .line lt => lt | .junction j => 2336 + j)
                else s.part.orig.pointer
              request := (chooseWork t.part).map (Work.worst t.part) } ∧
          (∀ lt, line lt t.part =
            if x = .line lt then { line lt s.part with marked := false } else line lt s.part) ∧
          (∀ j, junction j t.part =
            if x = .junction j then { junction j s.part with marked := false } else junction j s.part) ∧
          t.part = { s.part with
            net.lines := t.part.net.lines, net.junctions := t.part.net.junctions, orig := t.part.orig
            arb.last := served }) ∧
      (∀ x cord, chooseWork s.part = some (.rehunt x) → 1 + (call x.call s.part).answerPlaces ≤ w →
        (call x.call s.part).set.cord = some cord →
        let r := call x.call s.part
        let hunted := hunt x.route ((x.junction + 1) % 48) (fun k => decide (k = cord / 8)) s.part
        (∀ j, hunted = some j →
          ∃ t, exec .arbiterGrant s = .next t ∧ t.pending = s.pending ∧
            call x.call t.part =
              { r with
                claim := 1 + r.answerPlaces, op := .extension, opFailed := false, yielded := false
                set := { r.set with tjunction := some j }, term := some (.junction j), state := .settingTerm
                xps := setXp (.junctor j cord .t) .operating r.xps } ∧
            (∀ y, y ≠ x.call → call y t.part = call y s.part) ∧
            t.part.orders = s.part.orders ++
              [{ id := s.part.serial, call := x.call, act := .operate (.junctor j cord .t) }] ∧
            t.part.orig.rehunts =
              s.part.orig.rehunts.map (fun y => if y.call = x.call then { y with made := true } else y) ∧
            (junction j t.part).elem.occ = .reserved ∧
            route x.route t.part = { route x.route s.part with hunt := (j + 1) % 48 } ∧
            t.part.orig.request = (chooseWork t.part).map (Work.worst t.part)) ∧
        (∀ c rt, hunted = none → r.dest = some (.route rt) → r.owner = some c → r.pend = [] →
          (io (.ctl c) s.part).queue.length < 64 →
          r.origin = none ∨ (∃ lo, r.origin = some (.line lo) ∧ lo < 2048 ∧ (line lo s.part).sup = .inCall x.call) →
          r.lineSpeaks = false → r.new = {} → cord < 96 → callOfElem (.cord cord) s.part = some x.call →
          (point (2048 + cord) s.part).accepted = .loop → (point (2048 + cord) s.part).pulses = 0 →
          ∃ t, exec .arbiterGrant s = .next t ∧ t.pending = s.pending ∧
            (call x.call t.part).state = .dialling ∧ (call x.call t.part).claim = 0 ∧
            (call x.call t.part).band = none ∧
            t.part.orig.rehunts = s.part.orig.rehunts.filter (fun y => decide (y.call ≠ x.call)) ∧
            noticesDue (.ctl c) t.part = noticesDue (.ctl c) s.part ++
              [.call .setFailed x.call ([b8 x.call] ++ [1] ++ b16 rt)] ∧
            t.part.orig.request = (chooseWork t.part).map (Work.worst t.part))))

/-- ARBITER_GRANT that serves a line (R48, R49, R60, R61, R63): the lowest FREE record is SETTING ORIGIN with
its owner, charged party and coin context and a claim of 2; the frame link and the lowest cord of the first
plane from the frame's hunt pointer are RESERVED, the pointer stands after that plane, the cord's points are
reset, and the line crosspoint and the plane crosspoint are ordered, in this order; the server's pointer stands at a
marked line, the server is the one last granted at its priority, and it tests for its next request. A line that has
shown OPEN for 50 scans by then is released with CALLER CLEARED when its orders are placed (log entry 49). ARBITER_GRANT
that serves an incoming junction (R64): the junction and the lowest available cord of its own plane are RESERVED, and its
junctor crosspoint alone is ordered; the record has no charged party and no coin context. Beside the two: the
path of R63, the handling controller of R44, the tests of R45 and R46, and the choice of R48, which takes the marked
origins in scan order from the point after the rotating pointer, cyclically (R19). The names of the orders are the
model's (log entry 15). -/
def Obligations.GrantServesALine : Prop :=
  (∀ (s : State) (lt id k cord : Nat), TablesOk s.part → grantee s.part = some .server →
    s.part.orig.request = some 2 → chooseWork s.part = some (.serve (.line lt)) → lt < 2048 →
    lowestFree s.part = some id → findOriginPath (lt / 64) s.part = some (k, cord) →
    (line lt s.part).sup = .originating → callOf (.line lt) s.part = none →
    let n := 12 * (lt / 64) + k
    let cleared := (point lt s.part).accepted = .open_ ∧ 50 ≤ (point lt s.part).duration ∧
      s.part.supply.battery ≠ .rideThrough
    (cleared → Unawaited id s.part) →
    ∃ t, exec .arbiterGrant s = .next t ∧ t.pending = s.pending ∧
      call id t.part =
        { state := .settingOrigin, owner := handling (.line lt) s.part, origin := some (.line lt)
          originHeld := true, charged := some lt, claim := 2, op := .origin false
          coin := if (line lt s.part).cls = .coin then some {} else none
          set := { fl := some n, cord := some cord }
          xps := [(.line lt n, .operating), (.plane n cord .o, .operating)]
          reason := if cleared then some .callerCleared else none, relPending := decide cleared } ∧
      (∀ x, x ≠ id → call x t.part = call x s.part) ∧
      t.part.orders = s.part.orders ++
        [{ id := s.part.serial, call := id, act := .operate (.line lt n) },
          { id := s.part.serial + 1, call := id, act := .operate (.plane n cord .o) }] ∧
      elem (.fl n) t.part = { elem (.fl n) s.part with occ := .reserved } ∧
      elem (.cord cord) t.part = { elem (.cord cord) s.part with occ := .reserved } ∧
      (∀ e, e ≠ .fl n → e ≠ .cord cord → elem e t.part = elem e s.part) ∧
      frame (lt / 64) t.part = { frame (lt / 64) s.part with hunt := (k + 1) % 12 } ∧
      (∀ f, f ≠ lt / 64 → frame f t.part = frame f s.part) ∧
      line lt t.part = { line lt s.part with marked := false } ∧
      (∀ x, x ≠ lt → line x t.part = line x s.part) ∧
      t.part.orig.queue = s.part.orig.queue.filter (fun w => decide (w.origin ≠ .line lt)) ∧
      t.part.orig.pointer = (if (line lt s.part).marked then lt else s.part.orig.pointer) ∧
      t.part.orig.request = (chooseWork t.part).map (Work.worst t.part) ∧
      t.part.arb.last = s.part.arb.last.set s.part.timers.prioServer .server ∧
      point (2048 + cord) t.part = {} ∧ point (2144 + cord) t.part = {} ∧ point (2240 + cord) t.part = {} ∧
      point lt t.part =
        { point lt s.part with
          pending :=
            if (point lt s.part).accepted = .open_ ∧ ¬ cleared then some .callerClear else none } ∧
      (∀ p, p ≠ lt → p ≠ 2048 + cord → p ≠ 2144 + cord → p ≠ 2240 + cord →
        point p t.part = point p s.part) ∧
      t.part = { s.part with
        net := { t.part.net with routes := s.part.net.routes, junctions := s.part.net.junctions }
        scan.points := t.part.scan.points, calls := t.part.calls
        orders := t.part.orders, serial := s.part.serial + 2, arb.last := t.part.arb.last
        orig := { t.part.orig with rehunts := s.part.orig.rehunts } }) ∧
  (∀ (s : State) (j id cord : Nat), TablesOk s.part → grantee s.part = some .server →
    s.part.orig.request = some 2 → chooseWork s.part = some (.serve (.junction j)) → j < 48 →
    lowestFree s.part = some id → cord < 96 → cord / 8 = j % 12 → avail (.cord cord) s.part = true →
    (∀ x, x / 8 = j % 12 → x < cord → avail (.cord x) s.part = false) →
    (junction j s.part).sup = .originating → callOf (.junction j) s.part = none →
    let cleared := (point (2336 + j) s.part).accepted = .open_ ∧ 50 ≤ (point (2336 + j) s.part).duration ∧
      s.part.supply.battery ≠ .rideThrough
    (cleared → Unawaited id s.part) →
    ∃ t, exec .arbiterGrant s = .next t ∧ t.pending = s.pending ∧
      call id t.part =
        { state := .settingOrigin, owner := handling (.junction j) s.part, origin := some (.junction j)
          originHeld := true, claim := 2, op := .origin false
          set := { junction := some j, cord := some cord }
          xps := [(.junctor j cord .o, .operating)]
          reason := if cleared then some .callerCleared else none, relPending := decide cleared } ∧
      (∀ x, x ≠ id → call x t.part = call x s.part) ∧
      t.part.orders = s.part.orders ++
        [{ id := s.part.serial, call := id, act := .operate (.junctor j cord .o) }] ∧
      junction j t.part =
        { junction j s.part with
          marked := false, elem := { (junction j s.part).elem with occ := .reserved } } ∧
      (∀ x, x ≠ j → junction x t.part = junction x s.part) ∧
      elem (.cord cord) t.part = { elem (.cord cord) s.part with occ := .reserved } ∧
      (∀ x, x ≠ cord → elem (.cord x) t.part = elem (.cord x) s.part) ∧
      t.part.orig.queue = s.part.orig.queue.filter (fun w => decide (w.origin ≠ .junction j)) ∧
      t.part.orig.pointer = (if (junction j s.part).marked then 2336 + j else s.part.orig.pointer) ∧
      t.part.orig.request = (chooseWork t.part).map (Work.worst t.part) ∧
      t.part.arb.last = s.part.arb.last.set s.part.timers.prioServer .server ∧
      point (2048 + cord) t.part = {} ∧ point (2144 + cord) t.part = {} ∧ point (2240 + cord) t.part = {} ∧
      point (2336 + j) t.part =
        { point (2336 + j) s.part with
          pending :=
            if (point (2336 + j) s.part).accepted = .open_ ∧ ¬ cleared then some .farEndClear else none } ∧
      (∀ p, p ≠ 2336 + j → p ≠ 2048 + cord → p ≠ 2144 + cord → p ≠ 2240 + cord →
        point p t.part = point p s.part) ∧
      t.part = { s.part with
        net.junctions := t.part.net.junctions, net.cords := t.part.net.cords
        scan.points := t.part.scan.points, calls := t.part.calls
        orders := t.part.orders, serial := s.part.serial + 1, arb.last := t.part.arb.last
        orig := { t.part.orig with rehunts := s.part.orig.rehunts } }) ∧
  (∀ (s : Part) (f : Nat), (frame f s).hunt < 12 →
    (∀ k cord, findOriginPath f s = some (k, cord) →
      k < 12 ∧ cord / 8 = k ∧ avail (.fl (12 * f + k)) s = true ∧ avail (.cord cord) s = true ∧
      (∀ x, x / 8 = k → x < cord → avail (.cord x) s = false) ∧
      ∀ p, p < 12 → (p + 12 - (frame f s).hunt) % 12 < (k + 12 - (frame f s).hunt) % 12 →
        avail (.fl (12 * f + p)) s = false ∨ ∀ x, x / 8 = p → avail (.cord x) s = false) ∧
    (findOriginPath f s = none →
      ∀ p, p < 12 → avail (.fl (12 * f + p)) s = false ∨ ∀ x, x / 8 = p → avail (.cord x) s = false)) ∧
  (∀ (s : Part) (x : Party) (home : Option Ctl),
    home =
      (match x with
        | .line lt => (frame (lt / 64) s).home
        | .junction j =>
          match (junction j s).route with
          | some r => (route r s).home
          | none => none) →
    (home = none → handling x s = none) ∧
    ∀ c, home = some c →
      ((ctl c s).present = true → handling x s = some c) ∧
      ((ctl c s).present = false → (ctl (otherCtl c) s).present = true → handling x s = some (otherCtl c)) ∧
      ((ctl c s).present = false → (ctl (otherCtl c) s).present = false → handling x s = none)) ∧
  (∀ (s : Part) (x : Party),
    canServe x s = true ↔
      handling x s ≠ none ∧ (∃ id, id < 128 ∧ (call id s).state = .free) ∧
      (match x with
        | .line lt =>
          ((line lt s).cls = .essential ∨
            ((line lt s).cls = .ordinary ∨ (line lt s).cls = .coin) ∧
              (match s.cal.profile with
                | .normal => s.timers.reserveNormal
                | .heavy => s.timers.reserveHeavy) <
                ((List.range 96).filter (fun c => avail (.cord c) s)).length) ∧
          ∃ k c, k < 12 ∧ avail (.fl (12 * (lt / 64) + k)) s = true ∧ c / 8 = k ∧ avail (.cord c) s = true
        | .junction j => ∃ c, c / 8 = j % 12 ∧ avail (.cord c) s = true)) ∧
  (∀ (s : Part), TablesOk s →
    let marked := fun x =>
      match x with
      | .line lt => (line lt s).marked = true
      | .junction j => (junction j s).marked = true
    let after := fun x => ((match x with | .line lt => lt | .junction j => 2336 + j) + 2383 - s.orig.pointer) % 2384
    (∀ x : Party, x ∈ markedOrigins s ↔ marked x) ∧
    (s.orig.pointer < 2384 → (∀ lt, (line lt s).marked = true → lt < 2048) →
      (∀ j, (junction j s).marked = true → j < 48) →
      (markedOrigins s).Pairwise (fun x y => after x < after y))) ∧
  ∀ (s : Part),
    let ready := fun x : Rehunt =>
      x.made = false ∧ (call x.call s).term = none ∧ (call x.call s).set.tjunction = none
    (∀ pre x post, s.orig.rehunts = pre ++ x :: post → (∀ y ∈ pre, ¬ ready y) → ready x →
      chooseWork s = some (.rehunt x)) ∧
    ((∀ y ∈ s.orig.rehunts, ¬ ready y) →
      (∀ pre w post, s.orig.queue = pre ++ w :: post → (∀ y ∈ pre, canServe y.origin s = false) →
        canServe w.origin s = true → chooseWork s = some (.serve w.origin)) ∧
      ((∀ w ∈ s.orig.queue, canServe w.origin s = false) →
        ∀ pre x post, markedOrigins s = pre ++ x :: post →
          (∀ y ∈ pre, handling y s = none ∨ canServe y s = false ∧ 64 ≤ s.orig.queue.length) →
          (canServe x s = true → chooseWork s = some (.serve x)) ∧
          (canServe x s = false → handling x s ≠ none → s.orig.queue.length < 64 →
            chooseWork s = some (.enqueue x))))

/-! ## The nonvolatile write engine (R141 to R147, R191) -/

/-- NV_WRITE_END of a meter write (R141, R142, R143): a verified write is in the line's record; a first failure is
retried with the same value; a second sets NV FAULT, takes the line from the dirty list and queues NV FAULT with the
count written, its record being whatever the free value is (log entry 13). The engine is then IDLE and makes its
next choice: none once a battery reset is decided (R148) or at the TRICKLE pace outside a save (R145), the head of
the dirty list in URGENT (R146); in a save its first write before the dirty list (log entry 62), and after it the
head of the list or the next configuration write, which alternate in TRICKLE, the list first in URGENT (R147). -/
def Obligations.MeterWriteEnds : Prop :=
  ∀ (s : State) (lt : Nat) (v : MeterValue) (again : Bool), TablesOk s.part →
    s.part.meters.engine = .meter lt v again →
    (∃ q t, exec (.nvWriteEnd true) s = .next t ∧ t.pending = s.pending ∧
      Table.get {} q.meters.records lt = v ∧
      (∀ x, x ≠ lt → Table.get {} q.meters.records x = Table.get {} s.part.meters.records x) ∧
      q = { s.part with meters.records := q.meters.records, meters.engine := .idle } ∧
      WritesNext q t.part) ∧
    (again = false →
      Makes (.nvWriteEnd false) s { s.part with meters.engine := .meter lt v true }) ∧
    (again = true → MaintRoom s.part →
      ∃ q t, exec (.nvWriteEnd false) s = .next t ∧ t.pending = s.pending ∧
        meter lt q = { meter lt s.part with nvFault := true } ∧
        (∀ x, x ≠ lt → meter x q = meter x s.part) ∧
        (∀ x, x ≠ lt → Table.get {} q.meters.records x = Table.get {} s.part.meters.records x) ∧
        noticesDue .maint q = noticesDue .maint s.part ++ [.maint .nvFault 0 (b16 lt ++ b24 v.count)] ∧
        q = { s.part with
          meters.entries := q.meters.entries, meters.records := q.meters.records
          meters.dirty := s.part.meters.dirty.filter (fun x => decide (x ≠ lt)), meters.engine := .idle
          m.io := q.m.io, fresh := s.part.fresh + 1 } ∧
        WritesNext q t.part)

/-- NV_WRITE_END of a configuration write (R147, R191): a verified write is in the image and the save goes on, the
2,700th ends it with CONFIGURATION SAVED; a first failure is retried; a second ends the save there, with the number
of records written, and leaves the image as it was (log entry 14), but for the marker where the write was the
marker's own, which holds a free value (log entry 13). The save that ends while a battery reset is decided is
COMPLETE (log entry 69). The engine is then IDLE and makes its next choice: none once a battery reset is decided
(R148); while the save goes on, the head of the dirty list, so that meter and configuration writes alternate, or the
next configuration write where the list is empty; after its end, as outside a save (R145, R146, R147). -/
def Obligations.ConfigurationWriteEnds : Prop :=
  ∀ (s : State) (w : ConfigValue) (again : Bool) (v : Save), TablesOk s.part →
    s.part.meters.engine = .config w again → s.part.meters.save = some v →
    let n := v.verified + (match w with | .marker _ => 0 | _ => 1)
    let idle := { s.part with meters.image := s.part.meters.image.store w, meters.engine := .idle }
    let failed := { s.part with meters.save := none, meters.engine := .idle }
    (v.next < 2699 →
      ∃ t, exec (.nvWriteEnd true) s = .next t ∧ t.pending = s.pending ∧
        WritesNext { idle with meters.save := some { v with next := v.next + 1, verified := n } } t.part) ∧
    (2699 ≤ v.next → MaintRoom s.part →
      ∃ q t, exec (.nvWriteEnd true) s = .next t ∧ t.pending = s.pending ∧
        Noticed .configurationSaved ([b8 0] ++ b16 n) { idle with meters.save := none } q ∧
        WritesNext q t.part) ∧
    (again = false → Makes (.nvWriteEnd false) s { s.part with meters.engine := .config w true }) ∧
    (again = true → MaintRoom s.part →
      ((∀ b, w ≠ .marker b) →
        ∃ q t, exec (.nvWriteEnd false) s = .next t ∧ t.pending = s.pending ∧
          Noticed .configurationSaved ([b8 1] ++ b16 v.verified) failed q ∧ WritesNext q t.part) ∧
      (∀ b, w = .marker b →
        ∃ held q t, exec (.nvWriteEnd false) s = .next t ∧ t.pending = s.pending ∧
          Noticed .configurationSaved ([b8 1] ++ b16 v.verified)
            { failed with meters.image.marker := held, fresh := s.part.fresh + 1 } q ∧
          WritesNext q t.part))

/-- TRICKLE_SLOT (R145, R141): at the TRICKLE pace, outside a save, an IDLE engine writes the head of the dirty list,
with the entry's value at this moment; any other slot passes unused. -/
def Obligations.TrickleSlot : Prop :=
  ∀ (s : State),
    (s.part.meters.engine ≠ .idle ∨ s.part.meters.dirty = [] ∨ s.part.meters.save ≠ none ∨
        s.part.supply.battery ≠ .normal →
      Makes .trickleSlot s s.part) ∧
    (∀ lt rest, s.part.meters.engine = .idle → s.part.meters.dirty = lt :: rest →
      s.part.meters.save = none → s.part.supply.battery = .normal → s.part.supply.decided = false →
      Makes .trickleSlot s
        { s.part with
          meters.dirty := rest
          meters.engine := .meter lt
            { count := (meter lt s.part).count, rollover := (meter lt s.part).rollover } false })
end

