-- ==== Sys2Proof/Laws/State.lean ====
section
/-!
SUPPORT. What each change of one record leaves alone, field by field, and what a read gives after it.
-/

namespace Sys2Proof.Machine

variable (s : Part)

/-! ## modLine -/

@[simp] theorem modLine_supply (lt : Nat) (f : Line → Line) : (modLine lt f s).supply = s.supply := rfl
@[simp] theorem modLine_scan (lt : Nat) (f : Line → Line) : (modLine lt f s).scan = s.scan := rfl
@[simp] theorem modLine_orig (lt : Nat) (f : Line → Line) : (modLine lt f s).orig = s.orig := rfl
@[simp] theorem modLine_arb (lt : Nat) (f : Line → Line) : (modLine lt f s).arb = s.arb := rfl
@[simp] theorem modLine_orders (lt : Nat) (f : Line → Line) : (modLine lt f s).orders = s.orders := rfl
@[simp] theorem modLine_calls (lt : Nat) (f : Line → Line) : (modLine lt f s).calls = s.calls := rfl
@[simp] theorem modLine_timers (lt : Nat) (f : Line → Line) : (modLine lt f s).timers = s.timers := rfl
@[simp] theorem modLine_charge (lt : Nat) (f : Line → Line) : (modLine lt f s).charge = s.charge := rfl
@[simp] theorem modLine_meters (lt : Nat) (f : Line → Line) : (modLine lt f s).meters = s.meters := rfl
@[simp] theorem modLine_tb (lt : Nat) (f : Line → Line) : (modLine lt f s).tb = s.tb := rfl
@[simp] theorem modLine_cal (lt : Nat) (f : Line → Line) : (modLine lt f s).cal = s.cal := rfl
@[simp] theorem modLine_a (lt : Nat) (f : Line → Line) : (modLine lt f s).a = s.a := rfl
@[simp] theorem modLine_b (lt : Nat) (f : Line → Line) : (modLine lt f s).b = s.b := rfl
@[simp] theorem modLine_m (lt : Nat) (f : Line → Line) : (modLine lt f s).m = s.m := rfl
@[simp] theorem modLine_serial (lt : Nat) (f : Line → Line) : (modLine lt f s).serial = s.serial := rfl
@[simp] theorem modLine_fresh (lt : Nat) (f : Line → Line) : (modLine lt f s).fresh = s.fresh := rfl

/-! ## modFrame -/

@[simp] theorem modFrame_supply (n : Nat) (f : Frame → Frame) : (modFrame n f s).supply = s.supply := rfl
@[simp] theorem modFrame_scan (n : Nat) (f : Frame → Frame) : (modFrame n f s).scan = s.scan := rfl
@[simp] theorem modFrame_orig (n : Nat) (f : Frame → Frame) : (modFrame n f s).orig = s.orig := rfl
@[simp] theorem modFrame_arb (n : Nat) (f : Frame → Frame) : (modFrame n f s).arb = s.arb := rfl
@[simp] theorem modFrame_orders (n : Nat) (f : Frame → Frame) : (modFrame n f s).orders = s.orders := rfl
@[simp] theorem modFrame_calls (n : Nat) (f : Frame → Frame) : (modFrame n f s).calls = s.calls := rfl
@[simp] theorem modFrame_timers (n : Nat) (f : Frame → Frame) : (modFrame n f s).timers = s.timers := rfl
@[simp] theorem modFrame_charge (n : Nat) (f : Frame → Frame) : (modFrame n f s).charge = s.charge := rfl
@[simp] theorem modFrame_meters (n : Nat) (f : Frame → Frame) : (modFrame n f s).meters = s.meters := rfl
@[simp] theorem modFrame_tb (n : Nat) (f : Frame → Frame) : (modFrame n f s).tb = s.tb := rfl
@[simp] theorem modFrame_cal (n : Nat) (f : Frame → Frame) : (modFrame n f s).cal = s.cal := rfl
@[simp] theorem modFrame_a (n : Nat) (f : Frame → Frame) : (modFrame n f s).a = s.a := rfl
@[simp] theorem modFrame_b (n : Nat) (f : Frame → Frame) : (modFrame n f s).b = s.b := rfl
@[simp] theorem modFrame_m (n : Nat) (f : Frame → Frame) : (modFrame n f s).m = s.m := rfl
@[simp] theorem modFrame_serial (n : Nat) (f : Frame → Frame) : (modFrame n f s).serial = s.serial := rfl
@[simp] theorem modFrame_fresh (n : Nat) (f : Frame → Frame) : (modFrame n f s).fresh = s.fresh := rfl

/-! ## modRoute -/

@[simp] theorem modRoute_supply (n : Nat) (f : Route → Route) : (modRoute n f s).supply = s.supply := rfl
@[simp] theorem modRoute_scan (n : Nat) (f : Route → Route) : (modRoute n f s).scan = s.scan := rfl
@[simp] theorem modRoute_orig (n : Nat) (f : Route → Route) : (modRoute n f s).orig = s.orig := rfl
@[simp] theorem modRoute_arb (n : Nat) (f : Route → Route) : (modRoute n f s).arb = s.arb := rfl
@[simp] theorem modRoute_orders (n : Nat) (f : Route → Route) : (modRoute n f s).orders = s.orders := rfl
@[simp] theorem modRoute_calls (n : Nat) (f : Route → Route) : (modRoute n f s).calls = s.calls := rfl
@[simp] theorem modRoute_timers (n : Nat) (f : Route → Route) : (modRoute n f s).timers = s.timers := rfl
@[simp] theorem modRoute_charge (n : Nat) (f : Route → Route) : (modRoute n f s).charge = s.charge := rfl
@[simp] theorem modRoute_meters (n : Nat) (f : Route → Route) : (modRoute n f s).meters = s.meters := rfl
@[simp] theorem modRoute_tb (n : Nat) (f : Route → Route) : (modRoute n f s).tb = s.tb := rfl
@[simp] theorem modRoute_cal (n : Nat) (f : Route → Route) : (modRoute n f s).cal = s.cal := rfl
@[simp] theorem modRoute_a (n : Nat) (f : Route → Route) : (modRoute n f s).a = s.a := rfl
@[simp] theorem modRoute_b (n : Nat) (f : Route → Route) : (modRoute n f s).b = s.b := rfl
@[simp] theorem modRoute_m (n : Nat) (f : Route → Route) : (modRoute n f s).m = s.m := rfl
@[simp] theorem modRoute_serial (n : Nat) (f : Route → Route) : (modRoute n f s).serial = s.serial := rfl
@[simp] theorem modRoute_fresh (n : Nat) (f : Route → Route) : (modRoute n f s).fresh = s.fresh := rfl

/-! ## modJunction -/

@[simp] theorem modJunction_supply (j : Nat) (f : Junction → Junction) : (modJunction j f s).supply = s.supply := rfl
@[simp] theorem modJunction_scan (j : Nat) (f : Junction → Junction) : (modJunction j f s).scan = s.scan := rfl
@[simp] theorem modJunction_orig (j : Nat) (f : Junction → Junction) : (modJunction j f s).orig = s.orig := rfl
@[simp] theorem modJunction_arb (j : Nat) (f : Junction → Junction) : (modJunction j f s).arb = s.arb := rfl
@[simp] theorem modJunction_orders (j : Nat) (f : Junction → Junction) : (modJunction j f s).orders = s.orders := rfl
@[simp] theorem modJunction_calls (j : Nat) (f : Junction → Junction) : (modJunction j f s).calls = s.calls := rfl
@[simp] theorem modJunction_timers (j : Nat) (f : Junction → Junction) : (modJunction j f s).timers = s.timers := rfl
@[simp] theorem modJunction_charge (j : Nat) (f : Junction → Junction) : (modJunction j f s).charge = s.charge := rfl
@[simp] theorem modJunction_meters (j : Nat) (f : Junction → Junction) : (modJunction j f s).meters = s.meters := rfl
@[simp] theorem modJunction_tb (j : Nat) (f : Junction → Junction) : (modJunction j f s).tb = s.tb := rfl
@[simp] theorem modJunction_cal (j : Nat) (f : Junction → Junction) : (modJunction j f s).cal = s.cal := rfl
@[simp] theorem modJunction_a (j : Nat) (f : Junction → Junction) : (modJunction j f s).a = s.a := rfl
@[simp] theorem modJunction_b (j : Nat) (f : Junction → Junction) : (modJunction j f s).b = s.b := rfl
@[simp] theorem modJunction_m (j : Nat) (f : Junction → Junction) : (modJunction j f s).m = s.m := rfl
@[simp] theorem modJunction_serial (j : Nat) (f : Junction → Junction) : (modJunction j f s).serial = s.serial := rfl
@[simp] theorem modJunction_fresh (j : Nat) (f : Junction → Junction) : (modJunction j f s).fresh = s.fresh := rfl

/-! ## modElem -/

@[simp] theorem modElem_supply (e : ElemId) (f : Element → Element) : (modElem e f s).supply = s.supply := by cases e <;> rfl
@[simp] theorem modElem_scan (e : ElemId) (f : Element → Element) : (modElem e f s).scan = s.scan := by cases e <;> rfl
@[simp] theorem modElem_orig (e : ElemId) (f : Element → Element) : (modElem e f s).orig = s.orig := by cases e <;> rfl
@[simp] theorem modElem_arb (e : ElemId) (f : Element → Element) : (modElem e f s).arb = s.arb := by cases e <;> rfl
@[simp] theorem modElem_orders (e : ElemId) (f : Element → Element) : (modElem e f s).orders = s.orders := by cases e <;> rfl
@[simp] theorem modElem_calls (e : ElemId) (f : Element → Element) : (modElem e f s).calls = s.calls := by cases e <;> rfl
@[simp] theorem modElem_timers (e : ElemId) (f : Element → Element) : (modElem e f s).timers = s.timers := by cases e <;> rfl
@[simp] theorem modElem_charge (e : ElemId) (f : Element → Element) : (modElem e f s).charge = s.charge := by cases e <;> rfl
@[simp] theorem modElem_meters (e : ElemId) (f : Element → Element) : (modElem e f s).meters = s.meters := by cases e <;> rfl
@[simp] theorem modElem_tb (e : ElemId) (f : Element → Element) : (modElem e f s).tb = s.tb := by cases e <;> rfl
@[simp] theorem modElem_cal (e : ElemId) (f : Element → Element) : (modElem e f s).cal = s.cal := by cases e <;> rfl
@[simp] theorem modElem_a (e : ElemId) (f : Element → Element) : (modElem e f s).a = s.a := by cases e <;> rfl
@[simp] theorem modElem_b (e : ElemId) (f : Element → Element) : (modElem e f s).b = s.b := by cases e <;> rfl
@[simp] theorem modElem_m (e : ElemId) (f : Element → Element) : (modElem e f s).m = s.m := by cases e <;> rfl
@[simp] theorem modElem_serial (e : ElemId) (f : Element → Element) : (modElem e f s).serial = s.serial := by cases e <;> rfl
@[simp] theorem modElem_fresh (e : ElemId) (f : Element → Element) : (modElem e f s).fresh = s.fresh := by cases e <;> rfl

/-! ## modCall -/

@[simp] theorem modCall_supply (id : Nat) (f : Call → Call) : (modCall id f s).supply = s.supply := rfl
@[simp] theorem modCall_net (id : Nat) (f : Call → Call) : (modCall id f s).net = s.net := rfl
@[simp] theorem modCall_scan (id : Nat) (f : Call → Call) : (modCall id f s).scan = s.scan := rfl
@[simp] theorem modCall_orig (id : Nat) (f : Call → Call) : (modCall id f s).orig = s.orig := rfl
@[simp] theorem modCall_arb (id : Nat) (f : Call → Call) : (modCall id f s).arb = s.arb := rfl
@[simp] theorem modCall_orders (id : Nat) (f : Call → Call) : (modCall id f s).orders = s.orders := rfl
@[simp] theorem modCall_timers (id : Nat) (f : Call → Call) : (modCall id f s).timers = s.timers := rfl
@[simp] theorem modCall_charge (id : Nat) (f : Call → Call) : (modCall id f s).charge = s.charge := rfl
@[simp] theorem modCall_meters (id : Nat) (f : Call → Call) : (modCall id f s).meters = s.meters := rfl
@[simp] theorem modCall_tb (id : Nat) (f : Call → Call) : (modCall id f s).tb = s.tb := rfl
@[simp] theorem modCall_cal (id : Nat) (f : Call → Call) : (modCall id f s).cal = s.cal := rfl
@[simp] theorem modCall_a (id : Nat) (f : Call → Call) : (modCall id f s).a = s.a := rfl
@[simp] theorem modCall_b (id : Nat) (f : Call → Call) : (modCall id f s).b = s.b := rfl
@[simp] theorem modCall_m (id : Nat) (f : Call → Call) : (modCall id f s).m = s.m := rfl
@[simp] theorem modCall_serial (id : Nat) (f : Call → Call) : (modCall id f s).serial = s.serial := rfl
@[simp] theorem modCall_fresh (id : Nat) (f : Call → Call) : (modCall id f s).fresh = s.fresh := rfl

/-! ## modPoint -/

@[simp] theorem modPoint_supply (p : Nat) (f : ScanEntry → ScanEntry) : (modPoint p f s).supply = s.supply := rfl
@[simp] theorem modPoint_net (p : Nat) (f : ScanEntry → ScanEntry) : (modPoint p f s).net = s.net := rfl
@[simp] theorem modPoint_orig (p : Nat) (f : ScanEntry → ScanEntry) : (modPoint p f s).orig = s.orig := rfl
@[simp] theorem modPoint_arb (p : Nat) (f : ScanEntry → ScanEntry) : (modPoint p f s).arb = s.arb := rfl
@[simp] theorem modPoint_orders (p : Nat) (f : ScanEntry → ScanEntry) : (modPoint p f s).orders = s.orders := rfl
@[simp] theorem modPoint_calls (p : Nat) (f : ScanEntry → ScanEntry) : (modPoint p f s).calls = s.calls := rfl
@[simp] theorem modPoint_timers (p : Nat) (f : ScanEntry → ScanEntry) : (modPoint p f s).timers = s.timers := rfl
@[simp] theorem modPoint_charge (p : Nat) (f : ScanEntry → ScanEntry) : (modPoint p f s).charge = s.charge := rfl
@[simp] theorem modPoint_meters (p : Nat) (f : ScanEntry → ScanEntry) : (modPoint p f s).meters = s.meters := rfl
@[simp] theorem modPoint_tb (p : Nat) (f : ScanEntry → ScanEntry) : (modPoint p f s).tb = s.tb := rfl
@[simp] theorem modPoint_cal (p : Nat) (f : ScanEntry → ScanEntry) : (modPoint p f s).cal = s.cal := rfl
@[simp] theorem modPoint_a (p : Nat) (f : ScanEntry → ScanEntry) : (modPoint p f s).a = s.a := rfl
@[simp] theorem modPoint_b (p : Nat) (f : ScanEntry → ScanEntry) : (modPoint p f s).b = s.b := rfl
@[simp] theorem modPoint_m (p : Nat) (f : ScanEntry → ScanEntry) : (modPoint p f s).m = s.m := rfl
@[simp] theorem modPoint_serial (p : Nat) (f : ScanEntry → ScanEntry) : (modPoint p f s).serial = s.serial := rfl
@[simp] theorem modPoint_fresh (p : Nat) (f : ScanEntry → ScanEntry) : (modPoint p f s).fresh = s.fresh := rfl

/-! ## modMeter -/

@[simp] theorem modMeter_supply (lt : Nat) (f : MeterEntry → MeterEntry) : (modMeter lt f s).supply = s.supply := rfl
@[simp] theorem modMeter_net (lt : Nat) (f : MeterEntry → MeterEntry) : (modMeter lt f s).net = s.net := rfl
@[simp] theorem modMeter_scan (lt : Nat) (f : MeterEntry → MeterEntry) : (modMeter lt f s).scan = s.scan := rfl
@[simp] theorem modMeter_orig (lt : Nat) (f : MeterEntry → MeterEntry) : (modMeter lt f s).orig = s.orig := rfl
@[simp] theorem modMeter_arb (lt : Nat) (f : MeterEntry → MeterEntry) : (modMeter lt f s).arb = s.arb := rfl
@[simp] theorem modMeter_orders (lt : Nat) (f : MeterEntry → MeterEntry) : (modMeter lt f s).orders = s.orders := rfl
@[simp] theorem modMeter_calls (lt : Nat) (f : MeterEntry → MeterEntry) : (modMeter lt f s).calls = s.calls := rfl
@[simp] theorem modMeter_timers (lt : Nat) (f : MeterEntry → MeterEntry) : (modMeter lt f s).timers = s.timers := rfl
@[simp] theorem modMeter_charge (lt : Nat) (f : MeterEntry → MeterEntry) : (modMeter lt f s).charge = s.charge := rfl
@[simp] theorem modMeter_tb (lt : Nat) (f : MeterEntry → MeterEntry) : (modMeter lt f s).tb = s.tb := rfl
@[simp] theorem modMeter_cal (lt : Nat) (f : MeterEntry → MeterEntry) : (modMeter lt f s).cal = s.cal := rfl
@[simp] theorem modMeter_a (lt : Nat) (f : MeterEntry → MeterEntry) : (modMeter lt f s).a = s.a := rfl
@[simp] theorem modMeter_b (lt : Nat) (f : MeterEntry → MeterEntry) : (modMeter lt f s).b = s.b := rfl
@[simp] theorem modMeter_m (lt : Nat) (f : MeterEntry → MeterEntry) : (modMeter lt f s).m = s.m := rfl
@[simp] theorem modMeter_serial (lt : Nat) (f : MeterEntry → MeterEntry) : (modMeter lt f s).serial = s.serial := rfl
@[simp] theorem modMeter_fresh (lt : Nat) (f : MeterEntry → MeterEntry) : (modMeter lt f s).fresh = s.fresh := rfl

/-! ## modCtl -/

@[simp] theorem modCtl_supply (c : Ctl) (f : CtlPort → CtlPort) : (modCtl c f s).supply = s.supply := by cases c <;> rfl
@[simp] theorem modCtl_net (c : Ctl) (f : CtlPort → CtlPort) : (modCtl c f s).net = s.net := by cases c <;> rfl
@[simp] theorem modCtl_scan (c : Ctl) (f : CtlPort → CtlPort) : (modCtl c f s).scan = s.scan := by cases c <;> rfl
@[simp] theorem modCtl_orig (c : Ctl) (f : CtlPort → CtlPort) : (modCtl c f s).orig = s.orig := by cases c <;> rfl
@[simp] theorem modCtl_arb (c : Ctl) (f : CtlPort → CtlPort) : (modCtl c f s).arb = s.arb := by cases c <;> rfl
@[simp] theorem modCtl_orders (c : Ctl) (f : CtlPort → CtlPort) : (modCtl c f s).orders = s.orders := by cases c <;> rfl
@[simp] theorem modCtl_calls (c : Ctl) (f : CtlPort → CtlPort) : (modCtl c f s).calls = s.calls := by cases c <;> rfl
@[simp] theorem modCtl_timers (c : Ctl) (f : CtlPort → CtlPort) : (modCtl c f s).timers = s.timers := by cases c <;> rfl
@[simp] theorem modCtl_charge (c : Ctl) (f : CtlPort → CtlPort) : (modCtl c f s).charge = s.charge := by cases c <;> rfl
@[simp] theorem modCtl_meters (c : Ctl) (f : CtlPort → CtlPort) : (modCtl c f s).meters = s.meters := by cases c <;> rfl
@[simp] theorem modCtl_tb (c : Ctl) (f : CtlPort → CtlPort) : (modCtl c f s).tb = s.tb := by cases c <;> rfl
@[simp] theorem modCtl_cal (c : Ctl) (f : CtlPort → CtlPort) : (modCtl c f s).cal = s.cal := by cases c <;> rfl
@[simp] theorem modCtl_m (c : Ctl) (f : CtlPort → CtlPort) : (modCtl c f s).m = s.m := by cases c <;> rfl
@[simp] theorem modCtl_serial (c : Ctl) (f : CtlPort → CtlPort) : (modCtl c f s).serial = s.serial := by cases c <;> rfl
@[simp] theorem modCtl_fresh (c : Ctl) (f : CtlPort → CtlPort) : (modCtl c f s).fresh = s.fresh := by cases c <;> rfl

/-! ## modMaint -/

@[simp] theorem modMaint_supply (f : MaintPort → MaintPort) : (modMaint f s).supply = s.supply := rfl
@[simp] theorem modMaint_net (f : MaintPort → MaintPort) : (modMaint f s).net = s.net := rfl
@[simp] theorem modMaint_scan (f : MaintPort → MaintPort) : (modMaint f s).scan = s.scan := rfl
@[simp] theorem modMaint_orig (f : MaintPort → MaintPort) : (modMaint f s).orig = s.orig := rfl
@[simp] theorem modMaint_arb (f : MaintPort → MaintPort) : (modMaint f s).arb = s.arb := rfl
@[simp] theorem modMaint_orders (f : MaintPort → MaintPort) : (modMaint f s).orders = s.orders := rfl
@[simp] theorem modMaint_calls (f : MaintPort → MaintPort) : (modMaint f s).calls = s.calls := rfl
@[simp] theorem modMaint_timers (f : MaintPort → MaintPort) : (modMaint f s).timers = s.timers := rfl
@[simp] theorem modMaint_charge (f : MaintPort → MaintPort) : (modMaint f s).charge = s.charge := rfl
@[simp] theorem modMaint_meters (f : MaintPort → MaintPort) : (modMaint f s).meters = s.meters := rfl
@[simp] theorem modMaint_tb (f : MaintPort → MaintPort) : (modMaint f s).tb = s.tb := rfl
@[simp] theorem modMaint_cal (f : MaintPort → MaintPort) : (modMaint f s).cal = s.cal := rfl
@[simp] theorem modMaint_a (f : MaintPort → MaintPort) : (modMaint f s).a = s.a := rfl
@[simp] theorem modMaint_b (f : MaintPort → MaintPort) : (modMaint f s).b = s.b := rfl
@[simp] theorem modMaint_serial (f : MaintPort → MaintPort) : (modMaint f s).serial = s.serial := rfl
@[simp] theorem modMaint_fresh (f : MaintPort → MaintPort) : (modMaint f s).fresh = s.fresh := rfl

/-! ## modIo -/

@[simp] theorem modIo_supply (p : Port) (f : PortIo → PortIo) : (modIo p f s).supply = s.supply := by rcases p with (_ | _) | _ <;> rfl
@[simp] theorem modIo_net (p : Port) (f : PortIo → PortIo) : (modIo p f s).net = s.net := by rcases p with (_ | _) | _ <;> rfl
@[simp] theorem modIo_scan (p : Port) (f : PortIo → PortIo) : (modIo p f s).scan = s.scan := by rcases p with (_ | _) | _ <;> rfl
@[simp] theorem modIo_orig (p : Port) (f : PortIo → PortIo) : (modIo p f s).orig = s.orig := by rcases p with (_ | _) | _ <;> rfl
@[simp] theorem modIo_arb (p : Port) (f : PortIo → PortIo) : (modIo p f s).arb = s.arb := by rcases p with (_ | _) | _ <;> rfl
@[simp] theorem modIo_orders (p : Port) (f : PortIo → PortIo) : (modIo p f s).orders = s.orders := by rcases p with (_ | _) | _ <;> rfl
@[simp] theorem modIo_calls (p : Port) (f : PortIo → PortIo) : (modIo p f s).calls = s.calls := by rcases p with (_ | _) | _ <;> rfl
@[simp] theorem modIo_timers (p : Port) (f : PortIo → PortIo) : (modIo p f s).timers = s.timers := by rcases p with (_ | _) | _ <;> rfl
@[simp] theorem modIo_charge (p : Port) (f : PortIo → PortIo) : (modIo p f s).charge = s.charge := by rcases p with (_ | _) | _ <;> rfl
@[simp] theorem modIo_meters (p : Port) (f : PortIo → PortIo) : (modIo p f s).meters = s.meters := by rcases p with (_ | _) | _ <;> rfl
@[simp] theorem modIo_tb (p : Port) (f : PortIo → PortIo) : (modIo p f s).tb = s.tb := by rcases p with (_ | _) | _ <;> rfl
@[simp] theorem modIo_cal (p : Port) (f : PortIo → PortIo) : (modIo p f s).cal = s.cal := by rcases p with (_ | _) | _ <;> rfl
@[simp] theorem modIo_serial (p : Port) (f : PortIo → PortIo) : (modIo p f s).serial = s.serial := by rcases p with (_ | _) | _ <;> rfl
@[simp] theorem modIo_fresh (p : Port) (f : PortIo → PortIo) : (modIo p f s).fresh = s.fresh := by rcases p with (_ | _) | _ <;> rfl

/-! ## modMeters -/

@[simp] theorem modMeters_supply (f : MeterStore → MeterStore) : (modMeters f s).supply = s.supply := rfl
@[simp] theorem modMeters_net (f : MeterStore → MeterStore) : (modMeters f s).net = s.net := rfl
@[simp] theorem modMeters_scan (f : MeterStore → MeterStore) : (modMeters f s).scan = s.scan := rfl
@[simp] theorem modMeters_orig (f : MeterStore → MeterStore) : (modMeters f s).orig = s.orig := rfl
@[simp] theorem modMeters_arb (f : MeterStore → MeterStore) : (modMeters f s).arb = s.arb := rfl
@[simp] theorem modMeters_orders (f : MeterStore → MeterStore) : (modMeters f s).orders = s.orders := rfl
@[simp] theorem modMeters_calls (f : MeterStore → MeterStore) : (modMeters f s).calls = s.calls := rfl
@[simp] theorem modMeters_timers (f : MeterStore → MeterStore) : (modMeters f s).timers = s.timers := rfl
@[simp] theorem modMeters_charge (f : MeterStore → MeterStore) : (modMeters f s).charge = s.charge := rfl
@[simp] theorem modMeters_tb (f : MeterStore → MeterStore) : (modMeters f s).tb = s.tb := rfl
@[simp] theorem modMeters_cal (f : MeterStore → MeterStore) : (modMeters f s).cal = s.cal := rfl
@[simp] theorem modMeters_a (f : MeterStore → MeterStore) : (modMeters f s).a = s.a := rfl
@[simp] theorem modMeters_b (f : MeterStore → MeterStore) : (modMeters f s).b = s.b := rfl
@[simp] theorem modMeters_m (f : MeterStore → MeterStore) : (modMeters f s).m = s.m := rfl
@[simp] theorem modMeters_serial (f : MeterStore → MeterStore) : (modMeters f s).serial = s.serial := rfl
@[simp] theorem modMeters_fresh (f : MeterStore → MeterStore) : (modMeters f s).fresh = s.fresh := rfl

/-! ## modTb -/

@[simp] theorem modTb_supply (f : TimeBase → TimeBase) : (modTb f s).supply = s.supply := rfl
@[simp] theorem modTb_net (f : TimeBase → TimeBase) : (modTb f s).net = s.net := rfl
@[simp] theorem modTb_scan (f : TimeBase → TimeBase) : (modTb f s).scan = s.scan := rfl
@[simp] theorem modTb_orig (f : TimeBase → TimeBase) : (modTb f s).orig = s.orig := rfl
@[simp] theorem modTb_arb (f : TimeBase → TimeBase) : (modTb f s).arb = s.arb := rfl
@[simp] theorem modTb_orders (f : TimeBase → TimeBase) : (modTb f s).orders = s.orders := rfl
@[simp] theorem modTb_calls (f : TimeBase → TimeBase) : (modTb f s).calls = s.calls := rfl
@[simp] theorem modTb_timers (f : TimeBase → TimeBase) : (modTb f s).timers = s.timers := rfl
@[simp] theorem modTb_charge (f : TimeBase → TimeBase) : (modTb f s).charge = s.charge := rfl
@[simp] theorem modTb_meters (f : TimeBase → TimeBase) : (modTb f s).meters = s.meters := rfl
@[simp] theorem modTb_cal (f : TimeBase → TimeBase) : (modTb f s).cal = s.cal := rfl
@[simp] theorem modTb_a (f : TimeBase → TimeBase) : (modTb f s).a = s.a := rfl
@[simp] theorem modTb_b (f : TimeBase → TimeBase) : (modTb f s).b = s.b := rfl
@[simp] theorem modTb_m (f : TimeBase → TimeBase) : (modTb f s).m = s.m := rfl
@[simp] theorem modTb_serial (f : TimeBase → TimeBase) : (modTb f s).serial = s.serial := rfl
@[simp] theorem modTb_fresh (f : TimeBase → TimeBase) : (modTb f s).fresh = s.fresh := rfl

/-! ## place -/

@[simp] theorem place_supply (id : Nat) (act : Action) : (place id act s).supply = s.supply := rfl
@[simp] theorem place_net (id : Nat) (act : Action) : (place id act s).net = s.net := rfl
@[simp] theorem place_scan (id : Nat) (act : Action) : (place id act s).scan = s.scan := rfl
@[simp] theorem place_orig (id : Nat) (act : Action) : (place id act s).orig = s.orig := rfl
@[simp] theorem place_arb (id : Nat) (act : Action) : (place id act s).arb = s.arb := rfl
@[simp] theorem place_calls (id : Nat) (act : Action) : (place id act s).calls = s.calls := rfl
@[simp] theorem place_timers (id : Nat) (act : Action) : (place id act s).timers = s.timers := rfl
@[simp] theorem place_charge (id : Nat) (act : Action) : (place id act s).charge = s.charge := rfl
@[simp] theorem place_meters (id : Nat) (act : Action) : (place id act s).meters = s.meters := rfl
@[simp] theorem place_tb (id : Nat) (act : Action) : (place id act s).tb = s.tb := rfl
@[simp] theorem place_cal (id : Nat) (act : Action) : (place id act s).cal = s.cal := rfl
@[simp] theorem place_a (id : Nat) (act : Action) : (place id act s).a = s.a := rfl
@[simp] theorem place_b (id : Nat) (act : Action) : (place id act s).b = s.b := rfl
@[simp] theorem place_m (id : Nat) (act : Action) : (place id act s).m = s.m := rfl
@[simp] theorem place_fresh (id : Nat) (act : Action) : (place id act s).fresh = s.fresh := rfl

/-! ## setBattery -/

@[simp] theorem setBattery_net (b : Battery) (n : Nat) : (setBattery b n s).net = s.net := rfl
@[simp] theorem setBattery_scan (b : Battery) (n : Nat) : (setBattery b n s).scan = s.scan := rfl
@[simp] theorem setBattery_orig (b : Battery) (n : Nat) : (setBattery b n s).orig = s.orig := rfl
@[simp] theorem setBattery_arb (b : Battery) (n : Nat) : (setBattery b n s).arb = s.arb := rfl
@[simp] theorem setBattery_orders (b : Battery) (n : Nat) : (setBattery b n s).orders = s.orders := rfl
@[simp] theorem setBattery_calls (b : Battery) (n : Nat) : (setBattery b n s).calls = s.calls := rfl
@[simp] theorem setBattery_timers (b : Battery) (n : Nat) : (setBattery b n s).timers = s.timers := rfl
@[simp] theorem setBattery_charge (b : Battery) (n : Nat) : (setBattery b n s).charge = s.charge := rfl
@[simp] theorem setBattery_meters (b : Battery) (n : Nat) : (setBattery b n s).meters = s.meters := rfl
@[simp] theorem setBattery_tb (b : Battery) (n : Nat) : (setBattery b n s).tb = s.tb := rfl
@[simp] theorem setBattery_cal (b : Battery) (n : Nat) : (setBattery b n s).cal = s.cal := rfl
@[simp] theorem setBattery_a (b : Battery) (n : Nat) : (setBattery b n s).a = s.a := rfl
@[simp] theorem setBattery_b (b : Battery) (n : Nat) : (setBattery b n s).b = s.b := rfl
@[simp] theorem setBattery_m (b : Battery) (n : Nat) : (setBattery b n s).m = s.m := rfl
@[simp] theorem setBattery_serial (b : Battery) (n : Nat) : (setBattery b n s).serial = s.serial := rfl
@[simp] theorem setBattery_fresh (b : Battery) (n : Nat) : (setBattery b n s).fresh = s.fresh := rfl

@[simp] theorem modLine_net_frames (lt : Nat) (f : Line → Line) : (modLine lt f s).net.frames = s.net.frames := rfl
@[simp] theorem modLine_net_routes (lt : Nat) (f : Line → Line) : (modLine lt f s).net.routes = s.net.routes := rfl
@[simp] theorem modLine_net_junctions (lt : Nat) (f : Line → Line) : (modLine lt f s).net.junctions = s.net.junctions := rfl
@[simp] theorem modLine_net_fls (lt : Nat) (f : Line → Line) : (modLine lt f s).net.fls = s.net.fls := rfl
@[simp] theorem modLine_net_cords (lt : Nat) (f : Line → Line) : (modLine lt f s).net.cords = s.net.cords := rfl
@[simp] theorem modFrame_net_lines (n : Nat) (f : Frame → Frame) : (modFrame n f s).net.lines = s.net.lines := rfl
@[simp] theorem modFrame_net_routes (n : Nat) (f : Frame → Frame) : (modFrame n f s).net.routes = s.net.routes := rfl
@[simp] theorem modFrame_net_junctions (n : Nat) (f : Frame → Frame) : (modFrame n f s).net.junctions = s.net.junctions := rfl
@[simp] theorem modFrame_net_fls (n : Nat) (f : Frame → Frame) : (modFrame n f s).net.fls = s.net.fls := rfl
@[simp] theorem modFrame_net_cords (n : Nat) (f : Frame → Frame) : (modFrame n f s).net.cords = s.net.cords := rfl
@[simp] theorem modRoute_net_lines (n : Nat) (f : Route → Route) : (modRoute n f s).net.lines = s.net.lines := rfl
@[simp] theorem modRoute_net_frames (n : Nat) (f : Route → Route) : (modRoute n f s).net.frames = s.net.frames := rfl
@[simp] theorem modRoute_net_junctions (n : Nat) (f : Route → Route) : (modRoute n f s).net.junctions = s.net.junctions := rfl
@[simp] theorem modRoute_net_fls (n : Nat) (f : Route → Route) : (modRoute n f s).net.fls = s.net.fls := rfl
@[simp] theorem modRoute_net_cords (n : Nat) (f : Route → Route) : (modRoute n f s).net.cords = s.net.cords := rfl
@[simp] theorem modJunction_net_lines (j : Nat) (f : Junction → Junction) : (modJunction j f s).net.lines = s.net.lines := rfl
@[simp] theorem modJunction_net_frames (j : Nat) (f : Junction → Junction) : (modJunction j f s).net.frames = s.net.frames := rfl
@[simp] theorem modJunction_net_routes (j : Nat) (f : Junction → Junction) : (modJunction j f s).net.routes = s.net.routes := rfl
@[simp] theorem modJunction_net_fls (j : Nat) (f : Junction → Junction) : (modJunction j f s).net.fls = s.net.fls := rfl
@[simp] theorem modJunction_net_cords (j : Nat) (f : Junction → Junction) : (modJunction j f s).net.cords = s.net.cords := rfl
@[simp] theorem modElem_net_lines (e : ElemId) (f : Element → Element) : (modElem e f s).net.lines = s.net.lines := by
  cases e <;> rfl
@[simp] theorem modElem_net_frames (e : ElemId) (f : Element → Element) : (modElem e f s).net.frames = s.net.frames := by
  cases e <;> rfl
@[simp] theorem modElem_net_routes (e : ElemId) (f : Element → Element) : (modElem e f s).net.routes = s.net.routes := by
  cases e <;> rfl
@[simp] theorem modPoint_scan_pos (p : Nat) (f : ScanEntry → ScanEntry) : (modPoint p f s).scan.pos = s.scan.pos := rfl
@[simp] theorem modPoint_scan_skip (p : Nat) (f : ScanEntry → ScanEntry) : (modPoint p f s).scan.skip = s.scan.skip := rfl
@[simp] theorem modMeter_meters_records (lt : Nat) (f : MeterEntry → MeterEntry) :
    (modMeter lt f s).meters.records = s.meters.records := rfl
@[simp] theorem modMeter_meters_dirty (lt : Nat) (f : MeterEntry → MeterEntry) :
    (modMeter lt f s).meters.dirty = s.meters.dirty := rfl
@[simp] theorem modMeter_meters_engine (lt : Nat) (f : MeterEntry → MeterEntry) :
    (modMeter lt f s).meters.engine = s.meters.engine := rfl
@[simp] theorem modMeter_meters_save (lt : Nat) (f : MeterEntry → MeterEntry) :
    (modMeter lt f s).meters.save = s.meters.save := rfl
@[simp] theorem modMeter_meters_snapshot (lt : Nat) (f : MeterEntry → MeterEntry) :
    (modMeter lt f s).meters.snapshot = s.meters.snapshot := rfl
@[simp] theorem modMeter_meters_image (lt : Nat) (f : MeterEntry → MeterEntry) :
    (modMeter lt f s).meters.image = s.meters.image := rfl
@[simp] theorem modTb_tb (f : TimeBase → TimeBase) : (modTb f s).tb = f s.tb := rfl
@[simp] theorem modMeters_meters (f : MeterStore → MeterStore) : (modMeters f s).meters = f s.meters := rfl
@[simp] theorem modMaint_m (f : MaintPort → MaintPort) : (modMaint f s).m = f s.m := rfl
@[simp] theorem place_serial (id : Nat) (act : Action) : (place id act s).serial = s.serial + 1 := rfl
@[simp] theorem place_orders (id : Nat) (act : Action) :
    (place id act s).orders = s.orders ++ [{ id := s.serial, call := id, act := act }] := rfl
@[simp] theorem setBattery_supply (b : Battery) (n : Nat) :
    (setBattery b n s).supply = { s.supply with battery := b, ride := n } := rfl

/-! ## The controllers' ports -/

@[simp] theorem ctl_modCtl (c : Ctl) (f : CtlPort → CtlPort) : ctl c (modCtl c f s) = f (ctl c s) := by
  cases c <;> rfl

theorem ctl_modCtl_of_ne {c d : Ctl} (h : d ≠ c) (f : CtlPort → CtlPort) :
    ctl d (modCtl c f s) = ctl d s := by
  cases c <;> cases d <;> first | rfl | exact absurd rfl h

@[simp] theorem ctl_otherCtl_modCtl (c : Ctl) (f : CtlPort → CtlPort) :
    ctl (otherCtl c) (modCtl c f s) = ctl (otherCtl c) s := by
  cases c <;> rfl

@[simp] theorem ctl_modCtl_otherCtl (c : Ctl) (f : CtlPort → CtlPort) :
    ctl c (modCtl (otherCtl c) f s) = ctl c s := by
  cases c <;> rfl

theorem modCtl_modCtl (c : Ctl) (f g : CtlPort → CtlPort) :
    modCtl c f (modCtl c g s) = modCtl c (fun x => f (g x)) s := by
  cases c <;> rfl

theorem modCtl_self (c : Ctl) (f : CtlPort → CtlPort) (h : f (ctl c s) = ctl c s) : modCtl c f s = s := by
  cases c <;> simp_all [modCtl, ctl]

end Sys2Proof.Machine
end

