-- ==== Sys2Proof/Laws/Tables.lean ====
section
/-!
SUPPORT. Sparse tables: what a read gives after a write, and that a write keeps the canonical form.
-/

namespace Sys2Proof.Machine

variable {α : Type} [DecidableEq α] {d : α}

/-! ## The canonical form -/

theorem Table.wf_nil : Table.wf d ([] : Table α) = true := by simp [Table.wf]

theorem Table.wf_cons {i : Nat} {v : α} {t : Table α} :
    Table.wf d ((i, v) :: t) = true ↔ v ≠ d ∧ (∀ x ∈ t, i < x.1) ∧ Table.wf d t = true := by
  simp only [Table.wf, List.pairwise_cons, List.all_cons, Bool.and_eq_true, decide_eq_true_eq]
  tauto

omit [DecidableEq α] in
/-- In a canonical table a number below all those listed reads as the default. -/
theorem Table.get_of_lt {k : Nat} {t : Table α} (h : ∀ x ∈ t, k < x.1) : Table.get d t k = d := by
  induction t with
  | nil => rfl
  | cons x t ih =>
    have hx := h x (by simp)
    simp only [Table.get]
    rw [if_neg (by omega)]
    exact ih (fun y hy => h y (by simp [hy]))

/-! ## A read after a write -/

theorem Table.get_put_ne {t : Table α} {k x : Nat} {v : α} (h : x ≠ k) :
    Table.get d (Table.put d t k v) x = Table.get d t x := by
  induction t with
  | nil => by_cases hv : v = d <;> simp [Table.put, Table.get, hv, Ne.symm h]
  | cons y t ih =>
    obtain ⟨i, w⟩ := y
    simp only [Table.put]
    split
    · split <;> simp [Table.get, Ne.symm h]
    · split
      · rename_i _ hik
        split <;> simp [Table.get, hik, Ne.symm h]
      · simp only [Table.get, ih]

theorem Table.get_put_same_of_ne {t : Table α} {k : Nat} {v : α} (hv : v ≠ d) :
    Table.get d (Table.put d t k v) k = v := by
  induction t with
  | nil => simp [Table.put, Table.get, hv]
  | cons y t ih =>
    obtain ⟨i, w⟩ := y
    simp only [Table.put, hv, if_false]
    split
    · simp [Table.get]
    · split
      · simp [Table.get]
      · simp only [Table.get]
        rw [if_neg (by assumption)]
        exact ih

theorem Table.get_put_same {t : Table α} {k : Nat} {v : α} (h : Table.wf d t = true) :
    Table.get d (Table.put d t k v) k = v := by
  by_cases hv : v = d
  · subst hv
    induction t with
    | nil => simp [Table.put, Table.get]
    | cons y t ih =>
      obtain ⟨i, w⟩ := y
      obtain ⟨_, hlt, ht⟩ := Table.wf_cons.mp h
      simp only [Table.put, if_true]
      split
      · rename_i hk
        exact Table.get_of_lt (fun x hx => by
          rcases List.mem_cons.mp hx with rfl | hx
          · exact hk
          · exact lt_trans hk (hlt x hx))
      · split
        · rename_i _ hik
          subst hik
          exact Table.get_of_lt hlt
        · simp only [Table.get]
          rw [if_neg (by assumption)]
          exact ih ht
  · exact Table.get_put_same_of_ne hv

theorem Table.get_put {t : Table α} {k x : Nat} {v : α} (h : Table.wf d t = true) :
    Table.get d (Table.put d t k v) x = if x = k then v else Table.get d t x := by
  split
  · rename_i hx
    rw [hx]
    exact Table.get_put_same h
  · exact Table.get_put_ne (by assumption)

/-! ## A write keeps the canonical form -/

/-- Of two writes of one number the last stands, where the first is not the default. -/
theorem Table.put_put {t : Table α} {k : Nat} {v w : α} (hv : v ≠ d) :
    Table.put d (Table.put d t k v) k w = Table.put d t k w := by
  induction t with
  | nil => simp [Table.put, hv]
  | cons y t ih =>
    obtain ⟨i, x⟩ := y
    by_cases h1 : i = k
    · simp [Table.put, hv, h1]
    · by_cases h2 : k < i <;> simp [Table.put, hv, h1, h2, ih]

theorem Table.mem_put {t : Table α} {k : Nat} {v : α} {x : Nat × α} (h : x ∈ Table.put d t k v) :
    x = (k, v) ∨ x ∈ t := by
  induction t with
  | nil =>
    simp only [Table.put] at h
    split at h
    · simp at h
    · simp only [List.mem_singleton] at h
      simp [h]
  | cons y t ih =>
    obtain ⟨i, w⟩ := y
    simp only [Table.put] at h
    split at h
    · split at h
      · exact Or.inr h
      · rcases List.mem_cons.mp h with h | h
        · simp [h]
        · exact Or.inr h
    · split at h
      · split at h
        · exact Or.inr (by simp [h])
        · rcases List.mem_cons.mp h with h | h
          · simp [h]
          · exact Or.inr (by simp [h])
      · rcases List.mem_cons.mp h with h | h
        · exact Or.inr (by simp [h])
        · rcases ih h with h | h
          · exact Or.inl h
          · exact Or.inr (by simp [h])

theorem Table.wf_put {t : Table α} {k : Nat} {v : α} (h : Table.wf d t = true) :
    Table.wf d (Table.put d t k v) = true := by
  induction t with
  | nil => by_cases hv : v = d <;> simp [Table.put, Table.wf, hv]
  | cons y t ih =>
    obtain ⟨i, w⟩ := y
    obtain ⟨hw, hlt, ht⟩ := Table.wf_cons.mp h
    simp only [Table.put]
    split
    · rename_i hk
      split
      · exact h
      · refine Table.wf_cons.mpr ⟨by assumption, ?_, h⟩
        intro x hx
        rcases List.mem_cons.mp hx with rfl | hx
        · exact hk
        · exact lt_trans hk (hlt x hx)
    · split
      · rename_i _ hik
        subst hik
        split
        · exact ht
        · exact Table.wf_cons.mpr ⟨by assumption, hlt, ht⟩
      · refine Table.wf_cons.mpr ⟨hw, ?_, ih ht⟩
        intro x hx
        rcases Table.mem_put hx with rfl | hx
        · simp only; omega
        · exact hlt x hx

/-! ## Tables and lists of numbers -/

/-- A listed pair of a canonical table is what its number reads as. -/
theorem Table.get_of_mem {t : Table α} {k : Nat} {v : α} (h : Table.wf d t = true) (hm : (k, v) ∈ t) :
    Table.get d t k = v := by
  induction t with
  | nil => simp at hm
  | cons y t ih =>
    obtain ⟨i, w⟩ := y
    obtain ⟨_, hlt, ht⟩ := Table.wf_cons.mp h
    simp only [Table.get]
    rcases List.mem_cons.mp hm with hm | hm
    · obtain ⟨rfl, rfl⟩ := Prod.mk.inj hm
      simp
    · have := hlt _ hm
      rw [if_neg (by simp only at this; omega)]
      exact ih ht hm

omit [DecidableEq α] in
/-- A number that does not read as the default is listed with what it reads as. -/
theorem Table.mem_of_get {t : Table α} {k : Nat} (h : Table.get d t k ≠ d) : (k, Table.get d t k) ∈ t := by
  induction t with
  | nil => exact absurd rfl h
  | cons y t ih =>
    obtain ⟨i, w⟩ := y
    simp only [Table.get] at h ⊢
    split
    · simp_all
    · rw [if_neg (by assumption)] at h
      exact List.mem_cons_of_mem _ (ih h)

omit [DecidableEq α] in
/-- What a table reads as is the default or listed. -/
theorem Table.get_mem_or (t : Table α) (k : Nat) : Table.get d t k = d ∨ (k, Table.get d t k) ∈ t := by
  by_cases h : Table.get d t k = d
  · exact Or.inl h
  · exact Or.inr (Table.mem_of_get h)

omit [DecidableEq α] in
/-- A record of a table read through a map that keeps the default. -/
theorem Table.get_map {β : Type} {e : β} (f : α → β) (hf : f d = e) (t : Table α) (k : Nat) :
    Table.get e (t.map (fun x => (x.1, f x.2))) k = f (Table.get d t k) := by
  induction t with
  | nil => exact hf.symm
  | cons y t ih =>
    simp only [List.map_cons, Table.get]
    split
    · rfl
    · exact ih

end Sys2Proof.Machine
end

