-- ==== Sys2Proof/Laws/Frame.lean ====
section
/-!
SUPPORT. What the operations on calls, elements, orders, notices and meters leave alone: the Time Base, the
calendar, the supply, the timer table and the tariff, and the invariants of the meters and of the tables.
-/

namespace Sys2Proof.Machine

/-- A change below the clock, but for the law of the dirty list: the Time Base, the Supply Monitor, the calendar,
the timer table and the Charge Unit stand, and the meters, the tables and the call records keep their
invariants. -/
structure Base (r s : Part) : Prop where
  tb : s.tb = r.tb
  supply : s.supply = r.supply
  cal : s.cal = r.cal
  timers : s.timers = r.timers
  charge : s.charge = r.charge
  metersOk : MetersOk r → MetersOk s
  tablesOk : TablesOk r → TablesOk s
  callsOk : TablesOk r → CallsOk r → CallsOk s

/-- A change below the clock: `Base`, with the law of the dirty list (R140). -/
structure Low (r s : Part) : Prop extends Base r s where
  listedOk : ListedOk r → ListedOk s

theorem Base.refl (s : Part) : Base s s := ⟨rfl, rfl, rfl, rfl, rfl, id, id, fun _ g => g⟩

theorem Low.refl (s : Part) : Low s s := ⟨Base.refl s, id⟩

theorem Base.trans {q r s : Part} (h : Base q r) (g : Base r s) : Base q s :=
  ⟨g.tb.trans h.tb, g.supply.trans h.supply, g.cal.trans h.cal, g.timers.trans h.timers,
    g.charge.trans h.charge, g.metersOk ∘ h.metersOk, g.tablesOk ∘ h.tablesOk,
    fun t c => g.callsOk (h.tablesOk t) (h.callsOk t c)⟩

theorem Low.trans {q r s : Part} (h : Low q r) (g : Low r s) : Low q s :=
  ⟨h.toBase.trans g.toBase, g.listedOk ∘ h.listedOk⟩

variable {r s : Part}

/-! ## Changes of one block -/

theorem low_with_orig (h : Low r s) (o : OrigServer) : Low r { s with orig := o } :=
  h.trans ⟨⟨rfl, rfl, rfl, rfl, rfl, id, fun t => { t with }, fun _ t => t⟩, id⟩

theorem low_with_arb (h : Low r s) (o : Arbiter) : Low r { s with arb := o } :=
  h.trans ⟨⟨rfl, rfl, rfl, rfl, rfl, id, fun t => { t with }, fun _ t => t⟩, id⟩

theorem low_with_orders (h : Low r s) (o : List Order) : Low r { s with orders := o } :=
  h.trans ⟨⟨rfl, rfl, rfl, rfl, rfl, id, fun t => { t with }, fun _ t => t⟩, id⟩

theorem low_with_fresh (h : Low r s) (n : Nat) : Low r { s with fresh := n } :=
  h.trans ⟨⟨rfl, rfl, rfl, rfl, rfl, id, fun t => { t with }, fun _ t => t⟩, id⟩

theorem low_with_scan (h : Low r s) (x : Option Nat) (l : List Nat) :
    Low r { s with scan := { points := s.scan.points, pos := x, skip := l } } :=
  h.trans ⟨⟨rfl, rfl, rfl, rfl, rfl, id, fun t => { t with }, fun _ t => t⟩, id⟩

theorem low_place {id : Nat} {act : Action} (h : Low r s) : Low r (place id act s) :=
  h.trans ⟨⟨rfl, rfl, rfl, rfl, rfl, fun t => t, fun t => { t with }, fun _ t => t⟩, fun t => t⟩

theorem low_modLine {lt : Nat} {f : Line → Line} (h : Low r s) : Low r (modLine lt f s) :=
  h.trans ⟨⟨rfl, rfl, rfl, rfl, rfl, id, fun t => { t with lines := Table.wf_put t.lines }, fun _ t => t⟩, id⟩

theorem low_modFrame {n : Nat} {f : Frame → Frame} (h : Low r s) : Low r (modFrame n f s) :=
  h.trans ⟨⟨rfl, rfl, rfl, rfl, rfl, id, fun t => { t with frames := Table.wf_put t.frames }, fun _ t => t⟩, id⟩

theorem low_modRoute {n : Nat} {f : Route → Route} (h : Low r s) : Low r (modRoute n f s) :=
  h.trans ⟨⟨rfl, rfl, rfl, rfl, rfl, id, fun t => { t with routes := Table.wf_put t.routes }, fun _ t => t⟩, id⟩

theorem low_modJunction {j : Nat} {f : Junction → Junction} (h : Low r s) : Low r (modJunction j f s) :=
  h.trans ⟨⟨rfl, rfl, rfl, rfl, rfl, id, fun t => { t with junctions := Table.wf_put t.junctions }, fun _ t => t⟩, id⟩

theorem low_modElem {e : ElemId} {f : Element → Element} (h : Low r s) : Low r (modElem e f s) := by
  cases e with
  | fl n => exact h.trans ⟨⟨rfl, rfl, rfl, rfl, rfl, id, fun t => { t with fls := Table.wf_put t.fls }, fun _ t => t⟩, id⟩
  | cord n => exact h.trans ⟨⟨rfl, rfl, rfl, rfl, rfl, id, fun t => { t with cords := Table.wf_put t.cords }, fun _ t => t⟩, id⟩
  | junction j => simpa only [modElem] using low_modJunction h

theorem emptySet_onPlane : ElemSet.OnPlane {} := fun _ h => by cases h

theorem emptyCall_lawful : Call.Lawful {} :=
  ⟨fun _ h => by (cases h), emptySet_onPlane, emptySet_onPlane, emptySet_onPlane⟩

/-- The law of R2 for one set, field by field. -/
theorem onPlane_iff {x : ElemSet} :
    x.OnPlane ↔ ∀ c, x.cord = some c → c < 96 ∧ (∀ n, x.fl = some n → n % 12 = c / 8) ∧
      (∀ j, x.junction = some j → j % 12 = c / 8) ∧ (∀ n, x.tfl = some n → n % 12 = c / 8) ∧
      ∀ j, x.tjunction = some j → j % 12 = c / 8 := by
  refine forall_congr' (fun c => forall_congr' (fun hc => and_congr_right (fun _ => ?_)))
  simp only [ElemSet.elems, List.mem_append, Option.mem_toList, Option.map_eq_some_iff]
  constructor
  · intro h
    exact ⟨fun n g => h (.fl n) (Or.inl (Or.inl (Or.inl (Or.inl ⟨n, g, rfl⟩)))),
      fun n g => h (.junction n) (Or.inl (Or.inl (Or.inl (Or.inr ⟨n, g, rfl⟩)))),
      fun n g => h (.fl n) (Or.inl (Or.inr ⟨n, g, rfl⟩)), fun n g => h (.junction n) (Or.inr ⟨n, g, rfl⟩)⟩
  · rintro ⟨h1, h2, h3, h4⟩ e ((((⟨n, g, rfl⟩ | ⟨n, g, rfl⟩) | ⟨n, g, rfl⟩) | ⟨n, g, rfl⟩) | ⟨n, g, rfl⟩)
    · exact h1 n g
    · exact h2 n g
    · rw [hc] at g
      cases g
      rfl
    · exact h3 n g
    · exact h4 n g

theorem onPlane_ring {x : ElemSet} {b : Bool} (h : x.OnPlane) : ElemSet.OnPlane { x with ring := b } := h

theorem onPlane_reversed {x : ElemSet} {b : Bool} (h : x.OnPlane) : ElemSet.OnPlane { x with reversed := b } := h

theorem onPlane_without {x : ElemSet} (e : ElemId) (h : x.OnPlane) : (x.without e).OnPlane := by
  have drop : ∀ {o : Option Nat} {m n : Nat}, (if o = some m then none else o) = some n → o = some n := by
    intro o m n g
    split at g
    · cases g
    · exact g
  rw [onPlane_iff] at h ⊢
  intro c hc
  cases e with
  | cord n => exact h c (drop hc)
  | fl n =>
    obtain ⟨h0, h1, h2, h3, h4⟩ := h c hc
    exact ⟨h0, fun n g => h1 n (drop g), h2, fun n g => h3 n (drop g), h4⟩
  | junction n =>
    obtain ⟨h0, h1, h2, h3, h4⟩ := h c hc
    exact ⟨h0, h1, fun n g => h2 n (drop g), h3, fun n g => h4 n (drop g)⟩

theorem lawful_without {c : Call} (e : ElemId) (h : c.Lawful) : (c.without e).Lawful :=
  ⟨h.coin, onPlane_without e h.set, onPlane_without e h.old, onPlane_without e h.new⟩

/-- What is left of a reswitch's new set is the call's set (R81). -/
theorem onPlane_reswitched {c : Call} (g : c.Lawful) :
    (if c.reswitch then c.new else c.set).OnPlane ∧ c.old.OnPlane ∧
      (if c.reswitch then ({} : ElemSet) else c.new).OnPlane := by
  refine ⟨?_, g.old, ?_⟩
  · split
    · exact g.new
    · exact g.set
  · split
    · exact emptySet_onPlane
    · exact g.new

theorem call_lawful (h : CallsOk s) (id : Nat) : (call id s).Lawful := by
  rcases Table.get_mem_or (d := ({} : Call)) s.calls id with g | g
  · rw [call, g]
    exact emptyCall_lawful
  · exact h _ g

/-- A change of a call record that keeps its laws. -/
theorem low_modCall {id : Nat} {f : Call → Call} (h : Low r s)
    (hf : TablesOk r → CallsOk r → (call id s).Lawful → (f (call id s)).Lawful) : Low r (modCall id f s) := by
  refine ⟨⟨h.tb, h.supply, h.cal, h.timers, h.charge, h.metersOk, fun t => ?_, fun t c x hx => ?_⟩, h.listedOk⟩
  · exact { h.tablesOk t with calls := Table.wf_put (h.tablesOk t).calls }
  · rcases Table.mem_put hx with rfl | hx
    · exact hf t c (call_lawful (h.callsOk t c) id)
    · exact h.callsOk t c x hx

/-- A change of a call record that leaves its coin context and its element sets. -/
theorem low_modCall_same {id : Nat} {f : Call → Call} (h : Low r s)
    (hf : (f (call id s)).coin = (call id s).coin ∧ (f (call id s)).set = (call id s).set ∧
      (f (call id s)).old = (call id s).old ∧ (f (call id s)).new = (call id s).new) :
    Low r (modCall id f s) := by
  obtain ⟨h1, h2, h3, h4⟩ := hf
  exact low_modCall h (fun _ _ g => ⟨h1 ▸ g.coin, h2 ▸ g.set, h3 ▸ g.old, h4 ▸ g.new⟩)

/-- A change of a call record that leaves its element sets. -/
theorem low_modCall_coin {id : Nat} {f : Call → Call} (h : Low r s)
    (hs : (f (call id s)).set = (call id s).set ∧ (f (call id s)).old = (call id s).old ∧
      (f (call id s)).new = (call id s).new)
    (hf : (∀ k, (call id s).coin = some k → k.Lawful) → ∀ k, (f (call id s)).coin = some k → k.Lawful) :
    Low r (modCall id f s) := by
  obtain ⟨h2, h3, h4⟩ := hs
  exact low_modCall h (fun _ _ g => ⟨hf g.coin, h2 ▸ g.set, h3 ▸ g.old, h4 ▸ g.new⟩)

/-- A change of a call record's element sets that leaves its coin context. -/
theorem low_modCall_sets {id : Nat} {f : Call → Call} (h : Low r s)
    (hc : (f (call id s)).coin = (call id s).coin)
    (hs : TablesOk r → CallsOk r → (call id s).Lawful →
      (f (call id s)).set.OnPlane ∧ (f (call id s)).old.OnPlane ∧ (f (call id s)).new.OnPlane) :
    Low r (modCall id f s) :=
  low_modCall h (fun t c g => ⟨hc ▸ g.coin, (hs t c g).1, (hs t c g).2.1, (hs t c g).2.2⟩)

/-- Of two changes of a call record the second alone need keep its laws, where the first gives it a coin
context. -/
theorem low_modCall_twice {id : Nat} {f g : Call → Call} (h : Low r s) (hc : (f (call id s)).coin ≠ none)
    (hs : (g (f (call id s))).set = (call id s).set ∧ (g (f (call id s))).old = (call id s).old ∧
      (g (f (call id s))).new = (call id s).new)
    (hg : (∀ k, (call id s).coin = some k → k.Lawful) → ∀ k, (g (f (call id s))).coin = some k → k.Lawful) :
    Low r (modCall id g (modCall id f s)) := by
  have hne : f (call id s) ≠ {} := fun e => hc (by rw [e])
  have e : modCall id g (modCall id f s) = modCall id (fun c => g (f c)) s := by
    have hget : call id (modCall id f s) = f (call id s) := Table.get_put_same_of_ne hne
    have hp : Table.put {} (Table.put {} s.calls id (f (call id s))) id (g (f (call id s))) =
      Table.put {} s.calls id (g (f (call id s))) := Table.put_put hne
    have : modCall id g (modCall id f s) = { modCall id f s with
      calls := Table.put {} (Table.put {} s.calls id (f (call id s))) id (g (call id (modCall id f s))) } := rfl
    rw [this, hget, hp]
    rfl
  rw [e]
  exact low_modCall_coin h hs hg

theorem low_modPoint {p : Nat} {f : ScanEntry → ScanEntry} (h : Low r s) : Low r (modPoint p f s) :=
  h.trans ⟨⟨rfl, rfl, rfl, rfl, rfl, id, fun t => { t with points := Table.wf_put t.points }, fun _ t => t⟩, id⟩

theorem low_modCtl {c : Ctl} {f : CtlPort → CtlPort} (h : Low r s) : Low r (modCtl c f s) := by
  cases c <;> exact h.trans ⟨⟨rfl, rfl, rfl, rfl, rfl, id, fun t => { t with }, fun _ t => t⟩, id⟩

theorem low_modMaint {f : MaintPort → MaintPort} (h : Low r s) : Low r (modMaint f s) :=
  h.trans ⟨⟨rfl, rfl, rfl, rfl, rfl, id, fun t => { t with }, fun _ t => t⟩, id⟩

theorem low_modIo {p : Port} {f : PortIo → PortIo} (h : Low r s) : Low r (modIo p f s) := by
  cases p with
  | ctl c => simpa only [modIo] using low_modCtl h
  | maint => simpa only [modIo] using low_modMaint h

/-- A change of the Meter Store that keeps its entries, records, image and snapshot, and starts no meter write
of another value than its entry's. -/
theorem base_modMeters {f : MeterStore → MeterStore} (h : Base r s)
    (he : (f s.meters).entries = s.meters.entries) (hr : (f s.meters).records = s.meters.records)
    (hi : (f s.meters).image = s.meters.image) (hs : (f s.meters).snapshot = s.meters.snapshot)
    (hw : MetersOk s → ∀ lt v again, (f s.meters).engine = .meter lt v again → v.count < 10000000) :
    Base r (modMeters f s) := by
  refine h.trans ⟨rfl, rfl, rfl, rfl, rfl, fun t => ⟨?_, ?_, hw t⟩, fun t => ?_, fun _ t => t⟩
  · simpa [he] using t.1
  · simpa [hr] using t.2.1
  · exact
      { t with
        meters := by simpa [he] using t.meters
        records := by simpa [hr] using t.records
        snapshot := by simpa [hs] using t.snapshot
        imageLines := by simpa [hi] using t.imageLines
        imageFrames := by simpa [hi] using t.imageFrames
        imageRoutes := by simpa [hi] using t.imageRoutes
        imageJunctions := by simpa [hi] using t.imageJunctions
        imageFls := by simpa [hi] using t.imageFls
        imageCords := by simpa [hi] using t.imageCords
        imageTariff := by simpa [hi] using t.imageTariff
        imageCalendar := by simpa [hi] using t.imageCalendar }

theorem base_modMeters_same {f : MeterStore → MeterStore} (h : Base r s)
    (he : (f s.meters).entries = s.meters.entries) (hr : (f s.meters).records = s.meters.records)
    (hi : (f s.meters).image = s.meters.image) (hs : (f s.meters).snapshot = s.meters.snapshot)
    (hw : (f s.meters).engine = s.meters.engine) : Base r (modMeters f s) :=
  base_modMeters h he hr hi hs (fun t lt v again g => t.2.2 lt v again (hw ▸ g))

/-- The count of a meter entry stands below its top. -/
theorem meter_count_lt {s : Part} (h : MetersOk s) (lt : Nat) : (meter lt s).count < 10000000 := by
  rcases Table.get_mem_or (d := ({} : MeterEntry)) s.meters.entries lt with g | g
  · simp [meter, g]
  · exact h.1 _ g

theorem base_modMeter {lt : Nat} {f : MeterEntry → MeterEntry} (h : Base r s)
    (hf : (meter lt s).count < 10000000 → (f (meter lt s)).count < 10000000) : Base r (modMeter lt f s) := by
  refine h.trans ⟨rfl, rfl, rfl, rfl, rfl, fun t => ⟨?_, t.2.1, t.2.2⟩,
    fun t => { t with meters := Table.wf_put t.meters }, fun _ t => t⟩
  intro x hx
  rcases Table.mem_put hx with rfl | hx
  · exact hf (meter_count_lt t lt)
  · exact t.1 x hx

/-- A change of one meter record to a value within range. -/
theorem base_setRecord {lt : Nat} {v : MeterValue} (h : Base r s) (hv : MetersOk s → v.count < 10000000) :
    Base r (modMeters (fun m => { m with records := Table.put {} m.records lt v }) s) := by
  refine h.trans ⟨rfl, rfl, rfl, rfl, rfl, fun t => ⟨t.1, ?_, t.2.2⟩,
    fun t => { t with records := Table.wf_put t.records }, fun _ t => t⟩
  intro x hx
  rcases Table.mem_put hx with rfl | hx
  · exact hv t
  · exact t.2.1 x hx

/-- A change of the configuration image by one write. -/
theorem base_storeImage {w : ConfigValue} (h : Base r s) :
    Base r (modMeters (fun m => { m with image := m.image.store w }) s) := by
  refine h.trans ⟨rfl, rfl, rfl, rfl, rfl, fun t => ⟨t.1, t.2.1, t.2.2⟩, fun t => ?_, fun _ t => t⟩
  cases w with
  | marker b => exact { t with }
  | line i x => exact { t with imageLines := Table.wf_put t.imageLines }
  | frame i x => exact { t with imageFrames := Table.wf_put t.imageFrames }
  | route i x => exact { t with imageRoutes := Table.wf_put t.imageRoutes }
  | junction i x => exact { t with imageJunctions := Table.wf_put t.imageJunctions }
  | fl i x => exact { t with imageFls := Table.wf_put t.imageFls }
  | cord i x => exact { t with imageCords := Table.wf_put t.imageCords }
  | tariff i x => exact { t with imageTariff := Table.wf_put t.imageTariff }
  | entry i x => exact { t with imageCalendar := Table.wf_put t.imageCalendar }
  | timers x => exact { t with }
  | preferred x => exact { t with }

theorem low_foldl {α : Type} {f : Part → α → Part} (hf : ∀ s x, Low r s → Low r (f s x)) (l : List α)
    (h : Low r s) : Low r (l.foldl f s) := by
  induction l generalizing s with
  | nil => exact h
  | cons x l ih => exact ih (hf s x h)


/-! ## Ops -/

theorem low_setOcc {e : ElemId} {o : Occupancy}
    (h : Low r s) : Low r (setOcc e o s) := by
  unfold setOcc
  with_reducible repeat' first | assumption | apply low_modElem

theorem low_resetPoint {p : Nat}
    (h : Low r s) : Low r (resetPoint p s) := by
  unfold resetPoint
  with_reducible repeat' first | assumption | apply low_modPoint

theorem low_reserve {e : ElemId}
    (h : Low r s) : Low r (reserve e s) := by
  unfold reserve
  dsimp only
  with_reducible repeat' first | assumption | apply low_resetPoint | apply low_setOcc | split

theorem low_placeOperate {id : Nat} {x : Xp}
    (h : Low r s) : Low r (placeOperate id x s) := by
  unfold placeOperate
  with_reducible repeat' first | assumption | refine low_modCall_same ?_ ⟨rfl, rfl, rfl, rfl⟩ | apply low_place

theorem low_placeRelease {id : Nat} {x : Xp}
    (h : Low r s) : Low r (placeRelease id x s) := by
  unfold placeRelease
  with_reducible repeat' first | assumption | refine low_modCall_same ?_ ⟨rfl, rfl, rfl, rfl⟩ | apply low_place

theorem low_dropXp {id : Nat} {x : Xp}
    (h : Low r s) : Low r (dropXp id x s) := by
  unfold dropXp
  with_reducible repeat' first | assumption | refine low_modCall_same ?_ ⟨rfl, rfl, rfl, rfl⟩

theorem low_setClaim {id : Nat} {n : Nat}
    (h : Low r s) : Low r (setClaim id n s) := by
  unfold setClaim
  with_reducible repeat' first | assumption | refine low_modCall_same ?_ ⟨rfl, rfl, rfl, rfl⟩

theorem low_startTimer {id : Nat} {k : TimerKind} {limit : Nat}
    (h : Low r s) : Low r (startTimer id k limit s) := by
  unfold startTimer
  with_reducible repeat' first | assumption | refine low_modCall_same ?_ ⟨rfl, rfl, rfl, rfl⟩

theorem low_startInterdigit {id : Nat}
    (h : Low r s) : Low r (startInterdigit id s) := by
  unfold startInterdigit
  with_reducible repeat' first | assumption | apply low_startTimer

/-! ## Server -/

theorem low_retry 
    (h : Low r s) : Low r (retry s) := by
  unfold retry
  with_reducible repeat' first | assumption | apply low_with_orig

theorem low_dequeue {o : Party}
    (h : Low r s) : Low r (dequeue o s) := by
  unfold dequeue
  with_reducible repeat' first | assumption | apply low_retry | split | apply low_with_orig

theorem low_dropRehunt {id : Nat}
    (h : Low r s) : Low r (dropRehunt id s) := by
  unfold dropRehunt
  with_reducible repeat' first | assumption | apply low_retry | split | apply low_with_orig

/-! ## Notices -/

theorem low_reply {p : Port} {tag : Byte} {code : ResultCode} {data : List Byte}
    (h : Low r s) : Low r (reply p tag code data s) := by
  unfold reply
  with_reducible repeat' first | assumption | apply low_modIo

theorem low_immediate {p : Port} {tag : Byte} {code : ResultCode}
    (h : Low r s) : Low r (immediate p tag code s) := by
  unfold immediate
  with_reducible repeat' first | assumption | apply low_modIo | split

theorem low_enter {p : Port} {n : Notice}
    (h : Low r s) : Low r (enter p n s) := by
  unfold enter
  with_reducible repeat' first | assumption | apply low_modIo

theorem low_emptyCall {id : Nat} (h : Low r s) : Low r (modCall id (fun _ => {}) s) :=
  low_modCall h (fun _ _ _ => emptyCall_lawful)

theorem low_freeRecord {id : Nat} (h : Low r s) : Low r (freeRecord id s) := low_retry (low_emptyCall h)

theorem low_enterCall {p : Port} {id : Nat} {k : CallKind} {fixed : List Byte}
    (h : Low r s) : Low r (enterCall p id k fixed s) := by
  unfold enterCall
  dsimp only
  with_reducible repeat' first | assumption | apply low_enter | apply low_freeRecord | split

theorem low_drainOne {c : Ctl} {t : Part} (h : Low r s) (g : drainOne c s = some t) : Low r t := by
  unfold drainOne at g
  dsimp only at g
  repeat' split at g
  all_goals first | (cases g; done) | (obtain rfl := Option.some.inj g)
  all_goals
    with_reducible repeat'
      first
        | assumption | apply low_enterCall | apply low_enter | apply low_modCtl | refine low_modCall_same ?_ ⟨rfl, rfl, rfl, rfl⟩

theorem low_drainMaintOne {t : Part} (h : Low r s) (g : drainMaintOne s = some t) : Low r t := by
  unfold drainMaintOne at g
  repeat' split at g
  all_goals first | (cases g; done) | (obtain rfl := Option.some.inj g)
  all_goals
    repeat' first | assumption | apply low_enter | apply low_enterCall | apply low_modMaint

theorem low_repeatStep {f : Part → Option Part} (hf : ∀ s t, Low r s → f s = some t → Low r t) (n : Nat)
    (h : Low r s) : Low r (repeatStep f n s) := by
  induction n generalizing s with
  | zero => exact h
  | succ n ih =>
    unfold repeatStep
    split
    · exact ih (hf _ _ h (by assumption))
    · exact h

theorem low_drainCtl {c : Ctl} (h : Low r s) : Low r (drainCtl c s) :=
  low_repeatStep (fun _ _ h g => low_drainOne h g) _ h

theorem low_drainMaint (h : Low r s) : Low r (drainMaint s) :=
  low_repeatStep (fun _ _ h g => low_drainMaintOne h g) _ h

theorem low_raiseCall {id : Nat} {k : CallKind} {fixed : List Byte}
    (h : Low r s) : Low r (raiseCall id k fixed s) := by
  unfold raiseCall
  with_reducible repeat'
    first
      | assumption | apply low_drainCtl | apply low_enterCall | refine low_modCall_same ?_ ⟨rfl, rfl, rfl, rfl⟩ | split

theorem low_raisePlain {id : Nat} {k : CallKind}
    (h : Low r s) : Low r (raisePlain id k s) := by
  unfold raisePlain
  with_reducible repeat' first | assumption | apply low_raiseCall

theorem low_raisePeer {c : Ctl} {present : Bool}
    (h : Low r s) : Low r (raisePeer c present s) := by
  unfold raisePeer
  with_reducible repeat' first | assumption | apply low_enter | apply low_modCtl | split

theorem low_raiseMaint {k : MaintKind} {d : List Byte}
    (h : Low r s) : Low r (raiseMaint k d s) := by
  unfold raiseMaint
  with_reducible repeat'
    first
      | assumption | apply low_drainMaint | apply low_enter | apply low_modMaint | split

theorem low_frameEnd {p : Port}
    (h : Low r s) : Low r (frameEnd p s) := by
  unfold frameEnd
  dsimp only
  with_reducible repeat'
    first
      | assumption | apply low_drainCtl | apply low_drainMaint | apply low_modIo | split

/-! ## Meters -/

theorem base_raiseMaint {k : MaintKind} {d : List Byte} (h : Base r s) : Base r (raiseMaint k d s) :=
  h.trans (low_raiseMaint (Low.refl s)).toBase

theorem base_startMeterWrite (h : Base r s) : Base r (startMeterWrite s) := by
  unfold startMeterWrite
  split
  · exact h
  · refine base_modMeters h rfl rfl rfl rfl (fun t _ _ _ g => ?_)
    obtain ⟨-, rfl, -⟩ := Engine.meter.inj g
    exact meter_count_lt t _

theorem base_startConfigWrite {v : Save}
    (h : Base r s) : Base r (startConfigWrite v s) := by
  unfold startConfigWrite
  dsimp only
  with_reducible repeat'
    first
      | assumption | refine base_modMeters_same ?_ rfl rfl rfl rfl rfl
      | refine base_modMeters ?_ rfl rfl rfl rfl (fun _ _ _ _ g => by cases g)

theorem base_nextWrite 
    (h : Base r s) : Base r (nextWrite s) := by
  unfold nextWrite
  with_reducible repeat'
    first
      | assumption | apply base_startConfigWrite | apply base_startMeterWrite
      | refine base_modMeters_same ?_ rfl rfl rfl rfl rfl
      | refine base_modMeters ?_ rfl rfl rfl rfl (fun _ _ _ _ g => by cases g) | split

theorem base_trickle 
    (h : Base r s) : Base r (trickle s) := by
  unfold trickle
  with_reducible repeat' first | assumption | apply base_startMeterWrite | split

theorem base_engineIdle 
    (h : Base r s) : Base r (engineIdle s) := by
  unfold engineIdle
  with_reducible repeat'
    first
      | assumption | apply base_nextWrite | refine base_modMeters_same ?_ rfl rfl rfl rfl rfl
      | refine base_modMeters ?_ rfl rfl rfl rfl (fun _ _ _ _ g => by cases g)

theorem base_meterWritten {lt : Nat} {v : MeterValue} (h : Base r s) (hv : MetersOk s → v.count < 10000000) :
    Base r (meterWritten lt v s) := base_engineIdle (base_setRecord h hv)

theorem base_spoilRecord {lt : Nat} (h : Base r s) : Base r (spoilRecord lt s) :=
  (base_setRecord h (fun _ => Nat.mod_lt _ (by decide))).trans ⟨rfl, rfl, rfl, rfl, rfl, id, fun t => { t with }, fun _ t => t⟩

theorem base_meterFault {lt : Nat} {v : MeterValue} (h : Base r s) : Base r (meterFault lt v s) :=
  base_engineIdle (base_raiseMaint
    (base_modMeters_same (base_modMeter (base_spoilRecord h) id) rfl rfl rfl rfl rfl))

theorem base_endSave {complete : Bool} {records : Nat}
    (h : Base r s) : Base r (endSave complete records s) := by
  unfold endSave
  dsimp only
  with_reducible repeat'
    first
      | assumption | apply base_engineIdle | apply base_raiseMaint
      | refine base_modMeters_same ?_ rfl rfl rfl rfl rfl

theorem base_configWritten {w : ConfigValue} (h : Base r s) : Base r (configWritten w s) := by
  unfold configWritten
  dsimp only
  repeat' split
  all_goals
    with_reducible repeat'
      first
        | assumption | apply base_endSave | apply base_engineIdle | apply base_storeImage
        | refine base_modMeters_same ?_ rfl rfl rfl rfl rfl

theorem base_spoilMarker (h : Base r s) : Base r (spoilMarker s) :=
  h.trans ⟨rfl, rfl, rfl, rfl, rfl, fun t => ⟨t.1, t.2.1, t.2.2⟩, fun t => { t with }, fun _ t => t⟩

theorem base_configFault {w : ConfigValue}
    (h : Base r s) : Base r (configFault w s) := by
  unfold configFault
  dsimp only
  with_reducible repeat' first | assumption | apply base_endSave | apply base_spoilMarker | split

theorem base_writeEnd {verified : Bool} (h : Base r s) : Base r (writeEnd verified s) := by
  unfold writeEnd
  split
  · exact h
  · rename_i lt v again he
    repeat' split
    · exact base_meterWritten h (fun t => t.2.2 lt v again he)
    · exact base_meterFault h
    · refine base_modMeters h rfl rfl rfl rfl (fun t _ _ _ g => ?_)
      obtain ⟨rfl, rfl, -⟩ := Engine.meter.inj g
      exact t.2.2 _ _ _ he
  · repeat' split
    · exact base_configWritten h
    · exact base_configFault h
    · exact base_modMeters h rfl rfl rfl rfl (fun _ _ _ _ g => by cases g)

theorem base_joinDirty {lt : Nat}
    (h : Base r s) : Base r (joinDirty lt s) := by
  unfold joinDirty
  with_reducible repeat'
    first
      | assumption | apply base_nextWrite | refine base_modMeters_same ?_ rfl rfl rfl rfl rfl
      | refine base_modMeters ?_ rfl rfl rfl rfl (fun _ _ _ _ g => by cases g) | split

theorem base_addUnits {lt n : Nat} (h : Base r s) : Base r (addUnits lt n s) := by
  unfold addUnits
  dsimp only
  repeat' split
  · exact h
  · rename_i g
    exact base_joinDirty (base_modMeter h (fun _ => g))
  · exact base_joinDirty (base_raiseMaint (base_modMeter h (fun _ => Nat.mod_lt _ (by decide))))

theorem base_clearRolloverFlag {lt : Nat} (h : Base r s) : Base r (clearRolloverFlag lt s) := by
  unfold clearRolloverFlag
  split
  · exact base_joinDirty (base_modMeter h id)
  · exact h

theorem base_clearFaultFlag {lt : Nat} (h : Base r s) : Base r (clearFaultFlag lt s) := by
  unfold clearFaultFlag
  split
  · exact base_joinDirty (base_modMeter h id)
  · exact h


/-! ### The law of the dirty list (R140) -/

/-- The law of the dirty list, but for one line. -/
def ListedBut (x : Nat) (s : Part) : Prop :=
  (∀ lt, lt ≠ x → (meter lt s).value ≠ Table.get {} s.meters.records lt →
    lt ∈ s.meters.dirty ∨ writingLine s = some lt ∨ (meter lt s).nvFault = true) ∧
  ∀ lt v again, lt ≠ x → s.meters.engine = .meter lt v again → (meter lt s).value ≠ v →
    lt ∈ s.meters.dirty ∨ (meter lt s).nvFault = true

theorem listed_congr {t : Part} (h : t.meters = s.meters) (g : ListedOk s) : ListedOk t := by
  simpa only [ListedOk, meter, writingLine, h] using g

theorem listedBut_congr {t : Part} {x : Nat} (h : t.meters = s.meters) (g : ListedBut x s) : ListedBut x t := by
  simpa only [ListedBut, meter, writingLine, h] using g

/-- The law is kept by a change of the Meter Store that keeps its entries, its records and its engine, and the
lines of its dirty list. -/
theorem listed_modMeters {f : MeterStore → MeterStore} (he : (f s.meters).entries = s.meters.entries)
    (hr : (f s.meters).records = s.meters.records) (hw : (f s.meters).engine = s.meters.engine)
    (hd : ∀ x, x ∈ s.meters.dirty → x ∈ (f s.meters).dirty) (g : ListedOk s) : ListedOk (modMeters f s) := by
  have hwr : writingLine (modMeters f s) = writingLine s := by simp only [writingLine, modMeters, hw]
  have hm : ∀ lt, meter lt (modMeters f s) = meter lt s := fun lt => by simp only [meter, modMeters, he]
  refine ⟨fun lt h => ?_, fun lt v again h g' => ?_⟩
  · rw [hm, show (modMeters f s).meters.records = s.meters.records from hr] at h
    rw [hm, hwr]
    exact (g.1 lt h).imp_left (hd lt)
  · rw [hm] at g' ⊢
    rw [show (modMeters f s).meters.engine = s.meters.engine from hw] at h
    exact (g.2 lt v again h g').imp_left (hd lt)

/-- The law is kept where an engine that writes no meter goes on to another such write, or to none. -/
theorem listed_engine {f : MeterStore → MeterStore} (he : (f s.meters).entries = s.meters.entries)
    (hr : (f s.meters).records = s.meters.records) (hd : (f s.meters).dirty = s.meters.dirty)
    (hw : ∀ lt v again, (f s.meters).engine ≠ .meter lt v again) (hs : writingLine s = none) (g : ListedOk s) :
    ListedOk (modMeters f s) := by
  have hm : ∀ lt, meter lt (modMeters f s) = meter lt s := fun lt => by simp only [meter, modMeters, he]
  refine ⟨fun lt h => ?_, fun lt v again h _ => absurd h (hw lt v again)⟩
  rw [hm, show (modMeters f s).meters.records = s.meters.records from hr] at h
  rw [hm, show (modMeters f s).meters.dirty = s.meters.dirty from hd]
  rcases g.1 lt h with h | h | h
  · exact Or.inl h
  · rw [hs] at h
    cases h
  · exact Or.inr (Or.inr h)

theorem listed_startMeterWrite (hs : writingLine s = none) (g : ListedOk s) : ListedOk (startMeterWrite s) := by
  unfold startMeterWrite
  split
  · exact g
  · rename_i lt rest hd
    refine ⟨fun x h => ?_, fun x v again h g' => ?_⟩
    · rcases g.1 x h with h | h | h
      · rw [hd] at h
        rcases List.mem_cons.mp h with rfl | h
        · exact Or.inr (Or.inl rfl)
        · exact Or.inl h
      · rw [hs] at h
        cases h
      · exact Or.inr (Or.inr h)
    · obtain ⟨rfl, rfl, -⟩ := Engine.meter.inj h
      exact absurd rfl g'

theorem listed_nextWrite (g : ListedOk s) : ListedOk (nextWrite s) := by
  unfold nextWrite
  split
  · exact g
  · rename_i hi
    have hs : s.meters.engine = .idle := by
      by_contra h
      exact hi (Or.inl h)
    have hn : writingLine s = none := by simp only [writingLine, hs]
    repeat' split
    · exact listed_engine rfl rfl rfl (fun _ _ _ h => by cases h) hn g
    · exact listed_startMeterWrite hn (listed_modMeters (f := fun m => { m with save := _ }) rfl rfl rfl
        (fun _ h => h) g)
    · exact listed_engine rfl rfl rfl (fun _ _ _ h => by cases h) hn g
    · exact listed_startMeterWrite hn g
    · exact g

theorem listed_trickle (g : ListedOk s) : ListedOk (trickle s) := by
  unfold trickle
  split
  · rename_i h
    exact listed_startMeterWrite (by simp only [writingLine, h.1]) g
  · exact g

/-- A changed line joins the list, and the law holds of it again. -/
theorem listed_joinDirty {lt : Nat} (g : ListedBut lt s) : ListedOk (joinDirty lt s) := by
  unfold joinDirty
  split
  · rename_i h
    refine ⟨fun x hx => ?_, fun x v again hw hx => ?_⟩
    · by_cases hq : x = lt
      · subst hq
        exact h.imp_right Or.inr
      · exact g.1 x hq hx
    · by_cases hq : x = lt
      · subst hq
        exact h
      · exact g.2 x v again hq hw hx
  · refine listed_nextWrite ⟨fun x hx => ?_, fun x v again hw hx => ?_⟩
    · by_cases hq : x = lt
      · subst hq
        exact Or.inl (by simp [modMeters])
      · exact (g.1 x hq hx).imp_left (fun h => by simp [modMeters, h])
    · by_cases hq : x = lt
      · subst hq
        exact Or.inl (by simp [modMeters])
      · exact (g.2 x v again hq hw hx).imp_left (fun h => by simp [modMeters, h])

theorem listedBut_modMeter {lt : Nat} {f : MeterEntry → MeterEntry} (g : ListedOk s) :
    ListedBut lt (modMeter lt f s) := by
  have hm : ∀ x, x ≠ lt → meter x (modMeter lt f s) = meter x s := fun x hx => Table.get_put_ne hx
  refine ⟨fun x hq hx => ?_, fun x v again hq hw hx => ?_⟩
  · rw [hm x hq] at hx ⊢
    exact g.1 x hx
  · rw [hm x hq] at hx ⊢
    exact g.2 x v again hw hx

/-! ### What raising a maintenance notice leaves of the Meter Store -/

theorem meters_enter (p : Port) (n : Notice) (s : Part) : (enter p n s).meters = s.meters := by
  rcases p with (_ | _) | _ <;> rfl

theorem meters_enterCall (p : Port) (id : Nat) (k : CallKind) (d : List Byte) (s : Part) :
    (enterCall p id k d s).meters = s.meters := by
  unfold enterCall
  dsimp only
  split
  · exact meters_enter p _ s
  · exact meters_enter p _ s

theorem meters_drainMaintOne {t : Part} (h : drainMaintOne s = some t) : t.meters = s.meters := by
  unfold drainMaintOne at h
  repeat' split at h
  all_goals first | (cases h; done) | (obtain rfl := Option.some.inj h)
  · exact meters_enter _ _ _
  · exact meters_enterCall _ _ _ _ _

theorem meters_raiseMaint (k : MaintKind) (d : List Byte) (s : Part) : (raiseMaint k d s).meters = s.meters := by
  have hn : ∀ n (t : Part), (repeatStep drainMaintOne n t).meters = t.meters := by
    intro n
    induction n with
    | zero => exact fun _ => rfl
    | succ n ih =>
      intro t
      unfold repeatStep
      split
      · rename_i h
        rw [ih, meters_drainMaintOne h]
      · rfl
  unfold raiseMaint
  split
  · exact meters_enter _ _ _
  · exact hn _ _

/-! ### Increments and writes -/

theorem low_nextWrite (h : Low r s) : Low r (nextWrite s) := ⟨base_nextWrite h.toBase, listed_nextWrite ∘ h.listedOk⟩

theorem low_trickle (h : Low r s) : Low r (trickle s) := ⟨base_trickle h.toBase, listed_trickle ∘ h.listedOk⟩

theorem low_addUnits {lt n : Nat} (h : Low r s) : Low r (addUnits lt n s) := by
  refine ⟨base_addUnits h.toBase, fun t => ?_⟩
  have g := h.listedOk t
  unfold addUnits
  dsimp only
  repeat' split
  · exact g
  · exact listed_joinDirty (listedBut_modMeter g)
  · exact listed_joinDirty (listedBut_congr (meters_raiseMaint _ _ _) (listedBut_modMeter g))

theorem low_clearRolloverFlag {lt : Nat} (h : Low r s) : Low r (clearRolloverFlag lt s) := by
  refine ⟨base_clearRolloverFlag h.toBase, fun t => ?_⟩
  unfold clearRolloverFlag
  split
  · exact listed_joinDirty (listedBut_modMeter (h.listedOk t))
  · exact h.listedOk t

theorem low_clearFaultFlag {lt : Nat} (h : Low r s) : Low r (clearFaultFlag lt s) := by
  refine ⟨base_clearFaultFlag h.toBase, fun t => ?_⟩
  unfold clearFaultFlag
  split
  · exact listed_joinDirty (listedBut_modMeter (h.listedOk t))
  · exact h.listedOk t

/-- The engine ends a write: the law holds of the line written, by its record, its flag or the list. -/
theorem listed_engineIdle (h : ∀ lt, (meter lt s).value ≠ Table.get {} s.meters.records lt →
    lt ∈ s.meters.dirty ∨ (meter lt s).nvFault = true) : ListedOk (engineIdle s) := by
  refine listed_nextWrite ⟨fun lt g => ?_, fun lt v again g => by cases g⟩
  exact (h lt g).imp_right Or.inr

theorem listed_writeEnd {verified : Bool} (g : ListedOk s) (ht : TablesOk s) : ListedOk (writeEnd verified s) := by
  unfold writeEnd
  split
  · exact g
  · rename_i lt v again he
    have hw : writingLine s = some lt := by simp only [writingLine, he]
    repeat' split
    · refine listed_engineIdle (fun x hx => ?_)
      by_cases hq : x = lt
      · subst hq
        have : (meter x s).value ≠ v := fun h => hx (h.trans (Table.get_put_same ht.records).symm)
        exact g.2 x v again he this
      · have : (meter x s).value ≠ Table.get {} s.meters.records x := fun h => hx (h.trans (Table.get_put_ne hq).symm)
        rcases g.1 x this with h | h | h
        · exact Or.inl h
        · rw [hw] at h
          exact absurd (Option.some.inj h).symm hq
        · exact Or.inr h
    · unfold meterFault
      refine listed_engineIdle (fun x hx => ?_)
      simp only [meter, meters_raiseMaint] at hx ⊢
      by_cases hq : x = lt
      · subst hq
        right
        have : meter x (modMeter x (fun e => { e with nvFault := true }) (spoilRecord x s)) =
          { meter x s with nvFault := true } := Table.get_put_same ht.meters
        exact congrArg MeterEntry.nvFault this
      · have hm : meter x (modMeter lt (fun e => { e with nvFault := true }) (spoilRecord lt s)) = meter x s :=
          Table.get_put_ne hq
        have hx' : (meter x s).value ≠ Table.get {} s.meters.records x := by
          intro h
          apply hx
          refine (congrArg MeterEntry.value hm).trans (h.trans ?_)
          exact (Table.get_put_ne hq).symm
        rcases g.1 x hx' with h | h | h
        · left
          simpa [modMeters, modMeter, spoilRecord, hq] using h
        · rw [hw] at h
          exact absurd (Option.some.inj h).symm hq
        · exact Or.inr ((congrArg MeterEntry.nvFault hm).trans h)
    · refine ⟨fun x hx => ?_, fun x w b h hx => ?_⟩
      · rcases g.1 x hx with h | h | h
        · exact Or.inl h
        · rw [hw] at h
          exact Or.inr (Or.inl h)
        · exact Or.inr (Or.inr h)
      · obtain ⟨rfl, rfl, -⟩ := Engine.meter.inj h
        exact g.2 _ _ _ he hx
  · rename_i w again he
    have hw : writingLine s = none := by simp only [writingLine, he]
    have hb : ∀ x, (meter x s).value ≠ Table.get {} s.meters.records x →
        x ∈ s.meters.dirty ∨ (meter x s).nvFault = true := by
      intro x hx
      rcases g.1 x hx with h | h | h
      · exact Or.inl h
      · rw [hw] at h
        cases h
      · exact Or.inr h
    repeat' split
    · unfold configWritten
      dsimp only
      repeat' split
      · exact listed_engineIdle hb
      · unfold endSave
        refine listed_engineIdle ?_
        simp only [meter, meters_raiseMaint]
        exact hb
      · exact listed_engineIdle hb
    · unfold configFault endSave
      refine listed_engineIdle ?_
      simp only [meter, meters_raiseMaint]
      split
      · exact hb
      · exact hb
    · exact listed_engine rfl rfl rfl (fun _ _ _ h => by cases h) hw g

/-! ## Network -/

theorem low_rearm {p : Nat}
    (h : Low r s) : Low r (rearm p s) := by
  unfold rearm
  dsimp only
  with_reducible repeat' first | assumption | apply low_modPoint

theorem low_loadPoint {e : ScanEntry} {dst : Nat}
    (h : Low r s) : Low r (loadPoint e dst s) := by
  unfold loadPoint
  with_reducible repeat' first | assumption | apply low_modPoint | apply low_rearm

theorem low_handOver {src : Nat} {dst : Nat}
    (h : Low r s) : Low r (handOver src dst s) := by
  unfold handOver
  dsimp only
  with_reducible repeat'
    first
      | assumption | apply low_loadPoint | apply low_modPoint | split | apply low_with_scan

theorem low_dropPulses {id : Nat}
    (h : Low r s) : Low r (dropPulses id s) := by
  unfold dropPulses
  with_reducible repeat' first | assumption | apply low_modPoint | split

theorem low_rearmCall {id : Nat}
    (h : Low r s) : Low r (rearmCall id s) := by
  unfold rearmCall
  with_reducible repeat' first | assumption | apply low_rearm | refine low_foldl (fun _ _ _ => ?_) _ ?_

theorem low_spend {p : Nat} (h : Low r s) : Low r (spend s p) := by
  unfold spend
  with_reducible repeat' first | assumption | apply low_modPoint | split

theorem low_spendCall {id : Nat} (h : Low r s) : Low r (spendCall id s) := by
  unfold spendCall
  with_reducible repeat' first | assumption | apply low_spend | refine low_foldl (fun _ _ _ => ?_) _ ?_

theorem low_settleJunction {j : Nat}
    (h : Low r s) : Low r (settleJunction j s) := by
  unfold settleJunction
  with_reducible repeat' first | assumption | apply low_modJunction

theorem low_seizeJunction {j : Nat}
    (h : Low r s) : Low r (seizeJunction j s) := by
  unfold seizeJunction
  with_reducible repeat' first | assumption | apply low_modJunction | apply low_rearm | apply low_retry

theorem low_seizeIfLoop {j : Nat}
    (h : Low r s) : Low r (seizeIfLoop j s) := by
  unfold seizeIfLoop
  dsimp only
  with_reducible repeat' first | assumption | apply low_seizeJunction | split

theorem low_idleJunction {j : Nat}
    (h : Low r s) : Low r (idleJunction j s) := by
  unfold idleJunction
  dsimp only
  with_reducible repeat'
    first
      | assumption | apply low_dequeue | apply low_modJunction | apply low_rearm
      | apply low_settleJunction

theorem low_leaveJunction {j : Nat}
    (h : Low r s) : Low r (leaveJunction j s) := by
  unfold leaveJunction
  dsimp only
  with_reducible repeat'
    first
      | assumption | apply low_modJunction | apply low_rearm | apply low_resetPoint
      | apply low_settleJunction | split

theorem low_withdrawLine {lt : Nat}
    (h : Low r s) : Low r (withdrawLine lt s) := by
  unfold withdrawLine
  dsimp only
  with_reducible repeat'
    first
      | assumption | apply low_dequeue | apply low_modLine | apply low_rearm

theorem low_takeClass {lt : Nat} {k : LineClass}
    (h : Low r s) : Low r (takeClass lt k s) := by
  unfold takeClass
  dsimp only
  with_reducible repeat'
    first
      | assumption | apply low_modLine | apply low_resetPoint | apply low_withdrawLine | split

theorem low_settleClass {lt : Nat}
    (h : Low r s) : Low r (settleClass lt s) := by
  unfold settleClass
  with_reducible repeat' first | assumption | apply low_takeClass | split

theorem low_leaveLine {id : Nat} {lt : Nat}
    (h : Low r s) : Low r (leaveLine id lt s) := by
  unfold leaveLine
  dsimp only
  with_reducible repeat'
    first
      | assumption | apply low_loadPoint | apply low_modLine | apply low_rearm | apply low_settleClass
      | split

theorem low_leaveParty {id : Nat} {x : Party}
    (h : Low r s) : Low r (leaveParty id x s) := by
  unfold leaveParty
  with_reducible repeat' first | assumption | apply low_leaveJunction | apply low_leaveLine | split

theorem low_rearmCalled {id : Nat}
    (h : Low r s) : Low r (rearmCalled id s) := by
  unfold rearmCalled
  with_reducible repeat' first | assumption | apply low_rearm | split

theorem low_leaveTerm {id : Nat}
    (h : Low r s) : Low r (leaveTerm id s) := by
  unfold leaveTerm
  with_reducible repeat' first | assumption | apply low_rearmCalled | apply low_leaveParty | refine low_modCall_same ?_ ⟨rfl, rfl, rfl, rfl⟩ | split

theorem low_keepEntries {id : Nat} {e : ElemId}
    (h : Low r s) : Low r (keepEntries id e s) := by
  unfold keepEntries
  dsimp only
  with_reducible repeat' first | assumption | refine low_modCall_same ?_ ⟨rfl, rfl, rfl, rfl⟩ | split

theorem low_becomeFree {e : ElemId}
    (h : Low r s) : Low r (becomeFree e s) := by
  unfold becomeFree
  dsimp only
  with_reducible repeat'
    first
      | assumption | apply low_modElem | apply low_retry | apply low_seizeIfLoop
      | apply low_settleJunction | split

theorem low_unnameTerm {id : Nat} {e : ElemId}
    (h : Low r s) : Low r (unnameTerm id e s) := by
  unfold unnameTerm
  with_reducible repeat' first | assumption | refine low_modCall_same ?_ ⟨rfl, rfl, rfl, rfl⟩ | split

theorem low_freeElem {id : Nat} {e : ElemId}
    (h : Low r s) : Low r (freeElem id e s) := by
  unfold freeElem
  with_reducible repeat'
    first
      | assumption | apply low_becomeFree | apply low_keepEntries | refine low_modCall ?_ (fun _ _ g => lawful_without _ g)
      | apply low_unnameTerm

theorem low_leaveFaulty {id : Nat} {e : ElemId}
    (h : Low r s) : Low r (leaveFaulty id e s) := by
  unfold leaveFaulty
  dsimp only
  with_reducible repeat'
    first
      | assumption | apply low_idleJunction | apply low_leaveJunction | apply low_leaveTerm
      | refine low_modCall_same ?_ ⟨rfl, rfl, rfl, rfl⟩ | split

theorem low_dropFaulty {id : Nat}
    (h : Low r s) : Low r (dropFaulty id s) := by
  unfold dropFaulty
  exact low_modCall_same h ⟨rfl, rfl, rfl, rfl⟩

theorem low_markFaulty {id : Nat} {e : ElemId}
    (h : Low r s) : Low r (markFaulty id e s) := by
  unfold markFaulty
  dsimp only
  with_reducible repeat'
    first
      | assumption | apply low_leaveFaulty | apply low_dropFaulty
      | refine low_modCall ?_ (fun _ _ g => lawful_without _ g) | apply low_modElem
      | apply low_raiseMaint | split

theorem low_busyOutElem {e : ElemId}
    (h : Low r s) : Low r (busyOutElem e s) := by
  unfold busyOutElem
  dsimp only
  with_reducible repeat' first | assumption | apply low_idleJunction | apply low_modElem | split

theorem low_returned {e : ElemId}
    (h : Low r s) : Low r (returned e s) := by
  unfold returned
  with_reducible repeat'
    first
      | assumption | apply low_resetPoint | apply low_retry | apply low_settleJunction | split

theorem low_returnElem {e : ElemId}
    (h : Low r s) : Low r (returnElem e s) := by
  unfold returnElem
  dsimp only
  with_reducible repeat' first | assumption | apply low_modElem | apply low_returned | split

theorem low_busyOutLine {lt : Nat}
    (h : Low r s) : Low r (busyOutLine lt s) := by
  unfold busyOutLine
  with_reducible repeat' first | assumption | apply low_modLine | apply low_withdrawLine | split

theorem low_returnLine {lt : Nat}
    (h : Low r s) : Low r (returnLine lt s) := by
  unfold returnLine
  with_reducible repeat' first | assumption | apply low_modLine | apply low_resetPoint | split

theorem low_writeClass {lt : Nat} {k : LineClass}
    (h : Low r s) : Low r (writeClass lt k s) := by
  unfold writeClass
  with_reducible repeat' first | assumption | apply low_modLine | apply low_takeClass | split

/-! ## Release -/

theorem low_restartClosed {id : Nat}
    (h : Low r s) : Low r (restartClosed id s) := by
  unfold restartClosed
  dsimp only
  with_reducible repeat' first | assumption | apply low_modMaint | apply low_reply | split

theorem low_raiseCleared {id : Nat}
    (h : Low r s) : Low r (raiseCleared id s) := by
  unfold raiseCleared
  with_reducible repeat'
    first
      | assumption | apply low_drainMaint | refine low_modCall_same ?_ ⟨rfl, rfl, rfl, rfl⟩ | apply low_raiseCall | split

theorem low_leaveOrigin {id : Nat}
    (h : Low r s) : Low r (leaveOrigin id s) := by
  unfold leaveOrigin
  with_reducible repeat' first | assumption | apply low_leaveParty | split

theorem low_closeCall {id : Nat}
    (h : Low r s) : Low r (closeCall id s) := by
  unfold closeCall
  dsimp only
  with_reducible repeat'
    first
      | assumption | apply low_leaveOrigin | apply low_leaveTerm | refine low_modCall ?_ (fun _ _ g => ⟨g.coin, emptySet_onPlane, emptySet_onPlane, emptySet_onPlane⟩)
      | apply low_raiseCleared | apply low_restartClosed

theorem low_releaseElem {id : Nat} {e : ElemId}
    (h : Low r s) : Low r (releaseElem id e s) := by
  unfold releaseElem
  with_reducible repeat' first | assumption | apply low_freeElem | apply low_setOcc | split

theorem low_releaseStep2 {id : Nat}
    (h : Low r s) : Low r (releaseStep2 id s) := by
  unfold releaseStep2
  dsimp only
  with_reducible repeat'
    first
      | assumption | apply low_closeCall | refine low_modCall_same ?_ ⟨rfl, rfl, rfl, rfl⟩ | apply low_placeRelease
      | apply low_releaseElem | refine low_foldl (fun _ _ _ => ?_) _ ?_ | split

theorem low_raiseCoinFault {id : Nat} {refund : Bool}
    (h : Low r s) : Low r (raiseCoinFault id refund s) := by
  unfold raiseCoinFault
  dsimp only
  with_reducible repeat' first | assumption | apply low_raiseMaint

theorem low_ringOff {id : Nat}
    (h : Low r s) : Low r (ringOff id s) := by
  unfold ringOff
  dsimp only
  with_reducible repeat' first | assumption | refine low_modCall_sets ?_ rfl (fun _ _ g => ⟨onPlane_ring g.set, g.old, g.new⟩) | apply low_place | split

theorem low_coinOrder {id : Nat}
    (h : Low r s) : Low r (coinOrder id s) := by
  unfold coinOrder
  dsimp only
  with_reducible repeat' first | assumption | apply low_place | apply low_raiseCoinFault | split

theorem low_releaseStep1 {id : Nat}
    (h : Low r s) : Low r (releaseStep1 id s) := by
  unfold releaseStep1
  dsimp only
  with_reducible repeat'
    first
      | assumption | apply low_coinOrder | refine low_modCall_same ?_ ⟨rfl, rfl, rfl, rfl⟩ | apply low_releaseStep2
      | apply low_ringOff | split

theorem low_beginRelease {id : Nat}
    (h : Low r s) : Low r (beginRelease id s) := by
  unfold beginRelease
  dsimp only
  with_reducible repeat'
    first
      | assumption | apply low_releaseStep1 | apply low_setClaim | split | apply low_with_arb

theorem low_giveUpNew {id : Nat}
    (h : Low r s) : Low r (giveUpNew id s) := by
  unfold giveUpNew
  dsimp only
  with_reducible repeat'
    first
      | assumption | apply low_freeElem | apply low_leaveTerm | refine low_foldl (fun _ _ _ => ?_) _ ?_
      | split

theorem low_enterReleasing {id : Nat}
    (h : Low r s) : Low r (enterReleasing id s) := by
  unfold enterReleasing
  dsimp only
  with_reducible repeat'
    first
      | assumption | apply low_beginRelease | apply low_dropPulses | apply low_giveUpNew
      | refine low_modCall_sets ?_ rfl (fun _ _ g => onPlane_reswitched g) | apply low_rearmCall | apply low_spendCall | split

theorem low_withdrawExtend {id : Nat} {c : Ctl}
    (h : Low r s) : Low r (withdrawExtend id c s) := by
  unfold withdrawExtend
  with_reducible repeat' first | assumption | apply low_modCtl | apply low_reply | split

theorem low_takeRelease {id : Nat} {why : Reason}
    (h : Low r s) : Low r (takeRelease id why s) := by
  unfold takeRelease
  dsimp only
  with_reducible repeat'
    first
      | assumption | apply low_dropRehunt | apply low_enterReleasing | refine low_modCall_same ?_ ⟨rfl, rfl, rfl, rfl⟩
      | apply low_withdrawExtend | split

/-! ## Calls -/

theorem low_startGrace {id : Nat} (h : Low r s) : Low r (startGrace id s) := by
  unfold startGrace
  refine low_modCall_coin h ⟨rfl, rfl, rfl⟩ (fun g k hk => ?_)
  obtain ⟨x, hx, rfl⟩ := Option.map_eq_some_iff.mp hk
  exact ⟨(g x hx).1, (g x hx).2.1, fun _ e => by cases e⟩

theorem low_oweUnit {id : Nat} {k : Coin} (hk : (call id s).coin = some k) (h : Low r s) :
    Low r (oweUnit id k s) := by
  unfold oweUnit
  dsimp only
  by_cases ho : k.owed = 0
  · have hs : Low r (raiseCall id .depositDue []
        (startGrace id (modCall id (fun c => { c with coin := some { k with owed := k.owed + 1 } }) s))) := by
      unfold startGrace
      refine low_raiseCall (low_modCall_twice h (Option.some_ne_none _) ⟨rfl, rfl, rfl⟩ (fun g x hx => ?_))
      obtain rfl := Option.some.inj hx
      exact ⟨(g k hk).1, (g k hk).2.1, fun _ e => by cases e⟩
    simp only [if_pos ho]
    repeat' split
    · exact low_takeRelease hs
    · exact low_takeRelease hs
    · exact hs
  · have hs : Low r (modCall id (fun c => { c with coin := some { k with owed := k.owed + 1 } }) s) := by
      refine low_modCall_coin h ⟨rfl, rfl, rfl⟩ (fun g x hx => ?_)
      obtain rfl := Option.some.inj hx
      exact ⟨(g k hk).1, (g k hk).2.1, fun _ => (g k hk).2.2 (Nat.pos_of_ne_zero ho)⟩
    simp only [if_neg ho]
    repeat' split
    · exact low_takeRelease hs
    · exact low_takeRelease hs
    · exact hs

theorem low_payUnit {id : Nat} (h : Low r s) : Low r (payUnit id s) := by
  unfold payUnit
  split
  · exact h
  · rename_i k hk
    split
    · refine low_modCall_coin h ⟨rfl, rfl, rfl⟩ (fun g x hx => ?_)
      obtain rfl := Option.some.inj hx
      exact ⟨(Nat.sub_le _ _).trans (g k hk).1, (g k hk).2⟩
    · exact low_oweUnit hk h

theorem low_chargeUnit {id : Nat}
    (h : Low r s) : Low r (chargeUnit id s) := by
  unfold chargeUnit
  dsimp only
  with_reducible repeat'
    first
      | assumption | apply low_addUnits | refine low_modCall_same ?_ ⟨rfl, rfl, rfl, rfl⟩ | apply low_payUnit | split

theorem low_chargeUnits {id n : Nat} (h : Low r s) : Low r (chargeUnits id n s) := by
  induction n generalizing s with
  | zero => exact h
  | succ n ih =>
    unfold chargeUnits
    split
    · exact h
    · exact ih (low_chargeUnit h)

theorem low_startCharging {id : Nat}
    (h : Low r s) : Low r (startCharging id s) := by
  unfold startCharging
  dsimp only
  with_reducible repeat' first | assumption | apply low_chargeUnits | refine low_modCall_same ?_ ⟨rfl, rfl, rfl, rfl⟩ | split

theorem low_accrue {id : Nat}
    (h : Low r s) : Low r (accrue id s) := by
  unfold accrue
  dsimp only
  with_reducible repeat' first | assumption | apply low_chargeUnit | refine low_modCall_same ?_ ⟨rfl, rfl, rfl, rfl⟩ | split

theorem low_coinPulse {id : Nat} (h : Low r s) : Low r (coinPulse id s) := by
  unfold coinPulse
  dsimp only
  split
  · exact h
  · rename_i k hk
    repeat' split
    · refine low_modCall_coin h ⟨rfl, rfl, rfl⟩ (fun g x hx => ?_)
      obtain rfl := Option.some.inj hx
      exact ⟨(g k hk).1, Nat.min_le_right _ _, (g k hk).2.2⟩
    · refine low_modCall_coin h ⟨rfl, rfl, rfl⟩ (fun g x hx => ?_)
      obtain rfl := Option.some.inj hx
      exact ⟨Nat.min_le_right _ _, Nat.min_le_right _ _, (g k hk).2.2⟩
    · exact h
    · refine low_modCall_coin h ⟨rfl, rfl, rfl⟩ (fun g x hx => ?_)
      obtain rfl := Option.some.inj hx
      exact ⟨(g k hk).1, Nat.min_le_right _ _, fun e => absurd e (Nat.lt_irrefl 0)⟩
    · refine low_modCall_coin h ⟨rfl, rfl, rfl⟩ (fun g x hx => ?_)
      obtain rfl := Option.some.inj hx
      exact ⟨(g k hk).1, Nat.min_le_right _ _, fun e => (g k hk).2.2 (Nat.lt_of_lt_of_le e (Nat.sub_le _ _))⟩

theorem low_digitFault {id : Nat}
    (h : Low r s) : Low r (digitFault id s) := by
  unfold digitFault
  with_reducible repeat' first | assumption | apply low_raisePlain | apply low_startInterdigit | split

theorem low_takeDigit {id : Nat} {n : Nat}
    (h : Low r s) : Low r (takeDigit id n s) := by
  unfold takeDigit
  with_reducible repeat'
    first
      | assumption | apply low_digitFault | refine low_modCall_same ?_ ⟨rfl, rfl, rfl, rfl⟩ | apply low_raiseCall
      | apply low_raisePlain | apply low_startInterdigit | split

theorem low_answerOrders {id : Nat}
    (h : Low r s) : Low r (answerOrders id s) := by
  unfold answerOrders
  dsimp only
  with_reducible repeat'
    first
      | assumption | refine low_modCall_same ?_ ⟨rfl, rfl, rfl, rfl⟩
      | refine low_modCall_sets ?_ rfl (fun _ _ g => ⟨onPlane_reversed g.set, g.old, g.new⟩) | apply low_place | apply low_ringOff | split

theorem low_answer {id : Nat}
    (h : Low r s) : Low r (answer id s) := by
  unfold answer
  dsimp only
  with_reducible repeat'
    first
      | assumption | apply low_answerOrders | refine low_modCall_same ?_ ⟨rfl, rfl, rfl, rfl⟩ | apply low_raisePlain
      | apply low_rearmCall | apply low_setClaim | apply low_startCharging | split

theorem low_calledClear {id : Nat}
    (h : Low r s) : Low r (calledClear id s) := by
  unfold calledClear
  dsimp only
  with_reducible repeat'
    first
      | assumption | refine low_modCall_same ?_ ⟨rfl, rfl, rfl, rfl⟩ | apply low_raisePlain | apply low_rearmCall
      | apply low_startTimer | apply low_takeRelease | split

theorem low_reAnswer {id : Nat}
    (h : Low r s) : Low r (reAnswer id s) := by
  unfold reAnswer
  dsimp only
  with_reducible repeat'
    first
      | assumption | refine low_modCall_same ?_ ⟨rfl, rfl, rfl, rfl⟩ | apply low_raisePlain | apply low_rearmCall | split

theorem low_clearCaller {id : Nat}
    (h : Low r s) : Low r (clearCaller id s) := by
  unfold clearCaller
  with_reducible repeat' first | assumption | apply low_takeRelease

theorem low_endPark {lt : Nat}
    (h : Low r s) : Low r (endPark lt s) := by
  unfold endPark
  with_reducible repeat' first | assumption | apply low_modLine | split

theorem low_clearFarEnd {j : Nat}
    (h : Low r s) : Low r (clearFarEnd j s) := by
  unfold clearFarEnd
  with_reducible repeat' first | assumption | apply low_clearCaller | apply low_idleJunction | split

theorem low_endDigit {cord : Nat}
    (h : Low r s) : Low r (endDigit cord s) := by
  unfold endDigit
  dsimp only
  with_reducible repeat'
    first
      | assumption | apply low_modPoint | apply low_rearm | apply low_takeDigit | split

theorem low_takeEvent {p : Nat} {ev : ScanEvent}
    (h : Low r s) : Low r (takeEvent p ev s) := by
  unfold takeEvent
  with_reducible repeat'
    first
      | assumption | apply low_calledClear | apply low_clearCaller | apply low_clearFarEnd
      | apply low_endDigit | apply low_endPark | split

theorem low_produce {p : Nat}
    (h : Low r s) : Low r (produce p s) := by
  unfold produce
  with_reducible repeat' first | assumption | apply low_modPoint | apply low_takeEvent | split

theorem low_produceEvent {p : Nat} {ev : ScanEvent}
    (h : Low r s) : Low r (produceEvent p ev s) := by
  unfold produceEvent
  with_reducible repeat' first | assumption | apply low_produce | split

theorem low_produceCall {id : Nat}
    (h : Low r s) : Low r (produceCall id s) := by
  unfold produceCall
  with_reducible repeat' first | assumption | apply low_produce | refine low_foldl (fun _ _ _ => ?_) _ ?_

theorem low_watch {p : Nat} (h : Low r s) : Low r (watch p s) := low_produce (low_rearm h)

theorem low_watchCall {id : Nat} (h : Low r s) : Low r (watchCall id s) := low_produceCall (low_rearmCall h)

/-! ## Path -/

theorem low_beginOp {id : Nat} {o : Operation}
    (h : Low r s) : Low r (beginOp id o s) := by
  unfold beginOp
  with_reducible repeat' first | assumption | refine low_modCall_same ?_ ⟨rfl, rfl, rfl, rfl⟩

theorem low_enterDialling {id : Nat}
    (h : Low r s) : Low r (enterDialling id s) := by
  unfold enterDialling
  dsimp only
  with_reducible repeat'
    first
      | assumption | apply low_beginOp | apply low_handOver | refine low_modCall_same ?_ ⟨rfl, rfl, rfl, rfl⟩ | apply low_modJunction
      | apply low_modLine | apply low_watchCall | apply low_raiseCall | apply low_rearmCall
      | apply low_setClaim | apply low_startTimer | split

theorem low_placeAgain {o : Party}
    (h : Low r s) : Low r (placeAgain o s) := by
  unfold placeAgain
  dsimp only
  with_reducible repeat'
    first
      | assumption | apply low_modJunction | apply low_modLine | apply low_settleClass | split
      | apply low_with_orig

theorem low_congested {id : Nat}
    (h : Low r s) : Low r (congested id s) := by
  unfold congested
  dsimp only
  with_reducible repeat'
    first
      | assumption | apply low_freeRecord | apply low_emptyCall | apply low_placeAgain | apply low_watch
      | apply low_retry | split

/-- The lowest available cord of a plane lies on it. -/
theorem lowestCord_plane {k c : Nat} (h : lowestCord k s = some c) (hk : k < 12) : c < 96 ∧ c / 8 = k := by
  have hm := List.mem_of_find?_eq_some h
  simp only [planeCords, List.mem_map, List.mem_range] at hm
  obtain ⟨i, hi, rfl⟩ := hm
  omega

theorem planesFrom_lt {m k : Nat} (h : k ∈ planesFrom m) : k < 12 := by
  simp only [planesFrom, List.mem_map, Config.planes] at h
  obtain ⟨i, -, rfl⟩ := h
  exact Nat.mod_lt _ (by decide)

/-- An origin path lies on one plane of the part. -/
theorem findOriginPath_plane {f k c : Nat} (h : findOriginPath f s = some (k, c)) : k < 12 ∧ c < 96 ∧ c / 8 = k := by
  obtain ⟨m, hm, hp⟩ := List.exists_of_findSome?_eq_some h
  have hk := planesFrom_lt hm
  split at hp
  · obtain ⟨x, hx, e⟩ := Option.map_eq_some_iff.mp hp
    obtain ⟨rfl, rfl⟩ := Prod.mk.inj e
    exact ⟨hk, lowestCord_plane hx hk⟩
  · cases hp

theorem flNumber_plane {f k : Nat} (h : k < 12) : flNumber f k % 12 = k := by
  unfold flNumber
  omega

theorem low_originSearch {id : Nat} {again : Bool} (h : Low r s) : Low r (originSearch id again s) := by
  unfold originSearch
  dsimp only
  split
  · exact low_congested h
  · split
    · exact low_congested h
    · rename_i lt _ _ k cord hp
      obtain ⟨hk, hc, hd⟩ := findOriginPath_plane hp
      refine low_placeOperate (low_placeOperate (low_modCall_sets
        (low_beginOp (low_modFrame (low_reserve (low_reserve h)))) rfl (fun _ _ g => ⟨?_, g.old, g.new⟩)))
      rw [onPlane_iff]
      intro c e
      obtain rfl := Option.some.inj e
      refine ⟨hc, fun n e => ?_, fun j e => (by cases e), fun n e => (by cases e), fun j e => (by cases e)⟩
      obtain rfl := Option.some.inj e
      rw [hd]
      exact flNumber_plane hk
  · split
    · exact low_congested h
    · rename_i j _ cord hp
      obtain ⟨hc, hd⟩ := lowestCord_plane hp (Nat.mod_lt _ (by decide))
      refine low_placeOperate (low_modCall_sets
        (low_beginOp (low_reserve (low_reserve h))) rfl (fun _ _ g => ⟨?_, g.old, g.new⟩))
      rw [onPlane_iff]
      intro c e
      obtain rfl := Option.some.inj e
      refine ⟨hc, fun n e => (by cases e), fun j e => ?_, fun n e => (by cases e), fun j e => (by cases e)⟩
      obtain rfl := Option.some.inj e
      exact hd.symm

theorem low_originRetry {id : Nat} {again : Bool}
    (h : Low r s) : Low r (originRetry id again s) := by
  unfold originRetry
  with_reducible repeat' first | assumption | apply low_congested | apply low_originSearch | split

theorem low_originEnd {id : Nat} {again : Bool}
    (h : Low r s) : Low r (originEnd id again s) := by
  unfold originEnd
  dsimp only
  with_reducible repeat'
    first
      | assumption | apply low_beginOp | apply low_enterDialling | apply low_freeElem
      | apply low_freeRecord | apply low_originRetry | apply low_placeRelease | apply low_releaseElem
      | refine low_foldl (fun _ _ _ => ?_) _ ?_ | split

theorem low_extensionDone {id : Nat}
    (h : Low r s) : Low r (extensionDone id s) := by
  unfold extensionDone
  dsimp only
  with_reducible repeat'
    first
      | assumption | apply low_answer | apply low_beginOp | apply low_dropRehunt | refine low_modCall_same ?_ ⟨rfl, rfl, rfl, rfl⟩
      | apply low_watchCall | apply low_raiseCall | apply low_rearmCall | apply low_startTimer | split

theorem low_setFailed {id : Nat}
    (h : Low r s) : Low r (setFailed id s) := by
  unfold setFailed
  dsimp only
  with_reducible repeat'
    first
      | assumption | apply low_beginOp | apply low_dropRehunt | apply low_leaveTerm | refine low_modCall_same ?_ ⟨rfl, rfl, rfl, rfl⟩
      | apply low_watchCall | apply low_raiseCall | apply low_rearmCall | apply low_startInterdigit

theorem low_reverseExtension {id : Nat}
    (h : Low r s) : Low r (reverseExtension id s) := by
  unfold reverseExtension
  dsimp only
  with_reducible repeat'
    first
      | assumption | apply low_beginOp | apply low_placeRelease | apply low_releaseElem
      | apply low_ringOff | apply low_setFailed | refine low_foldl (fun _ _ _ => ?_) _ ?_ | split

theorem low_extensionEnd {id : Nat}
    (h : Low r s) : Low r (extensionEnd id s) := by
  unfold extensionEnd
  with_reducible repeat'
    first
      | assumption | apply low_extensionDone | apply low_reverseExtension | split

theorem low_yieldEnd {id : Nat}
    (h : Low r s) : Low r (yieldEnd id s) := by
  unfold yieldEnd
  with_reducible repeat'
    first
      | assumption | apply low_beginOp | refine low_modCall_same ?_ ⟨rfl, rfl, rfl, rfl⟩ | apply low_retry | apply low_setFailed
      | split

theorem low_opClaim {id : Nat} {n : Nat}
    (h : Low r s) : Low r (opClaim id n s) := by
  unfold opClaim
  with_reducible repeat' first | assumption | refine low_modCall_same ?_ ⟨rfl, rfl, rfl, rfl⟩

theorem set_beginOp {id : Nat} {o : Operation} (h : TablesOk s) :
    (call id (beginOp id o s)).set = (call id s).set := by
  have e : call id (beginOp id o s) = { call id s with op := o, opFailed := false, yielded := false } :=
    Table.get_put_same h.calls
  rw [e]

theorem call_reserve (e : ElemId) (id : Nat) (s : Part) : call id (reserve e s) = call id s := by
  cases e <;> rfl

/-- A junction is taken that lies on the plane of the call's cord (R68). -/
theorem low_takeJunction {id x j cord : Nat} (h : Low r s)
    (hp : TablesOk r → CallsOk r → ∀ c, (call id s).set.cord = some c → j % 12 = c / 8) :
    Low r (takeJunction id x j cord s) := by
  unfold takeJunction
  dsimp only
  have h1 : Low r (modRoute x (fun y => { y with hunt := (j + 1) % Config.junctions }) (reserve (.junction j) s)) :=
    low_modRoute (low_reserve h)
  refine low_placeOperate (low_modCall_sets (low_beginOp h1) rfl (fun t c g => ⟨?_, g.old, g.new⟩))
  have e : (call id (beginOp id .extension
      (modRoute x (fun y => { y with hunt := (j + 1) % Config.junctions }) (reserve (.junction j) s)))).set =
      (call id s).set := (set_beginOp (h1.tablesOk t)).trans (congrArg Call.set (call_reserve _ id s))
  have hs := onPlane_iff.mp g.set
  rw [e] at hs ⊢
  refine onPlane_iff.mpr (fun k hk => ?_)
  obtain ⟨g1, g2, g3, g4, -⟩ := hs k hk
  refine ⟨g1, g2, g3, g4, fun i hi => ?_⟩
  obtain rfl := Option.some.inj hi
  exact hp t c k hk

theorem low_callLine {id : Nat} {lt : Nat} {cord : Nat}
    (h : Low r s) : Low r (callLine id lt cord s) := by
  unfold callLine
  with_reducible repeat' first | assumption | apply low_handOver | apply low_modLine

/-- A called line is reached through a frame link on the plane of the call's cord (R67). -/
theorem low_takeLine {id lt n cord : Nat} (h : Low r s)
    (hp : TablesOk r → CallsOk r → ∀ c, (call id s).set.cord = some c → n % 12 = c / 8) :
    Low r (takeLine id lt n cord s) := by
  unfold takeLine
  dsimp only
  refine low_place (low_placeOperate (low_placeOperate (low_callLine
    (low_modCall_sets (low_beginOp (low_reserve h)) rfl (fun t c g => ⟨?_, g.old, g.new⟩)))))
  have e : (call id (beginOp id .extension (reserve (.fl n) s))).set = (call id s).set :=
    (set_beginOp ((low_reserve (e := .fl n) h).tablesOk t)).trans (congrArg Call.set (call_reserve _ id s))
  have hs := onPlane_iff.mp g.set
  rw [e] at hs ⊢
  refine onPlane_iff.mpr (fun k hk => ?_)
  obtain ⟨g1, g2, g3, -, g5⟩ := hs k hk
  refine ⟨g1, g2, g3, fun i hi => ?_, g5⟩
  obtain rfl := Option.some.inj hi
  exact hp t c k hk

/-- A reswitch moves a call to one plane of the part (R72). -/
theorem low_reswitch {id lt1 p cord : Nat} {term : Party} (h : Low r s) (hk : p < 12)
    (hc : cord < 96 ∧ cord / 8 = p) (hj : ∀ j, term = .junction j → j % 12 = p) :
    Low r (reswitch id lt1 p cord term s) := by
  obtain ⟨hc, hd⟩ := hc
  unfold reswitch
  dsimp only
  have h1 : Low r (reserve (.cord cord) (reserve (.fl (flNumber (lineFrame lt1) p)) s)) := low_reserve (low_reserve h)
  have hset : ∀ tfl tj, (∀ n, tfl = some n → n % 12 = p) → (∀ j, tj = some j → j % 12 = p) →
      ElemSet.OnPlane { fl := some (flNumber (lineFrame lt1) p), cord := some cord, tfl := tfl, tjunction := tj } := by
    intro tfl tj g1 g2
    rw [onPlane_iff]
    intro c e
    obtain rfl := Option.some.inj e
    refine ⟨hc, fun n e => ?_, fun j e => (by cases e), fun n e => hd ▸ g1 n e, fun j e => hd ▸ g2 j e⟩
    obtain rfl := Option.some.inj e
    rw [hd]
    exact flNumber_plane hk
  apply low_rearm
  apply low_handOver
  refine low_foldl (fun _ _ g => low_setOcc g) _ (low_foldl (fun _ _ g => low_placeRelease g) _ ?_)
  cases term with
  | line lt2 =>
    dsimp only
    refine low_callLine (low_modCall_sets (low_beginOp (low_reserve h1)) rfl
      (fun _ _ g => ⟨emptySet_onPlane, g.set, hset _ _ ?_ (fun _ e => by cases e)⟩))
    intro n e
    obtain rfl := Option.some.inj e
    exact flNumber_plane hk
  | junction j =>
    dsimp only
    refine low_modCall_sets (low_beginOp (low_reserve h1)) rfl
      (fun _ _ g => ⟨emptySet_onPlane, g.set, hset _ _ (fun _ e => by cases e) ?_⟩)
    intro n e
    obtain rfl := Option.some.inj e
    exact hj _ rfl

theorem low_reswitchStep2 {id : Nat}
    (h : Low r s) : Low r (reswitchStep2 id s) := by
  unfold reswitchStep2
  dsimp only
  with_reducible repeat'
    first
      | assumption | apply low_beginOp | refine low_modCall_same ?_ ⟨rfl, rfl, rfl, rfl⟩
      | refine low_modCall_sets ?_ rfl (fun _ _ g => ⟨g.set, g.old, onPlane_ring g.new⟩) | apply low_place | apply low_placeOperate
      | apply low_takeRelease | split

theorem low_reswitchEnd {id : Nat}
    (h : Low r s) : Low r (reswitchEnd id s) := by
  unfold reswitchEnd
  dsimp only
  with_reducible repeat'
    first
      | assumption | apply low_extensionDone | apply low_handOver | refine low_modCall_sets ?_ rfl (fun _ _ g => ⟨g.new, emptySet_onPlane, emptySet_onPlane⟩) | apply low_rearm
      | apply low_takeRelease | split

theorem low_settleClaim {id : Nat}
    (h : Low r s) : Low r (settleClaim id s) := by
  unfold settleClaim
  with_reducible repeat' first | assumption | apply low_setClaim | split

theorem low_operationStep {id : Nat}
    (h : Low r s) : Low r (operationStep id s) := by
  unfold operationStep
  dsimp only
  with_reducible repeat'
    first
      | assumption | apply low_beginOp | apply low_closeCall | apply low_enterReleasing
      | apply low_extensionEnd | apply low_originEnd | apply low_originRetry | apply low_releaseStep2
      | apply low_reswitchEnd | apply low_reswitchStep2 | apply low_settleClaim | apply low_setFailed
      | apply low_yieldEnd | split

theorem low_holdElem {id : Nat} {e : ElemId}
    (h : Low r s) : Low r (holdElem id e s) := by
  unfold holdElem
  with_reducible repeat' first | assumption | apply low_setOcc | split

theorem low_enterOutgoing {id : Nat} {j : Nat}
    (h : Low r s) : Low r (enterOutgoing id j s) := by
  unfold enterOutgoing
  dsimp only
  with_reducible repeat' first | assumption | apply low_modJunction | apply low_modPoint

theorem low_operateDone {id : Nat} {x : Xp}
    (h : Low r s) : Low r (operateDone id x s) := by
  unfold operateDone
  dsimp only
  with_reducible repeat'
    first
      | assumption | apply low_dropXp | apply low_enterOutgoing | apply low_holdElem | refine low_modCall_same ?_ ⟨rfl, rfl, rfl, rfl⟩
      | apply low_placeRelease | apply low_setOcc | refine low_foldl (fun _ _ _ => ?_) _ ?_ | split

theorem low_crosspointFailed {id : Nat} {x : Xp}
    (h : Low r s) : Low r (crosspointFailed id x s) := by
  unfold crosspointFailed
  with_reducible repeat' first | assumption | apply low_dropXp | apply low_markFaulty | refine low_modCall_same ?_ ⟨rfl, rfl, rfl, rfl⟩

theorem low_failReswitch {id : Nat}
    (h : Low r s) : Low r (failReswitch id s) := by
  unfold failReswitch
  with_reducible repeat' first | assumption | apply low_takeRelease | split

theorem low_freeReleased {id : Nat} {e : ElemId}
    (h : Low r s) : Low r (freeReleased id e s) := by
  unfold freeReleased
  with_reducible repeat' first | assumption | apply low_freeElem | split

theorem low_releaseOutcome {id : Nat} {x : Xp} {x' : DriveOutcome}
    (h : Low r s) : Low r (releaseOutcome id x x' s) := by
  unfold releaseOutcome
  with_reducible repeat'
    first
      | assumption | apply low_crosspointFailed | apply low_dropXp | apply low_failReswitch
      | apply low_freeReleased | refine low_foldl (fun _ _ _ => ?_) _ ?_ | split

theorem low_ringFault {id : Nat} {code : Nat} {x' : DriveOutcome}
    (h : Low r s) : Low r (ringFault id code x' s) := by
  unfold ringFault
  with_reducible repeat' first | assumption | apply low_raiseCall | split

theorem low_collectOutcome {id : Nat} {x' : DriveOutcome}
    (h : Low r s) : Low r (collectOutcome id x' s) := by
  unfold collectOutcome
  dsimp only
  with_reducible repeat' first | assumption | apply low_addUnits | apply low_raiseCoinFault | split

theorem low_applyOutcome {o : Order} {x' : DriveOutcome}
    (h : Low r s) : Low r (applyOutcome o x' s) := by
  unfold applyOutcome
  with_reducible repeat'
    first
      | assumption | apply low_collectOutcome | apply low_crosspointFailed | apply low_failReswitch
      | apply low_operateDone | apply low_raiseCoinFault | apply low_releaseOutcome
      | apply low_ringFault | split

theorem low_removeOrder {n : Nat}
    (h : Low r s) : Low r (removeOrder n s) := by
  unfold removeOrder
  with_reducible repeat' first | assumption | apply low_with_orders

theorem low_orderOutcome {o : Order} {x' : DriveOutcome}
    (h : Low r s) : Low r (orderOutcome o x' s) := by
  unfold orderOutcome
  with_reducible repeat'
    first
      | assumption | apply low_applyOutcome | apply low_operationStep | apply low_removeOrder

theorem low_unitOutcome {u : DriveUnit} {n : Nat} {x' : DriveOutcome}
    (h : Low r s) : Low r (unitOutcome u n x' s) := by
  unfold unitOutcome
  with_reducible repeat' first | assumption | apply low_orderOutcome | split

/-! ## Grant -/

theorem low_recordGrant {c : Client}
    (h : Low r s) : Low r (recordGrant c s) := by
  unfold recordGrant
  with_reducible repeat' first | assumption | apply low_with_arb

theorem low_unmark {o : Party}
    (h : Low r s) : Low r (unmark o s) := by
  unfold unmark
  with_reducible repeat' first | assumption | apply low_modJunction | apply low_modLine | split

theorem low_advancePointer {o : Party}
    (h : Low r s) : Low r (advancePointer o s) := by
  unfold advancePointer
  with_reducible repeat' first | assumption | split | apply low_with_orig

theorem newCall_lawful (o : Party) : (newCall o s).Lawful := by
  refine ⟨fun k h => ?_, ?_, ?_, ?_⟩
  rotate_left
  · cases o <;> exact emptySet_onPlane
  · cases o <;> exact emptySet_onPlane
  · cases o <;> exact emptySet_onPlane
  have hk : k = {} := by
    unfold newCall at h
    dsimp only at h
    split at h
    · dsimp only at h
      split at h
      · exact (Option.some.inj h).symm
      · cases h
    · cases h
  subst hk
  exact ⟨Nat.zero_le _, Nat.zero_le _, fun e => absurd e (Nat.lt_irrefl 0)⟩

theorem low_serve {o : Party}
    (h : Low r s) : Low r (serve o s) := by
  unfold serve
  dsimp only
  with_reducible repeat'
    first
      | assumption | apply low_advancePointer | refine low_modCall ?_ (fun _ _ _ => newCall_lawful _) | apply low_originSearch
      | apply low_rearm | apply low_produce | apply low_unmark | split | apply low_with_orig

theorem low_enqueue {o : Party}
    (h : Low r s) : Low r (enqueue o s) := by
  unfold enqueue
  dsimp only
  with_reducible repeat'
    first
      | assumption | apply low_advancePointer | apply low_unmark | apply low_with_orig

/-- A hunted junction passes the test of its plane. -/
theorem hunt_plane {n start j : Nat} {q : Nat → Bool} (h : hunt n start q s = some j) : q (junctionPlane j) = true := by
  have := List.find?_some h
  simp only [Bool.and_eq_true] at this
  exact this.2

theorem low_rehunt {e : Rehunt} (h : Low r s) : Low r (rehunt e s) := by
  unfold rehunt
  dsimp only
  have h1 := low_opClaim (id := e.call) (n := 1) (low_with_orig h { s.orig with
    rehunts := s.orig.rehunts.map (fun x => if x.call = e.call then { x with made := true } else x) })
  generalize opClaim e.call 1 _ = u at h1 ⊢
  split
  · rename_i j hj
    refine low_takeJunction h1 (fun _ _ c hc => ?_)
    have := of_decide_eq_true (hunt_plane hj)
    rw [hc] at this
    exact this
  · exact low_setFailed h1

theorem low_perform {w : Work}
    (h : Low r s) : Low r (perform w s) := by
  unfold perform
  with_reducible repeat'
    first
      | assumption | apply low_enqueue | apply low_rehunt | apply low_serve | split

theorem low_grantServer {worst : Nat}
    (h : Low r s) : Low r (grantServer worst s) := by
  unfold grantServer
  dsimp only
  with_reducible repeat'
    first
      | assumption | apply low_perform | apply low_retry | split | apply low_with_orig

/-- The plane a reswitch to a line moves to is one of the part's, and its cord lies on it. -/
theorem linePlane_plane {f1 f2 k p c : Nat} (h : linePlane f1 f2 k s = some (p, c)) :
    p < 12 ∧ c < 96 ∧ c / 8 = p := by
  obtain ⟨m, hm, hp⟩ := List.exists_of_findSome?_eq_some h
  have hk := planesFrom_lt (List.mem_of_mem_take hm)
  split at hp
  · obtain ⟨x, hx, e⟩ := Option.map_eq_some_iff.mp hp
    obtain ⟨rfl, rfl⟩ := Prod.mk.inj e
    exact ⟨hk, lowestCord_plane hx hk⟩
  · cases hp

theorem low_extendLine {id lt : Nat} {allow : Bool} (h : Low r s) : Low r (extendLine id lt allow s).2.2 := by
  unfold extendLine
  dsimp only
  split
  · exact h
  split
  · exact h
  split
  · exact h
  split
  · dsimp only
    refine low_takeLine h (fun t c k hk => ?_)
    have hl := ((call_lawful (h.callsOk t c) id).set k hk).1
    rw [hk]
    refine flNumber_plane ?_
    simp only [Option.getD_some, cordPlane]
    omega
  · split
    · split
      · rename_i p x hp
        obtain ⟨h1, h2⟩ := linePlane_plane hp
        dsimp only
        exact low_reswitch h h1 h2 (fun _ e => by cases e)
      · exact h
    · exact h

theorem low_extendRoute {id n : Nat} {allow : Bool} (h : Low r s) : Low r (extendRoute id n allow s).2.2 := by
  unfold extendRoute
  dsimp only
  split
  · rename_i j hj
    dsimp only
    refine low_takeJunction h (fun _ _ k hk => ?_)
    have := of_decide_eq_true (hunt_plane hj)
    rw [hk] at this
    exact this
  · split
    · split
      · split
        · rename_i j _ _ _ x hx _
          have hk : junctionPlane j < 12 := Nat.mod_lt _ (by decide)
          dsimp only
          refine low_reswitch (low_modRoute h) hk (lowestCord_plane hx hk) (fun i e => ?_)
          obtain rfl := Party.junction.inj e
          rfl
        · exact h
      · exact h
    · exact h

theorem low_grantExtend {c : Ctl} {worst : Nat} (h : Low r s) : Low r (grantExtend c worst s) := by
  unfold grantExtend
  dsimp only
  with_reducible
    split
    · exact h
    apply low_watchCall
    apply low_reply
    split
    all_goals
      repeat'
        first
          | assumption | apply low_opClaim | apply low_extendLine | apply low_extendRoute
          | apply low_startInterdigit | apply low_setClaim | apply low_dropPulses | refine low_modCall_same ?_ ⟨rfl, rfl, rfl, rfl⟩
          | apply low_modCtl | split

theorem low_grantRelease 
    (h : Low r s) : Low r (grantRelease s) := by
  unfold grantRelease
  dsimp only
  with_reducible repeat'
    first
      | assumption | refine low_modCall_same ?_ ⟨rfl, rfl, rfl, rfl⟩ | apply low_releaseStep1 | split | apply low_with_arb

theorem low_grant 
    (h : Low r s) : Low r (grant s) := by
  unfold grant
  dsimp only
  with_reducible repeat'
    first
      | assumption | apply low_grantExtend | apply low_grantRelease | apply low_grantServer
      | apply low_recordGrant | split

/-! ## Scan -/

theorem low_reverseJunctor {id : Nat} {j : Nat}
    (h : Low r s) : Low r (reverseJunctor id j s) := by
  unfold reverseJunctor
  dsimp only
  with_reducible repeat'
    first
      | assumption | apply low_dropXp | apply low_freeElem | refine low_modCall_same ?_ ⟨rfl, rfl, rfl, rfl⟩ | apply low_removeOrder
      | split

theorem low_yieldReswitch {id : Nat} {j : Nat}
    (h : Low r s) : Low r (yieldReswitch id j s) := by
  unfold yieldReswitch
  dsimp only
  with_reducible repeat'
    first
      | assumption | apply low_operationStep | apply low_reverseJunctor | apply low_takeRelease | split

theorem low_yieldExtension {id : Nat} {j : Nat}
    (h : Low r s) : Low r (yieldExtension id j s) := by
  unfold yieldExtension
  dsimp only
  with_reducible repeat'
    first
      | assumption | refine low_modCall_same ?_ ⟨rfl, rfl, rfl, rfl⟩ | apply low_operationStep | apply low_retry
      | apply low_reverseJunctor | split | apply low_with_orig

theorem low_glare {j : Nat}
    (h : Low r s) : Low r (glare j s) := by
  unfold glare
  with_reducible repeat' first | assumption | apply low_yieldExtension | apply low_yieldReswitch | split

theorem low_lineChange {lt : Nat} {v : PointState}
    (h : Low r s) : Low r (lineChange lt v s) := by
  unfold lineChange
  with_reducible repeat'
    first
      | assumption | apply low_dequeue | apply low_modLine | apply low_retry | split

theorem low_breakEnded {id : Nat} {c : Nat} {b : Nat}
    (h : Low r s) : Low r (breakEnded id c b s) := by
  unfold breakEnded
  dsimp only
  with_reducible repeat' first | assumption | apply low_digitFault | apply low_modPoint | split

theorem low_oChange {c : Nat} {v : PointState} {b : Nat}
    (h : Low r s) : Low r (oChange c v b s) := by
  unfold oChange
  dsimp only
  with_reducible repeat' first | assumption | apply low_breakEnded | split

theorem low_tChange {c : Nat} {v : PointState}
    (h : Low r s) : Low r (tChange c v s) := by
  unfold tChange
  dsimp only
  with_reducible repeat' first | assumption | apply low_answer | apply low_reAnswer | split

theorem low_coinChange {c : Nat} {v : PointState}
    (h : Low r s) : Low r (coinChange c v s) := by
  unfold coinChange
  with_reducible repeat' first | assumption | apply low_coinPulse | split

theorem low_junctionChange {j : Nat} {v : PointState}
    (h : Low r s) : Low r (junctionChange j v s) := by
  unfold junctionChange
  dsimp only
  with_reducible repeat'
    first
      | assumption | apply low_answer | apply low_calledClear | apply low_glare | apply low_reAnswer
      | apply low_seizeJunction | split

theorem low_classify {p : Nat} {v : PointState} {b : Nat}
    (h : Low r s) : Low r (classify p v b s) := by
  unfold classify
  with_reducible repeat'
    first
      | assumption | apply low_coinChange | apply low_junctionChange | apply low_lineChange
      | apply low_oChange | apply low_tChange | split

theorem low_acceptChange {p : Nat} {v : PointState} {run : Nat}
    (h : Low r s) : Low r (acceptChange p v run s) := by
  unfold acceptChange
  dsimp only
  with_reducible repeat' first | assumption | apply low_classify | apply low_modPoint | apply low_rearm

theorem low_produceUnless {later : List Nat} {p : Nat}
    (h : Low r s) : Low r (produceUnless later p s) := by
  unfold produceUnless
  with_reducible repeat' first | assumption | apply low_produce | split

theorem low_samplePoint {later : List Nat} {p : Nat} {bit : Bool}
    (h : Low r s) : Low r (samplePoint later p bit s) := by
  unfold samplePoint
  dsimp only
  with_reducible repeat'
    first
      | assumption | apply low_acceptChange | apply low_modPoint | apply low_produceUnless | split

theorem low_scanPoint {inputs : ScanInputs} {later : List Nat} {p : Nat}
    (h : Low r s) : Low r (scanPoint inputs later s p) := by
  unfold scanPoint
  dsimp only
  with_reducible repeat' first | assumption | apply low_samplePoint | split | apply low_with_scan

theorem low_freezePoint {p : Nat}
    (h : Low r s) : Low r (freezePoint s p) := by
  unfold freezePoint
  with_reducible repeat' first | assumption | apply low_modPoint | split

theorem low_scanInstant {inputs : ScanInputs} {later : List Nat}
    (h : Low r s) : Low r (scanInstant inputs later s) := by
  unfold scanInstant
  dsimp only
  with_reducible repeat'
    first
      | assumption | apply low_freezePoint | apply low_produce | apply low_scanPoint
      | refine low_foldl (fun _ _ _ => ?_) _ ?_ | split | apply low_with_scan

/-! ## Presence -/

theorem low_passTo {c : Ctl} {id : Nat}
    (h : Low r s) : Low r (passTo c id s) := by
  unfold passTo
  dsimp only
  with_reducible repeat'
    first
      | assumption | apply low_drainCtl | refine low_modCall_same ?_ ⟨rfl, rfl, rfl, rfl⟩ | apply low_raiseCall | split

theorem low_disown {id : Nat}
    (h : Low r s) : Low r (disown id s) := by
  unfold disown
  with_reducible repeat' first | assumption | apply low_drainMaint | refine low_modCall_same ?_ ⟨rfl, rfl, rfl, rfl⟩

theorem low_setPresent {c : Ctl} {b : Bool}
    (h : Low r s) : Low r (setPresent c b s) := by
  unfold setPresent
  with_reducible repeat' first | assumption | apply low_modCtl

theorem low_becomePresent {c : Ctl}
    (h : Low r s) : Low r (becomePresent c s) := by
  unfold becomePresent
  dsimp only
  with_reducible repeat'
    first
      | assumption | apply low_passTo | apply low_raiseMaint | apply low_raisePeer | apply low_retry
      | apply low_setPresent | refine low_foldl (fun _ _ _ => ?_) _ ?_

theorem low_moveCleared {n : Notice}
    (h : Low r s) : Low r (moveCleared n s) := by
  unfold moveCleared
  with_reducible repeat' first | assumption | apply low_enter | apply low_modMaint | split

theorem low_pendAgain {id : Nat} {k : CallKind} {data : List Byte}
    (h : Low r s) : Low r (pendAgain id k data s) := by
  unfold pendAgain
  with_reducible repeat' first | assumption | refine low_modCall_same ?_ ⟨rfl, rfl, rfl, rfl⟩ | split

theorem low_emptyNotices {l : List Notice} (h : Low r s) : Low r (emptyNotices l s) := by
  induction l generalizing s with
  | nil => exact h
  | cons n l ih =>
    cases n with
    | peer b => exact ih h
    | maint k n d => exact ih h
    | call k id d =>
      have g : Low r (if l.any (isClearedOf id) then s else pendAgain id k d s) := by
        split
        exacts [h, low_pendAgain h]
      cases k <;> first | exact ih g | exact ih (low_moveCleared h)

theorem low_emptyQueue {c : Ctl}
    (h : Low r s) : Low r (emptyQueue c s) := by
  unfold emptyQueue
  dsimp only
  with_reducible repeat' first | assumption | apply low_emptyNotices | apply low_modCtl

theorem low_changeOwner {c : Ctl} {id : Nat}
    (h : Low r s) : Low r (changeOwner c s id) := by
  unfold changeOwner
  with_reducible repeat' first | assumption | apply low_disown | apply low_passTo | split

theorem low_becomeAbsent {c : Ctl}
    (h : Low r s) : Low r (becomeAbsent c s) := by
  unfold becomeAbsent
  dsimp only
  with_reducible repeat'
    first
      | assumption | apply low_changeOwner | apply low_emptyQueue | apply low_modCtl
      | apply low_raiseMaint | apply low_raisePeer | apply low_retry | apply low_setPresent
      | refine low_foldl (fun _ _ _ => ?_) _ ?_

theorem low_expireWindow {c : Ctl}
    (h : Low r s) : Low r (expireWindow c s) := by
  unfold expireWindow
  with_reducible repeat' first | assumption | apply low_becomeAbsent | split

theorem low_signOfLife {c : Ctl}
    (h : Low r s) : Low r (signOfLife c s) := by
  unfold signOfLife
  dsimp only
  with_reducible repeat'
    first
      | assumption | apply low_becomePresent | apply low_modCtl | apply low_expireWindow | split

/-! ## Ports -/

theorem low_receiveCtl {c : Ctl} {tag : Byte} {take : Part → Part}
    (htake : ∀ t, Low r t → Low r (take t)) (h : Low r s) : Low r (receiveCtl c tag take s) := by
  unfold receiveCtl
  dsimp only
  with_reducible repeat'
    first
      | assumption | apply low_immediate | apply low_signOfLife | apply htake | split

theorem low_receiveMaint {tag : Byte} {take : Part → Part}
    (htake : ∀ t, Low r t → Low r (take t)) (h : Low r s) : Low r (receiveMaint tag take s) := by
  unfold receiveMaint
  with_reducible repeat' first | assumption | apply low_immediate | apply htake | split

theorem low_malformed {p : Port} {frame : List Byte}
    (h : Low r s) : Low r (malformed p frame s) := by
  unfold malformed
  with_reducible repeat' first | assumption | apply low_immediate | split

theorem low_releaseRequest {c : Ctl} {tag : Byte} {call_ : Byte}
    (h : Low r s) : Low r (releaseRequest c tag call_ s) := by
  unfold releaseRequest
  with_reducible repeat' first | assumption | apply low_reply | apply low_takeRelease | split

theorem low_readCallRequest {c : Ctl} {tag : Byte} {call_ : Byte}
    (h : Low r s) : Low r (readCallRequest c tag call_ s) := by
  unfold readCallRequest
  with_reducible repeat' first | assumption | apply low_reply | split

theorem low_readLineRequest {c : Ctl} {tag : Byte} {lt : Word16}
    (h : Low r s) : Low r (readLineRequest c tag lt s) := by
  unfold readLineRequest
  with_reducible repeat' first | assumption | apply low_reply | split

theorem low_presenceRequest {c : Ctl} {tag : Byte}
    (h : Low r s) : Low r (presenceRequest c tag s) := by
  unfold presenceRequest
  with_reducible repeat' first | assumption | apply low_reply

theorem low_extendRequest {c : Ctl} {tag : Byte} {call_ : Byte} {kind : Byte} {dest : Word16} {band : Byte} {permission : Byte}
    (h : Low r s) : Low r (extendRequest c tag call_ kind dest band permission s) := by
  unfold extendRequest
  with_reducible repeat' first | assumption | apply low_modCtl | apply low_reply | split

/-! ## TimeBase -/

theorem low_takeIncrements 
    (h : Low r s) : Low r (takeIncrements s) := by
  unfold takeIncrements
  with_reducible repeat' first | assumption | refine low_modCall_same ?_ ⟨rfl, rfl, rfl, rfl⟩ | refine low_foldl (fun _ _ _ => ?_) _ ?_

theorem low_expireTimer {kinds : List TimerKind} {id : Nat}
    (h : Low r s) : Low r (expireTimer kinds id s) := by
  unfold expireTimer
  with_reducible repeat' first | assumption | apply low_takeRelease | split

theorem low_expireGrace {id : Nat}
    (h : Low r s) : Low r (expireGrace id s) := by
  unfold expireGrace
  with_reducible repeat' first | assumption | apply low_takeRelease | split

theorem low_expireCall {id : Nat}
    (h : Low r s) : Low r (expireCall id s) := by
  unfold expireCall
  with_reducible repeat' first | assumption | apply low_expireGrace | apply low_expireTimer

theorem low_expireWait {o : Party}
    (h : Low r s) : Low r (expireWait o s) := by
  unfold expireWait
  dsimp only
  with_reducible repeat'
    first
      | assumption | apply low_dequeue | apply low_modJunction | apply low_modLine | apply low_watch
      | split

theorem low_tickQueue 
    (h : Low r s) : Low r (tickQueue s) := by
  unfold tickQueue
  with_reducible repeat' first | assumption | apply low_with_orig

theorem low_tickWindow {c : Ctl}
    (h : Low r s) : Low r (tickWindow c s) := by
  unfold tickWindow
  with_reducible repeat' first | assumption | apply low_modCtl | split

theorem low_tickCall {id : Nat} (h : Low r s) : Low r (modCall id tickCall s) := by
  refine low_modCall_coin h ⟨rfl, rfl, rfl⟩ (fun g k hk => ?_)
  simp only [tickCall] at hk
  split at hk
  · exact g k hk
  · obtain ⟨x, hx, rfl⟩ := Option.map_eq_some_iff.mp hk
    refine ⟨(g x hx).1, (g x hx).2.1, fun o e => (g x hx).2.2 o ?_⟩
    exact Option.map_eq_none_iff.mp e

theorem low_tickCalls (h : Low r s) : Low r (tickCalls s) := by
  unfold tickCalls
  with_reducible repeat' first | assumption | apply low_tickCall | refine low_foldl (fun _ _ _ => ?_) _ ?_

theorem low_chargeTick 
    (h : Low r s) : Low r (chargeTick s) := by
  unfold chargeTick
  with_reducible repeat' first | assumption | apply low_accrue | refine low_foldl (fun _ _ _ => ?_) _ ?_

/-! ## Tables -/

theorem low_loadAdmin {code : Nat} {out : Part → Part} {back : Part → Part}
    (hout : ∀ t, Low r t → Low r (out t)) (hback : ∀ t, Low r t → Low r (back t)) (h : Low r s) : Low r (loadAdmin code out back s) := by
  unfold loadAdmin
  with_reducible repeat' first | assumption | apply hout | apply hback | split

theorem low_writeLine {i : Nat} {x' : List Byte}
    (h : Low r s) : Low r (writeLine i x' s) := by
  unfold writeLine
  dsimp only
  with_reducible repeat'
    first
      | assumption | apply low_busyOutLine | apply low_loadAdmin | apply low_returnLine
      | apply low_writeClass | intro _ _ | split

theorem low_writeUse {j : Nat} {route : Nat} {d : Direction}
    (h : Low r s) : Low r (writeUse j route d s) := by
  unfold writeUse
  dsimp only
  with_reducible repeat' first | assumption | apply low_modJunction | apply low_seizeIfLoop | split

theorem low_writeJunction {j : Nat} {x' : List Byte}
    (h : Low r s) : Low r (writeJunction j x' s) := by
  unfold writeJunction
  dsimp only
  with_reducible repeat'
    first
      | assumption | apply low_busyOutElem | apply low_glare | apply low_loadAdmin
      | apply low_modJunction | apply low_rearm | apply low_returnElem | apply low_writeUse | intro _ _
      | split

theorem low_writeElem {e : ElemId} {x' : List Byte}
    (h : Low r s) : Low r (writeElem e x' s) := by
  unfold writeElem
  with_reducible repeat'
    first
      | assumption | apply low_busyOutElem | apply low_loadAdmin | apply low_returnElem | intro _ _

theorem low_readTableRequest {tag : Byte} {table : Byte} {first : Word16} {count : Byte}
    (h : Low r s) : Low r (readTableRequest tag table first count s) := by
  unfold readTableRequest
  with_reducible repeat' first | assumption | apply low_reply | split

/-! ## Supply -/

theorem low_spoilDigit {id : Nat}
    (h : Low r s) : Low r (spoilDigit s id) := by
  unfold spoilDigit
  with_reducible repeat'
    first
      | assumption | apply low_digitFault | apply low_dropPulses | apply low_rearm | split

theorem low_freezeEnd 
    (h : Low r s) : Low r (freezeEnd s) := by
  unfold freezeEnd
  dsimp only
  with_reducible repeat'
    first
      | assumption | apply low_modPoint | apply low_produce | apply low_spoilDigit
      | refine low_foldl (fun _ _ _ => ?_) _ ?_

/-! ## Maintenance -/

theorem low_busyOutRequest {tag : Byte} {kind : Byte} {n : Word16}
    (h : Low r s) : Low r (busyOutRequest tag kind n s) := by
  unfold busyOutRequest
  with_reducible repeat'
    first
      | assumption | apply low_busyOutElem | apply low_busyOutLine | apply low_reply | split

theorem low_returnRequest {tag : Byte} {kind : Byte} {n : Word16}
    (h : Low r s) : Low r (returnRequest tag kind n s) := by
  unfold returnRequest
  with_reducible repeat'
    first
      | assumption | apply low_reply | apply low_returnElem | apply low_returnLine | split

theorem low_releaseCallRequest {tag : Byte} {call_ : Byte}
    (h : Low r s) : Low r (releaseCallRequest tag call_ s) := by
  unfold releaseCallRequest
  with_reducible repeat' first | assumption | apply low_reply | apply low_takeRelease | split

theorem low_readMetersRequest {tag : Byte} {first : Word16} {count : Byte}
    (h : Low r s) : Low r (readMetersRequest tag first count s) := by
  unfold readMetersRequest
  with_reducible repeat' first | assumption | apply low_reply | split

theorem low_readSnapshotRequest {tag : Byte} {first : Word16} {count : Byte}
    (h : Low r s) : Low r (readSnapshotRequest tag first count s) := by
  unfold readSnapshotRequest
  with_reducible repeat' first | assumption | apply low_reply | split

theorem low_meterRequest {tag : Byte} {lt : Word16} {f : Nat → Part → Part}
    (hf : ∀ n t, Low r t → Low r (f n t)) (h : Low r s) : Low r (meterRequest tag lt f s) := by
  unfold meterRequest
  with_reducible repeat' first | assumption | apply low_reply | apply hf | split

theorem low_readTimeRequest {tag : Byte}
    (h : Low r s) : Low r (readTimeRequest tag s) := by
  unfold readTimeRequest
  with_reducible repeat' first | assumption | apply low_reply

theorem low_parkOrigin {lt : Nat}
    (h : Low r s) : Low r (parkOrigin s lt) := by
  unfold parkOrigin
  with_reducible repeat' first | assumption | apply low_modLine | apply low_watch | split

theorem low_holdOrigin {j : Nat}
    (h : Low r s) : Low r (holdOrigin s j) := by
  unfold holdOrigin
  with_reducible repeat' first | assumption | apply low_modJunction | apply low_watch | split

theorem low_emptyOrigins 
    (h : Low r s) : Low r (emptyOrigins s) := by
  unfold emptyOrigins
  dsimp only
  with_reducible repeat'
    first
      | assumption | apply low_holdOrigin | apply low_parkOrigin | apply low_retry
      | refine low_foldl (fun _ _ _ => ?_) _ ?_ | apply low_with_orig

theorem low_openRestart {tag : Byte} {active : List Nat}
    (h : Low r s) : Low r (openRestart tag active s) := by
  unfold openRestart
  with_reducible repeat' first | assumption | apply low_modMaint | apply low_reply | split

theorem low_silence {c : Ctl}
    (h : Low r s) : Low r (silence c s) := by
  unfold silence
  with_reducible repeat' first | assumption | apply low_becomeAbsent | split

theorem low_restartRequest {tag : Byte}
    (h : Low r s) : Low r (restartRequest tag s) := by
  unfold restartRequest
  dsimp only
  with_reducible repeat'
    first
      | assumption | apply low_emptyOrigins | apply low_openRestart | apply low_reply
      | apply low_silence | apply low_takeRelease | refine low_foldl (fun _ _ _ => ?_) _ ?_ | split

theorem low_readStatusRequest {tag : Byte}
    (h : Low r s) : Low r (readStatusRequest tag s) := by
  unfold readStatusRequest
  with_reducible repeat' first | assumption | apply low_reply

end Sys2Proof.Machine
end

