-- ==== Sys2Proof/Laws/Records.lean ====
section
/-!
SUPPORT. What reading one record gives after one record has changed.
-/

namespace Sys2Proof.Machine

variable {s t : Part}

/-! ## A read depends on its own table -/

theorem line_congr (h : t.net.lines = s.net.lines) (lt : Nat) : line lt t = line lt s := by
  simp only [line, h]

theorem frame_congr (h : t.net.frames = s.net.frames) (n : Nat) : frame n t = frame n s := by
  simp only [frame, h]

theorem route_congr (h : t.net.routes = s.net.routes) (n : Nat) : route n t = route n s := by
  simp only [route, h]

theorem junction_congr (h : t.net.junctions = s.net.junctions) (j : Nat) : junction j t = junction j s := by
  simp only [junction, h]

theorem call_congr (h : t.calls = s.calls) (id : Nat) : call id t = call id s := by
  simp only [call, h]

theorem point_congr (h : t.scan.points = s.scan.points) (p : Nat) : point p t = point p s := by
  simp only [point, h]

theorem meter_congr (h : t.meters.entries = s.meters.entries) (lt : Nat) : meter lt t = meter lt s := by
  simp only [meter, h]

theorem elem_congr (h : t.net = s.net) (e : ElemId) : elem e t = elem e s := by
  cases e <;> simp only [elem, junction, h]

/-! ## The record changed, and the others -/

theorem line_modLine (h : TablesOk s) (lt : Nat) (f : Line → Line) :
    line lt (modLine lt f s) = f (line lt s) := Table.get_put_same h.lines

theorem line_modLine_of_ne {x lt : Nat} (h : x ≠ lt) (f : Line → Line) :
    line x (modLine lt f s) = line x s := Table.get_put_ne h

theorem frame_modFrame (h : TablesOk s) (n : Nat) (f : Frame → Frame) :
    frame n (modFrame n f s) = f (frame n s) := Table.get_put_same h.frames

theorem frame_modFrame_of_ne {x n : Nat} (h : x ≠ n) (f : Frame → Frame) :
    frame x (modFrame n f s) = frame x s := Table.get_put_ne h

theorem route_modRoute (h : TablesOk s) (n : Nat) (f : Route → Route) :
    route n (modRoute n f s) = f (route n s) := Table.get_put_same h.routes

theorem route_modRoute_of_ne {x n : Nat} (h : x ≠ n) (f : Route → Route) :
    route x (modRoute n f s) = route x s := Table.get_put_ne h

theorem junction_modJunction (h : TablesOk s) (j : Nat) (f : Junction → Junction) :
    junction j (modJunction j f s) = f (junction j s) := Table.get_put_same h.junctions

theorem junction_modJunction_of_ne {x j : Nat} (h : x ≠ j) (f : Junction → Junction) :
    junction x (modJunction j f s) = junction x s := Table.get_put_ne h

theorem call_modCall (h : TablesOk s) (id : Nat) (f : Call → Call) :
    call id (modCall id f s) = f (call id s) := Table.get_put_same h.calls

theorem call_modCall_of_ne {x id : Nat} (h : x ≠ id) (f : Call → Call) :
    call x (modCall id f s) = call x s := Table.get_put_ne h

theorem point_modPoint (h : TablesOk s) (p : Nat) (f : ScanEntry → ScanEntry) :
    point p (modPoint p f s) = f (point p s) := Table.get_put_same h.points

theorem point_modPoint_of_ne {x p : Nat} (h : x ≠ p) (f : ScanEntry → ScanEntry) :
    point x (modPoint p f s) = point x s := Table.get_put_ne h

theorem meter_modMeter (h : TablesOk s) (lt : Nat) (f : MeterEntry → MeterEntry) :
    meter lt (modMeter lt f s) = f (meter lt s) := Table.get_put_same h.meters

theorem meter_modMeter_of_ne {x lt : Nat} (h : x ≠ lt) (f : MeterEntry → MeterEntry) :
    meter x (modMeter lt f s) = meter x s := Table.get_put_ne h

theorem elem_modElem (h : TablesOk s) (e : ElemId) (f : Element → Element) :
    elem e (modElem e f s) = f (elem e s) := by
  cases e with
  | fl n => exact Table.get_put_same h.fls
  | cord n => exact Table.get_put_same h.cords
  | junction j =>
    simp only [elem, modElem]
    rw [junction_modJunction h]

theorem elem_modElem_of_ne {x e : ElemId} (h : x ≠ e) (f : Element → Element) :
    elem x (modElem e f s) = elem x s := by
  cases e with
  | fl n => cases x with
    | fl m => exact Table.get_put_ne (by simpa using h)
    | cord m => rfl
    | junction m => rfl
  | cord n => cases x with
    | cord m => exact Table.get_put_ne (by simpa using h)
    | fl m => rfl
    | junction m => rfl
  | junction n => cases x with
    | junction m =>
      simp only [elem, modElem]
      rw [junction_modJunction_of_ne (by simpa using h)]
    | cord m => rfl
    | fl m => rfl

end Sys2Proof.Machine
end

