-- ==== Sys2Proof/Laws/Clock.lean ====
section
/-!
SUPPORT. Everything a tick does to a part with no call record, and everything an evaluation of the calendar
does.
-/

namespace Sys2Proof.Machine

variable {s : Part}

/-! ## The evaluation (R165, R117) -/

/-- The increments of the charging calls after a change of the band increment table. -/
theorem call_takeIncrements (h : TablesOk s) (id : Nat) :
    call id (takeIncrements s) =
      if (call id s).charging then
        { call id s with incr := s.charge.incs.getD ((call id s).band.getD 0) 0 }
      else call id s := by
  have step : ∀ (l : List Nat) (t : Part), TablesOk t → t.charge = s.charge → l.Nodup →
      call id (l.foldl
        (fun s id => modCall id (fun c => { c with incr := bandIncrement (c.band.getD 0) s }) s) t) =
        if id ∈ l then { call id t with incr := s.charge.incs.getD ((call id t).band.getD 0) 0 }
        else call id t := by
    intro l
    induction l with
    | nil => intro t _ _ _; simp
    | cons x l ih =>
      intro t ht hc hn
      obtain ⟨hx, hn⟩ := List.nodup_cons.mp hn
      have ht' := (low_modCall_same (id := x)
        (f := fun c => { c with incr := bandIncrement (c.band.getD 0) t }) (Low.refl t) ⟨rfl, rfl, rfl, rfl⟩).tablesOk ht
      simp only [List.foldl_cons]
      rw [ih _ ht' hc hn]
      by_cases hid : id = x
      · subst hid
        rw [call_modCall ht]
        simp only [hx, if_false, List.mem_cons, true_or, if_true]
        rw [← hc]
        rfl
      · rw [call_modCall_of_ne hid]
        simp only [List.mem_cons, hid, false_or]
  have hn : (callsWith Call.charging s).Nodup := by
    have hp : s.calls.Pairwise (fun x y => x.1 < y.1) := by
      have := h.calls
      simp only [Table.wf, Bool.and_eq_true, decide_eq_true_eq] at this
      exact this.1
    simp only [callsWith, List.Nodup, List.pairwise_map]
    exact (hp.filter _).imp (fun g => by omega)
  have hm : id ∈ callsWith Call.charging s ↔ (call id s).charging = true := by
    simp only [callsWith, List.mem_map, List.mem_filter]
    constructor
    · rintro ⟨⟨i, c⟩, ⟨hm, hc⟩, rfl⟩
      have : call i s = c := Table.get_of_mem h.calls hm
      rw [this]
      exact hc
    · intro hc
      refine ⟨(id, call id s), ⟨Table.mem_of_get ?_, hc⟩, rfl⟩
      intro hd
      have : call id s = {} := hd
      rw [this] at hc
      cases hc
  unfold takeIncrements
  rw [step _ s h rfl hn]
  simp only [hm]

theorem takeIncrements_eq (s : Part) : takeIncrements s = { s with calls := (takeIncrements s).calls } := by
  have step : ∀ (l : List Nat) (t : Part),
      l.foldl (fun s id => modCall id (fun c => { c with incr := bandIncrement (c.band.getD 0) s }) s) t =
        { t with calls := (l.foldl
          (fun s id => modCall id (fun c => { c with incr := bandIncrement (c.band.getD 0) s }) s) t).calls } := by
    intro l
    induction l with
    | nil => intro t; rfl
    | cons x l ih =>
      intro t
      simp only [List.foldl_cons]
      rw [ih]
      rfl
  exact step _ s

/-- Everything a change of period does (R117). -/
theorem takePeriod_eq (p : Period) (s : Part) :
    takePeriod p s = { s with charge.period := p, charge.incs := bandIncrements p s
                              calls := (takePeriod p s).calls } := by
  conv_lhs => rw [takePeriod]
  dsimp only
  rw [takeIncrements_eq]
  rfl

theorem call_takePeriod (h : TablesOk s) (p : Period) (id : Nat) :
    call id (takePeriod p s) =
      if (call id s).charging then
        { call id s with incr := (bandIncrements p s).getD ((call id s).band.getD 0) 0 }
      else call id s := by
  have ht : TablesOk { s with charge.period := p, charge.incs := bandIncrements p s } := { h with }
  exact call_takeIncrements ht id

theorem bandIncrements_get (p : Period) (s : Part) {b : Nat} (hb : b < 16) :
    (bandIncrements p s)[b]? =
      some (increment (Table.get {} s.charge.tariff (4 * b + p.code)).unitPeriod) := by
  simp [bandIncrements, hb]

/-- Everything an evaluation does. -/
theorem evaluated_evaluate (h : TablesOk s) : Evaluated s (evaluate s) := by
  unfold evaluate
  dsimp only
  change Evaluated s
    (if decide ((entryOf s).profile ≠ s.cal.profile) = true then
      retry (if decide (s.cal.force.getD (entryOf s).period ≠ s.cal.period) = true then
        takePeriod (s.cal.force.getD (entryOf s).period)
          { s with cal := { s.cal with
              entry := entryInForce s, calPeriod := (entryOf s).period, profile := (entryOf s).profile
              period := s.cal.force.getD (entryOf s).period } }
        else { s with cal := { s.cal with
              entry := entryInForce s, calPeriod := (entryOf s).period, profile := (entryOf s).profile
              period := s.cal.force.getD (entryOf s).period } })
    else (if decide (s.cal.force.getD (entryOf s).period ≠ s.cal.period) = true then
        takePeriod (s.cal.force.getD (entryOf s).period)
          { s with cal := { s.cal with
              entry := entryInForce s, calPeriod := (entryOf s).period, profile := (entryOf s).profile
              period := s.cal.force.getD (entryOf s).period } }
        else { s with cal := { s.cal with
              entry := entryInForce s, calPeriod := (entryOf s).period, profile := (entryOf s).profile
              period := s.cal.force.getD (entryOf s).period } }))
  have hb : TablesOk { s with cal := { s.cal with
      entry := entryInForce s, calPeriod := (entryOf s).period, profile := (entryOf s).profile
      period := s.cal.force.getD (entryOf s).period } } := { h with }
  simp only [decide_eq_true_eq]
  by_cases hp : s.cal.force.getD (entryOf s).period ≠ s.cal.period
  · rw [if_pos hp, takePeriod_eq]
    have hc := fun id => call_takePeriod hb (s.cal.force.getD (entryOf s).period) id
    split
    · rename_i hq
      refine ⟨rfl, fun g => absurd g hp, fun _ => ⟨rfl, rfl, fun b hb => bandIncrements_get _ _ hb, hc⟩,
        fun g => absurd g hq⟩
    · refine ⟨rfl, fun g => absurd g hp, fun _ => ⟨rfl, rfl, fun b hb => bandIncrements_get _ _ hb, hc⟩,
        fun _ => rfl⟩
  · rw [if_neg hp]
    have hp' := not_not.mp hp
    split
    · rename_i hq
      exact ⟨rfl, fun _ => ⟨rfl, rfl⟩, fun g => absurd hp' g, fun g => absurd g hq⟩
    · exact ⟨rfl, fun _ => ⟨rfl, rfl⟩, fun g => absurd hp' g, fun _ => rfl⟩

/-! ## The tick (R154, R161) -/

/-- The time of week after a tick. -/
theorem tenthOfWeek_advanceTime {t : TimeBase} (h1 : t.day ≤ 6) (h2 : t.minute ≤ 1439) (h3 : t.second ≤ 59)
    (h4 : t.tenth ≤ 9) :
    tenthOfWeek (advanceTime t) = (tenthOfWeek t + 1) % 6048000 ∧ (advanceTime t).day ≤ 6 ∧
      (advanceTime t).minute ≤ 1439 ∧ (advanceTime t).second ≤ 59 ∧ (advanceTime t).tenth ≤ 9 := by
  unfold advanceTime tenthOfWeek
  repeat' split
  all_goals dsimp only
  all_goals omega

theorem advanceTime_eq (t : TimeBase) :
    advanceTime t = { t with
      day := (advanceTime t).day, minute := (advanceTime t).minute, second := (advanceTime t).second
      tenth := (advanceTime t).tenth } := by
  unfold advanceTime
  repeat' split
  all_goals rfl

/-- With no call record and nothing due, no expiry is taken. -/
theorem settleExpiries_of_quiet (h : QuietForTick s) : settleExpiries s = s := by
  obtain ⟨h1, h2, h3, h4⟩ := h
  have hw : ∀ (l : List Party), l.foldl (fun s o => expireWait o s) s = s := by
    intro l
    induction l with
    | nil => rfl
    | cons o l ih =>
      have : expireWait o s = s := by
        unfold expireWait
        rw [if_neg]
        simp only [waitDue, Bool.not_eq_true, List.any_eq_false, decide_eq_true_eq]
        intro w hw g
        have := h3 w hw
        omega
      rw [List.foldl_cons, this, ih]
  have hp : ∀ c, expireWindow c s = s := by
    intro c
    unfold expireWindow windowDue
    rw [if_neg]
    have := h4 c
    rintro g
    obtain ⟨hp, hw⟩ := Bool.and_eq_true _ _ ▸ g
    exact absurd (of_decide_eq_true hw) (by simpa [Config.window] using this hp)
  unfold settleExpiries
  simp only [callsWith, h1, List.filter_nil, List.map_nil, List.foldl_nil, hw, hp, evaluateBoundary, h2]
  rfl

theorem tickCalls_of_nil (h : s.calls = []) : tickCalls s = s := by simp [tickCalls, callsWith, h]

theorem chargeTick_of_nil (h : s.calls = []) : chargeTick s = s := by simp [chargeTick, callsWith, h]

/-- Everything a tick does to a part with no call record and nothing due. -/
theorem ticked_takeTick (h : QuietForTick s) (h1 : s.tb.day ≤ 6) (h2 : s.tb.minute ≤ 1439)
    (h3 : s.tb.second ≤ 59) (h4 : s.tb.tenth ≤ 9) (early : List Nat) : Ticked s (takeTick early s) := by
  have ha := tenthOfWeek_advanceTime h1 h2 h3 h4
  have hw : ∀ (c : Ctl) (t : Part), (ctl c t).window < 20 ∨ (ctl c t).present = false →
      tickWindow c t = modCtl c CtlPort.ticked t := by
    intro c t g
    unfold tickWindow
    split
    · rename_i hp
      cases c <;> simp_all [modCtl, CtlPort.ticked, ctl, Config.window]
    · rename_i hp
      refine (modCtl_self t c _ ?_).symm
      unfold CtlPort.ticked
      rw [if_neg hp]
  have hc : ∀ (l : List Nat) (t : Part), t.calls = [] → l.foldl (fun s id => expireCall id s) t = t := by
    intro l
    induction l with
    | nil => intro t _; rfl
    | cons id l ih =>
      intro t ht
      have : expireCall id t = t := by
        simp [expireCall, expireTimer, timerDue, expireGrace, graceDue, call, ht, Table.get]
      rw [List.foldl_cons, this, ih t ht]
  have hq : ∀ c, (ctl c s).window < 20 ∨ (ctl c s).present = false := by
    intro c
    by_cases hp : (ctl c s).present = true
    · exact Or.inl (h.2.2.2 c hp)
    · exact Or.inr (by simpa using hp)
  unfold takeTick
  dsimp only
  rw [settleExpiries_of_quiet h, hw .a (tickQueue (tickTime s)) (hq .a),
    hw .b (modCtl .a CtlPort.ticked (tickQueue (tickTime s))) (hq .b)]
  have hn : (modCtl .b CtlPort.ticked (modCtl .a CtlPort.ticked (tickQueue (tickTime s)))).calls = [] := h.1
  rw [tickCalls_of_nil hn, hc _ _ hn, chargeTick_of_nil hn]
  refine ⟨?_, ha⟩
  simp only [modCtl, tickQueue, tickTime, h.2.1, Bool.false_or, decide_eq_true_eq]
  conv_lhs => rw [advanceTime_eq s.tb]

end Sys2Proof.Machine
end

