-- ==== Sys2Proof/Laws/Ports.lean ====
section
/-!
SUPPORT. The ports: what a reply and a notice add to what a port has still to send, and what they leave alone.
-/

namespace Sys2Proof.Machine

variable (s : Part)

/-! ## One port's link -/

@[simp] theorem io_modIo (p : Port) (f : PortIo → PortIo) : io p (modIo p f s) = f (io p s) := by
  rcases p with (_ | _) | _ <;> rfl

theorem io_modIo_of_ne {p q : Port} (h : q ≠ p) (f : PortIo → PortIo) : io q (modIo p f s) = io q s := by
  rcases p with (_ | _) | _ <;> rcases q with (_ | _) | _ <;> first | rfl | exact absurd rfl h

theorem modIo_modIo (p : Port) (f g : PortIo → PortIo) :
    modIo p f (modIo p g s) = modIo p (fun x => f (g x)) s := by
  rcases p with (_ | _) | _ <;> rfl

theorem modIo_io (p : Port) : modIo p (fun _ => io p s) s = s := by
  rcases p with (_ | _) | _ <;> rfl

/-- A change of a port's link leaves all else alone. -/
theorem sameBut_modIo (p : Port) (f : PortIo → PortIo) : SameBut p s (modIo p f s) := by
  rcases p with (_ | _) | _ <;> rfl

/-! ## The choice of the next frame -/

theorem PortIo.kick_of_reply (x : PortIo) (r : Reply) :
    ((match (PortIo.kick { x with replies := x.replies ++ [r] }).sending with
        | some (.reply r) => [r]
        | _ => []) ++ (PortIo.kick { x with replies := x.replies ++ [r] }).replies =
      (match x.sending with
        | some (.reply r) => [r]
        | _ => []) ++ x.replies ++ [r]) ∧
    (PortIo.kick { x with replies := x.replies ++ [r] }).queue = x.queue := by
  obtain ⟨sending, replies, queue⟩ := x
  cases sending with
  | some f => cases f <;> simp [PortIo.kick]
  | none => cases replies <;> simp [PortIo.kick]

theorem PortIo.kick_of_notice (x : PortIo) (n : Notice) :
    (match (PortIo.kick { x with queue := x.queue ++ [n] }).sending with
        | some (.notice n) => [n]
        | _ => []) ++ (PortIo.kick { x with queue := x.queue ++ [n] }).queue =
      (match x.sending with
        | some (.notice n) => [n]
        | _ => []) ++ x.queue ++ [n] := by
  obtain ⟨sending, replies, queue⟩ := x
  cases sending with
  | some f => cases f <;> simp [PortIo.kick]
  | none => cases replies <;> cases queue <;> simp [PortIo.kick]

/-! ## Replies and notices -/

/-- Everything a reply does: it joins what its port has still to send, and nothing else changes. -/
theorem answered_reply (p : Port) (tag : Byte) (code : ResultCode) (data : List Byte) :
    Answered p { tag := tag, code := code, data := data } s (reply p tag code data s) := by
  have h := PortIo.kick_of_reply (io p s) { tag := tag, code := code, data := data }
  refine ⟨?_, ?_, sameBut_modIo s p _⟩
  · simp only [repliesDue, reply, io_modIo]
    exact h.1
  · simp only [reply, io_modIo]
    exact h.2

/-- Everything a notice's entry does to the port's queue. -/
theorem noticesDue_enter (p : Port) (n : Notice) : noticesDue p (enter p n s) = noticesDue p s ++ [n] := by
  simp only [noticesDue, enter, io_modIo]
  exact PortIo.kick_of_notice (io p s) n

theorem sameBut_enter (p : Port) (n : Notice) : SameBut p s (enter p n s) := sameBut_modIo s p _

/-- A maintenance notice raised with room and nothing held enters the queue (R180). -/
theorem raiseMaint_of_room (k : MaintKind) (d : List Byte) (h : room .maint s = true) (g : s.m.held = []) :
    raiseMaint k d s = enter .maint (.maint k 0 d) s := by
  simp [raiseMaint, h, g]

/-- A maintenance notice raised with nothing held and no room is held. -/
theorem raiseMaint_of_full (k : MaintKind) (d : List Byte) (h : room .maint s = false) :
    raiseMaint k d s = modMaint (fun x => { x with held := mergeHeld k d x.held }) s := by
  have hd : ∀ t : Part, room .maint t = false → drainMaint t = t := by
    intro t ht
    simp [drainMaint, repeatStep, drainMaintOne, ht]
  simp only [raiseMaint, h, Bool.false_and, Bool.false_eq_true, if_false]
  exact hd _ h

/-- A call-bound notice raised for an owner with room and nothing pending enters the owner's queue (R178). -/
theorem raiseCall_of_room {id : Nat} {c : Ctl} (k : CallKind) (d : List Byte) (ho : (call id s).owner = some c)
    (h : room (.ctl c) s = true) (g : (call id s).pend = []) :
    raiseCall id k d s = enterCall (.ctl c) id k d s := by
  simp [raiseCall, ho, h, g]

/-! ## When a request is taken (R170) -/

theorem receiveMaint_of_takes {tag : Byte} {f : Part → Part} (h : MaintTakes s) :
    receiveMaint tag f s = f s := by
  simp [receiveMaint, h.1, h.2]

/-- A presence window that has not run out makes no controller ABSENT (R183). -/
theorem expireWindow_of_lt {s : Part} {c : Ctl} (h : (ctl c s).window < 20) : expireWindow c s = s := by
  have g : ¬ 20 ≤ (ctl c s).window := Nat.not_le.mpr h
  simp [expireWindow, windowDue, Config.window, g]

theorem receiveCtl_of_takes {c : Ctl} {tag : Byte} {f : Part → Part} (h : CtlTakes c s) :
    receiveCtl c tag f s = f (alive c s) := by
  obtain ⟨h1, h2, h3, h4, h5⟩ := h
  have hl : signOfLife c s = alive c s := by
    unfold signOfLife alive
    dsimp only
    rw [expireWindow_of_lt h4, h1, h3]
    rfl
  unfold receiveCtl
  rw [hl]
  cases c <;> simp_all [alive, modCtl, ctl]

end Sys2Proof.Machine
end

