-- ==== Sys2Proof/Laws/Releases.lean ====
section
/-!
SUPPORT. What taking a release does (R98), with orders in the table and with the call left to wait for room.
-/

namespace Sys2Proof.Machine

variable {s : Part} {id : Nat}

theorem withdrawExtend_of_unawaited (c : Ctl) (h : ∀ r, (ctl c s).extend = some r → r.call ≠ id) :
    withdrawExtend id c s = s := by
  unfold withdrawExtend
  split
  · rfl
  · rw [if_neg (h _ (by assumption))]

theorem dropRehunt_of_none (h : s.orig.rehunts.any (fun e => decide (e.call = id)) = false) :
    dropRehunt id s = s := by
  unfold dropRehunt
  rw [h]
  rfl

/-- Arming the events of a call's points afresh, and spending those due. -/
def respend (id : Nat) (s : Part) : Part := spendCall id (rearmCall id s)

/-- Only entries of the point table change. -/
def PointsOnly (s t : Part) : Prop := t = { s with scan.points := t.scan.points }

theorem PointsOnly.trans {q r s : Part} (h : PointsOnly q r) (g : PointsOnly r s) : PointsOnly q s := by
  have e : s = { ({ q with scan.points := r.scan.points } : Part) with scan.points := s.scan.points } := h ▸ g
  exact e

/-- A change of points one after another, each of which leaves all else, leaves all else. -/
theorem foldl_points {f : Part → Nat → Part} (hf : ∀ s p, PointsOnly s (f s p))
    (hp : ∀ s p x, x ≠ p → point x (f s p) = point x s) (l : List Nat) (s : Part) :
    PointsOnly s (l.foldl f s) ∧ ∀ x, x ∉ l → point x (l.foldl f s) = point x s := by
  induction l generalizing s with
  | nil => exact ⟨rfl, fun _ _ => rfl⟩
  | cons p l ih =>
    obtain ⟨h1, h2⟩ := ih (f s p)
    refine ⟨(hf s p).trans h1, fun x hx => ?_⟩
    simp only [List.mem_cons, not_or] at hx
    simp only [List.foldl_cons]
    rw [h2 x hx.2, hp s p x hx.1]

theorem rearmCall_points (id : Nat) (s : Part) :
    PointsOnly s (rearmCall id s) ∧
      ∀ x, x ∉ callPoints (call id s) → point x (rearmCall id s) = point x s :=
  foldl_points (f := fun s p => rearm p s) (fun _ _ => rfl) (fun _ _ _ h => point_modPoint_of_ne h _) _ s

theorem spend_points (s : Part) (p : Nat) : PointsOnly s (spend s p) := by
  unfold spend
  split <;> rfl

theorem point_spend {p x : Nat} (s : Part) (h : x ≠ p) : point x (spend s p) = point x s := by
  unfold spend
  split
  · exact point_modPoint_of_ne h _
  · rfl

theorem respend_points (id : Nat) (s : Part) :
    PointsOnly s (respend id s) ∧
      ∀ x, x ∉ callPoints (call id s) → point x (respend id s) = point x s := by
  obtain ⟨h1, h2⟩ := rearmCall_points id s
  have hc : call id (rearmCall id s) = call id s := by
    rw [h1]
    rfl
  obtain ⟨g1, g2⟩ := foldl_points spend_points (fun s p x h => point_spend s h)
    (callPoints (call id (rearmCall id s))) (rearmCall id s)
  exact ⟨h1.trans g1, fun x hx => (g2 x (by rw [hc]; exact hx)).trans (h2 x hx)⟩

theorem respend_eq (id : Nat) (s : Part) :
    respend id s = { s with scan.points := (respend id s).scan.points } := (respend_points id s).1

theorem point_respend {x : Nat} (h : x ∉ callPoints (call id s)) : point x (respend id s) = point x s :=
  (respend_points id s).2 x h

theorem dropPulses_eq (id : Nat) (s : Part) :
    dropPulses id s = { s with scan.points := (dropPulses id s).scan.points } := by
  unfold dropPulses
  split <;> rfl

theorem point_dropPulses {x : Nat} (h : x ∉ callPoints (call id s)) :
    point x (dropPulses id s) = point x s := by
  unfold dropPulses
  split
  · rfl
  · rename_i c hc
    refine point_modPoint_of_ne ?_ _
    rintro rfl
    apply h
    simp [callPoints, hc]

/-- A release begins with its claim, from the free places, or on the release wait list (R80). -/
theorem releaseBegun_beginRelease (id : Nat) (s : Part) : ReleaseBegun id s (beginRelease id s) := by
  have h : (5 - (call id s).claim ≤ freePlaces s) ↔ 5 ≤ freePlaces s + (call id s).claim := by omega
  unfold ReleaseBegun beginRelease
  simp only [Config.releasePlaces, h]
  rfl

/-- A reswitch that loses no element of its new set is given up without effect (R75, R81). -/
theorem giveUpNew_of_joined (h : NewSetJoined id s) : giveUpNew id s = s := by
  have e : (call id s).new.elems.filter (fun e => !(operatedXps id s).any (fun x => x.elems.contains e)) = [] := by
    refine List.filter_eq_nil_iff.mpr (fun e he => ?_)
    obtain ⟨x, hx, hm⟩ := h e he
    simp only [Bool.not_eq_true', Bool.not_eq_false]
    exact List.any_eq_true.mpr ⟨x, hx, List.contains_iff_mem.mpr hm⟩
  unfold giveUpNew
  dsimp only
  rw [e]
  cases (call id s).term with
  | none => rfl
  | some x => cases x <;> rfl

/-- The part just before a call's release begins (R98): the record is RELEASING, a reswitch is over, the pulse count
of its O point is gone and the events of its points are armed afresh. -/
theorem enterReleasing_eq (h : TablesOk s) (h1 : (call id s).reswitch = true → NewSetJoined id s) :
    ∃ u, enterReleasing id s = beginRelease id u ∧ u = { s with calls := u.calls, scan.points := u.scan.points } ∧
      call id u =
        { call id s with
          state := .releasing, relPending := false, op := .idle
          set := if (call id s).reswitch then (call id s).new else (call id s).set
          new := if (call id s).reswitch then {} else (call id s).new
          reswitch := false } ∧
      (∀ x, x ≠ id → call x u = call x s) ∧ ∀ p, p ∉ callPoints (call id s) → point p u = point p s := by
  have hg : (if (call id s).reswitch then giveUpNew id s else s) = s := by
    split
    · exact giveUpNew_of_joined (h1 (by assumption))
    · rfl
  obtain ⟨q, hq⟩ : ∃ q, q = dropPulses id s := ⟨_, rfl⟩
  have q1 : PointsOnly s q := hq ▸ dropPulses_eq id s
  have q2 : ∀ x, call x q = call x s := fun x => by rw [q1]; rfl
  have q3 : TablesOk q := hq ▸ (low_dropPulses (Low.refl s)).tablesOk h
  obtain ⟨v, hv⟩ : ∃ v, v = modCall id (fun c => { c with
      state := .releasing, relPending := false, op := .idle
      set := if c.reswitch then c.new else c.set
      new := if c.reswitch then {} else c.new
      reswitch := false }) q := ⟨_, rfl⟩
  have v1 : call id v = { call id s with
      state := .releasing, relPending := false, op := .idle
      set := if (call id s).reswitch then (call id s).new else (call id s).set
      new := if (call id s).reswitch then {} else (call id s).new
      reswitch := false } := by
    rw [hv, call_modCall q3, q2]
  have v2 : v = { q with calls := v.calls } := by rw [hv]; rfl
  have v3 : ∀ x, x ≠ id → call x v = call x s := fun x hx => by rw [hv, call_modCall_of_ne hx, q2]
  have v4 : ∀ p, p ∉ callPoints (call id s) → p ∉ callPoints (call id v) := by
    intro p hp hm
    apply hp
    rw [v1] at hm
    simp only [callPoints, List.mem_append, List.mem_flatMap] at hm ⊢
    cases hr : (call id s).reswitch <;> simp only [hr, if_true, if_false, Bool.false_eq_true] at hm
    · exact hm
    · rcases hm with (⟨a, ha, hb⟩ | hm) | hm
      · exact Or.inl (Or.inl ⟨a, by simpa [or_comm] using Or.inr (by simpa using ha), hb⟩)
      · exact Or.inl (Or.inr hm)
      · exact Or.inr hm
  obtain ⟨w1, w2⟩ := respend_points id v
  have w3 : ∀ x, call x (respend id v) = call x v := fun x => by rw [w1]; rfl
  refine ⟨respend id v, ?_, ?_, (w3 id).trans v1, fun x hx => (w3 x).trans (v3 x hx), fun p hp => ?_⟩
  · rw [hv, hq]
    unfold enterReleasing
    dsimp only
    rw [hg]
    rfl
  · rw [w1, v2, q1]
  · refine (w2 p (v4 p hp)).trans ?_
    have : point p v = point p q := by rw [v2]; rfl
    rw [this, hq]
    exact point_dropPulses hp

/-- What taking a release does to a call that nothing waits for (R98). -/
theorem takesRelease_takeRelease (h : TablesOk s) (hr : Releasable id s) (why : Reason) :
    TakesRelease id why s (takeRelease id why s) := by
  obtain ⟨h1, h2, h3, h4⟩ := hr
  obtain ⟨v, hv⟩ : ∃ v, v = modCall id (fun c => { c with reason := some why, timer := none, charging := false }) s :=
    ⟨_, rfl⟩
  have v0 : v = { s with calls := v.calls } := by rw [hv]; rfl
  have e : takeRelease id why s =
      if (ordersOf id v).isEmpty then enterReleasing id v
      else modCall id (fun c => { c with relPending := true }) v := by
    unfold takeRelease
    dsimp only
    rw [h1, h2, if_neg (by simp), ← hv,
      withdrawExtend_of_unawaited (s := v) .a (by rw [v0]; exact h3 .a),
      withdrawExtend_of_unawaited (s := v) .b (by rw [v0]; exact h3 .b),
      dropRehunt_of_none (s := v) (by rw [v0]; exact h4)]
  have ho : ordersOf id v = ordersOf id s := by rw [v0]; rfl
  have hm : TablesOk v := hv ▸ (low_modCall_same (Low.refl s) ⟨rfl, rfl, rfl, rfl⟩).tablesOk h
  have hc : call id v = { call id s with reason := some why, timer := none, charging := false } := by
    rw [hv, call_modCall h]
  have hx : ∀ x, x ≠ id → call x v = call x s := fun x hx => by rw [hv, call_modCall_of_ne hx]
  have hp : ∀ p, point p v = point p s := fun p => by rw [v0]; rfl
  rw [e, ho]
  refine ⟨fun g => ?_, fun g g1 => ?_⟩
  · rw [if_neg (by simp [g])]
    refine ⟨?_, ?_, fun x hne => ?_⟩
    · conv => lhs; rw [v0]
      rfl
    · rw [call_modCall hm, hc]
    · rw [call_modCall_of_ne hne, hx x hne]
  · rw [if_pos (by simp [g])]
    have g2 : (call id v).reswitch = true → NewSetJoined id v := by
      intro hr
      have hj := g1 (by rw [hc] at hr; exact hr)
      have ho : operatedXps id v = operatedXps id s := by
        have he : ∀ e, elem e v = elem e s := fun e => by rw [v0]; cases e <;> rfl
        simp only [operatedXps, onlyFaulty, he, hc]
      unfold NewSetJoined
      rw [ho, hc]
      exact hj
    obtain ⟨u, k0, k1, k2, k3, k4⟩ := enterReleasing_eq (id := id) hm g2
    refine ⟨u, ⟨?_, ?_, fun x hne => (k3 x hne).trans (hx x hne), fun p hq => ?_⟩, ?_⟩
    · rw [k1, v0]
    · rw [k2, hc]
    · rw [k4 p (by rw [hc]; exact hq), hp]
    · rw [k0]
      exact releaseBegun_beginRelease id u

end Sys2Proof.Machine
end

