-- ==== Sys2Proof/Laws/Restart.lean ====
section
/-!
SUPPORT. What emptying the wait queue and the marks does to the origins without a call (R42).
-/

namespace Sys2Proof.Machine

variable {s : Part}

theorem TablesOk.modLine (h : TablesOk s) (lt : Nat) (f : Line → Line) : TablesOk (modLine lt f s) :=
  { h with lines := Table.wf_put h.lines }

theorem TablesOk.modJunction (h : TablesOk s) (j : Nat) (f : Junction → Junction) : TablesOk (modJunction j f s) :=
  { h with junctions := Table.wf_put h.junctions }

theorem TablesOk.modPoint (h : TablesOk s) (p : Nat) (f : ScanEntry → ScanEntry) : TablesOk (modPoint p f s) :=
  { h with points := Table.wf_put h.points }

/-- An event armed with its threshold not yet reached is not produced (R22). -/
theorem watch_of_young {p : Nat} (h : TablesOk s)
    (hq : ∀ ev, armed p s = some ev → (point p s).duration < ev.threshold) : watch p s = rearm p s := by
  have e : point p (rearm p s) = { point p s with pending := armed p s } := point_modPoint h p _
  have d : eventDue p (rearm p s) = none := by
    unfold eventDue
    rw [e]
    cases ha : armed p s with
    | none => rfl
    | some ev =>
      have := hq ev ha
      dsimp only
      rw [if_neg (by simp only [not_and_or]; omega)]
  unfold watch produce
  rw [d]

/-- The event of a line that is PARKED (R22, R28). -/
theorem armed_parked {lt : Nat} (hl : lt < 2048) (h : (line lt s).sup = .parked) :
    armed lt s = if (point lt s).accepted = .open_ then some .parkEnd else none := by
  have k : pointKind lt = .line lt := by
    unfold pointKind
    split
    · rfl
    · omega
  unfold armed
  simp only [k, h]
  split <;> simp_all

/-- The event of a junction that is HELD UNSERVED (R22, R35). -/
theorem armed_heldUnserved {j : Nat} (h : (junction j s).sup = .heldUnserved) :
    armed (2336 + j) s = if (point (2336 + j) s).accepted = .open_ then some .farEndClear else none := by
  have k : pointKind (2336 + j) = .junction j := by
    unfold pointKind
    have k5 : 2336 + j - 2336 = j := Nat.add_sub_cancel_left ..
    repeat' split
    all_goals first | omega | rw [k5]
  unfold armed
  simp only [k, h]
  split <;> simp_all

theorem callOf_congr {x : Party} {t : Part} (h : t.calls = s.calls) : callOf x t = callOf x s := by
  simp [callOf, findCall, h]

/-- Parking one unnamed line (R42). -/
theorem parkOrigin_eq (h : TablesOk s) (lt : Nat) (hl : LineUnnamed lt s)
    (hq : lt < 2048 ∧ ((point lt s).accepted = .open_ → (point lt s).duration < 25)) :
    parkOrigin s lt = modPoint lt (fun e => { e with
        pending := if (point lt s).accepted = .open_ then some .parkEnd else none })
      (modLine lt (fun l => { l with sup := .parked, marked := false }) s) := by
  have hs : (line lt (modLine lt (fun l => { l with sup := .parked, marked := false }) s)).sup = .parked := by
    rw [line_modLine h]
  have ha := armed_parked (s := modLine lt (fun l => { l with sup := .parked, marked := false }) s) hq.1 hs
  unfold parkOrigin
  rw [if_pos (show _ ∧ _ from hl), watch_of_young (h.modLine lt _)]
  · unfold rearm
    rw [ha]
    rfl
  · intro ev he
    rw [ha] at he
    split at he
    · cases he
      exact hq.2 (by assumption)
    · cases he

/-- Holding one unnamed junction (R42). -/
theorem holdOrigin_eq (h : TablesOk s) (j : Nat) (hl : JunctionUnnamed j s)
    (hq : (point (2336 + j) s).accepted = .open_ → (point (2336 + j) s).duration < 50) :
    holdOrigin s j = modPoint (2336 + j) (fun e => { e with
        pending := if (point (2336 + j) s).accepted = .open_ then some .farEndClear else none })
      (modJunction j (fun r => { r with sup := .heldUnserved, marked := false }) s) := by
  have hs : (junction j (modJunction j (fun r => { r with sup := .heldUnserved, marked := false }) s)).sup =
      .heldUnserved := by
    rw [junction_modJunction h]
  have ha := armed_heldUnserved (s := modJunction j (fun r => { r with sup := .heldUnserved, marked := false }) s) hs
  unfold holdOrigin
  rw [if_pos (show _ ∧ _ from hl), show junctionPoint j = 2336 + j from rfl, watch_of_young (h.modJunction j _)]
  · unfold rearm
    rw [ha]
    rfl
  · intro ev he
    rw [ha] at he
    split at he
    · cases he
      exact hq (by assumption)
    · cases he

/-- Only lines and scan points change. -/
def LinesOnly (s t : Part) : Prop := t = { s with net.lines := t.net.lines, scan.points := t.scan.points }

theorem LinesOnly.trans {q r s : Part} (h : LinesOnly q r) (g : LinesOnly r s) : LinesOnly q s := by
  have e : s = { ({ q with net.lines := r.net.lines, scan.points := r.scan.points } : Part) with
      net.lines := s.net.lines, scan.points := s.scan.points } := h ▸ g
  exact e

/-- Only junctions and scan points change. -/
def JunctionsOnly (s t : Part) : Prop :=
  t = { s with net.junctions := t.net.junctions, scan.points := t.scan.points }

theorem JunctionsOnly.trans {q r s : Part} (h : JunctionsOnly q r) (g : JunctionsOnly r s) : JunctionsOnly q s := by
  have e : s = { ({ q with net.junctions := r.net.junctions, scan.points := r.scan.points } : Part) with
      net.junctions := s.net.junctions, scan.points := s.scan.points } := h ▸ g
  exact e

/-- The lines of a list have been taken out of the origins (R42). -/
theorem foldl_parkOrigin (l : List Nat) (h : TablesOk s)
    (hq : ∀ lt, LineUnnamed lt s → lt < 2048 ∧ ((point lt s).accepted = .open_ → (point lt s).duration < 25)) :
    let t := l.foldl parkOrigin s
    TablesOk t ∧ LinesOnly s t ∧
      (∀ lt, lt ∈ l → LineUnnamed lt s →
        line lt t = { line lt s with sup := .parked, marked := false } ∧
          point lt t = { point lt s with
            pending := if (point lt s).accepted = .open_ then some .parkEnd else none }) ∧
      (∀ lt, ¬ (lt ∈ l ∧ LineUnnamed lt s) → line lt t = line lt s ∧ point lt t = point lt s) := by
  induction l generalizing s with
  | nil => exact ⟨h, rfl, fun _ hm => (List.not_mem_nil hm).elim, fun _ _ => ⟨rfl, rfl⟩⟩
  | cons a l ih =>
    by_cases ha : LineUnnamed a s
    · have e := parkOrigin_eq h a ha (hq a ha)
      have h1 : TablesOk (parkOrigin s a) := e ▸ (h.modLine a _).modPoint a _
      have hln : ∀ x, x ≠ a → line x (parkOrigin s a) = line x s := fun x hx => by
        rw [e]
        exact (line_congr (s := modLine a (fun l => { l with sup := .parked, marked := false }) s) rfl x).trans (line_modLine_of_ne hx _)
      have hla : line a (parkOrigin s a) = { line a s with sup := .parked, marked := false } := by
        rw [e]
        exact (line_congr (s := modLine a (fun l => { l with sup := .parked, marked := false }) s) rfl a).trans (line_modLine h a _)
      have hpn : ∀ x, x ≠ a → point x (parkOrigin s a) = point x s := fun x hx => by
        rw [e, point_modPoint_of_ne hx]
        rfl
      have hpa : point a (parkOrigin s a) = { point a s with
          pending := if (point a s).accepted = .open_ then some .parkEnd else none } := by
        rw [e, point_modPoint (h.modLine a _)]
        rfl
      have hu : ∀ x, LineUnnamed x (parkOrigin s a) ↔ x ≠ a ∧ LineUnnamed x s := by
        intro x
        have hc : callOf (.line x) (parkOrigin s a) = callOf (.line x) s := callOf_congr (by rw [e]; rfl)
        unfold LineUnnamed
        rw [hc]
        by_cases hx : x = a
        · subst hx
          rw [hla]
          simp
        · rw [hln x hx]
          simp [hx]
      have hq1 : ∀ x, LineUnnamed x (parkOrigin s a) → x < 2048 ∧
          ((point x (parkOrigin s a)).accepted = .open_ → (point x (parkOrigin s a)).duration < 25) := by
        intro x hx
        obtain ⟨h2, h3⟩ := (hu x).mp hx
        rw [hpn x h2]
        exact hq x h3
      obtain ⟨g1, g2, g3, g4⟩ := ih h1 hq1
      refine ⟨g1, ?_, fun x hx hxu => ?_, fun x hx => ?_⟩
      · exact LinesOnly.trans (e ▸ rfl) g2
      · by_cases hxa : x = a
        · subst hxa
          obtain ⟨k1, k2⟩ := g4 x (fun k => ((hu x).mp k.2).1 rfl)
          exact ⟨k1.trans hla, k2.trans hpa⟩
        · obtain ⟨k1, k2⟩ := g3 x ((List.mem_cons.mp hx).resolve_left hxa) ((hu x).mpr ⟨hxa, hxu⟩)
          rw [hln x hxa] at k1
          rw [hpn x hxa] at k2
          exact ⟨k1, k2⟩
      · have hxa : x ≠ a := fun k => hx ⟨k ▸ List.mem_cons_self, k ▸ ha⟩
        obtain ⟨k1, k2⟩ := g4 x (fun k => hx ⟨List.mem_cons_of_mem _ k.1, ((hu x).mp k.2).2⟩)
        exact ⟨k1.trans (hln x hxa), k2.trans (hpn x hxa)⟩
    · have e : parkOrigin s a = s := if_neg ha
      simp only [List.foldl_cons, e]
      obtain ⟨g1, g2, g3, g4⟩ := ih h hq
      refine ⟨g1, g2, fun x hx hxu => ?_, fun x hx => g4 x (fun k => hx ⟨List.mem_cons_of_mem _ k.1, k.2⟩)⟩
      rcases List.mem_cons.mp hx with rfl | hx
      · exact (ha hxu).elim
      · exact g3 x hx hxu

/-- The junctions of a list have been taken out of the origins (R42). -/
theorem foldl_holdOrigin (l : List Nat) (h : TablesOk s)
    (hq : ∀ j, JunctionUnnamed j s →
      (point (2336 + j) s).accepted = .open_ → (point (2336 + j) s).duration < 50) :
    let t := l.foldl holdOrigin s
    TablesOk t ∧ JunctionsOnly s t ∧
      (∀ j, j ∈ l → JunctionUnnamed j s →
        junction j t = { junction j s with sup := .heldUnserved, marked := false } ∧
          point (2336 + j) t = { point (2336 + j) s with
            pending := if (point (2336 + j) s).accepted = .open_ then some .farEndClear else none }) ∧
      (∀ j, ¬ (j ∈ l ∧ JunctionUnnamed j s) → junction j t = junction j s) ∧
      (∀ p, (∀ j, j ∈ l → JunctionUnnamed j s → p ≠ 2336 + j) → point p t = point p s) := by
  induction l generalizing s with
  | nil => exact ⟨h, rfl, fun _ hm => (List.not_mem_nil hm).elim, fun _ _ => rfl, fun _ _ => rfl⟩
  | cons a l ih =>
    by_cases ha : JunctionUnnamed a s
    · have e := holdOrigin_eq h a ha (hq a ha)
      have h1 : TablesOk (holdOrigin s a) := e ▸ (h.modJunction a _).modPoint _ _
      have hln : ∀ x, x ≠ a → junction x (holdOrigin s a) = junction x s := fun x hx => by
        rw [e]
        exact (junction_congr (s := modJunction a (fun r => { r with sup := .heldUnserved, marked := false }) s) rfl x).trans (junction_modJunction_of_ne hx _)
      have hla : junction a (holdOrigin s a) = { junction a s with sup := .heldUnserved, marked := false } := by
        rw [e]
        exact (junction_congr (s := modJunction a (fun r => { r with sup := .heldUnserved, marked := false }) s) rfl a).trans (junction_modJunction h a _)
      have hpn : ∀ x, x ≠ 2336 + a → point x (holdOrigin s a) = point x s := fun x hx => by
        rw [e, point_modPoint_of_ne hx]
        rfl
      have hpa : point (2336 + a) (holdOrigin s a) = { point (2336 + a) s with
          pending := if (point (2336 + a) s).accepted = .open_ then some .farEndClear else none } := by
        rw [e, point_modPoint (h.modJunction a _)]
        rfl
      have hu : ∀ x, JunctionUnnamed x (holdOrigin s a) ↔ x ≠ a ∧ JunctionUnnamed x s := by
        intro x
        have hc : callOf (.junction x) (holdOrigin s a) = callOf (.junction x) s := callOf_congr (by rw [e]; rfl)
        unfold JunctionUnnamed
        rw [hc]
        by_cases hx : x = a
        · subst hx
          rw [hla]
          simp
        · rw [hln x hx]
          simp [hx]
      have hq1 : ∀ x, JunctionUnnamed x (holdOrigin s a) →
          (point (2336 + x) (holdOrigin s a)).accepted = .open_ →
            (point (2336 + x) (holdOrigin s a)).duration < 50 := by
        intro x hx
        obtain ⟨h2, h3⟩ := (hu x).mp hx
        rw [hpn _ (by omega)]
        exact hq x h3
      obtain ⟨g1, g2, g3, g4, g5⟩ := ih h1 hq1
      refine ⟨g1, ?_, fun x hx hxu => ?_, fun x hx => ?_, fun p hp => ?_⟩
      · exact JunctionsOnly.trans (e ▸ rfl) g2
      · by_cases hxa : x = a
        · subst hxa
          refine ⟨(g4 x (fun k => ((hu x).mp k.2).1 rfl)).trans hla, (g5 _ (fun j _ hj k => ?_)).trans hpa⟩
          have := ((hu j).mp hj).1
          omega
        · obtain ⟨k1, k2⟩ := g3 x ((List.mem_cons.mp hx).resolve_left hxa) ((hu x).mpr ⟨hxa, hxu⟩)
          rw [hln x hxa] at k1
          rw [hpn _ (by omega)] at k2
          exact ⟨k1, k2⟩
      · have hxa : x ≠ a := fun k => hx ⟨k ▸ List.mem_cons_self, k ▸ ha⟩
        exact (g4 x (fun k => hx ⟨List.mem_cons_of_mem _ k.1, ((hu x).mp k.2).2⟩)).trans (hln x hxa)
      · exact (g5 p (fun j hj hju => hp j (List.mem_cons_of_mem _ hj) ((hu j).mp hju).2)).trans
          (hpn p (hp a List.mem_cons_self ha))
    · have e : holdOrigin s a = s := if_neg ha
      simp only [List.foldl_cons, e]
      obtain ⟨g1, g2, g3, g4, g5⟩ := ih h hq
      refine ⟨g1, g2, fun x hx hxu => ?_, fun x hx => g4 x (fun k => hx ⟨List.mem_cons_of_mem _ k.1, k.2⟩),
        fun p hp => g5 p (fun j hj => hp j (List.mem_cons_of_mem _ hj))⟩
      rcases List.mem_cons.mp hx with rfl | hx
      · exact (ha hxu).elim
      · exact g3 x hx hxu

theorem mem_lines_of_unnamed {lt : Nat} (h : LineUnnamed lt s) : lt ∈ s.net.lines.map Prod.fst := by
  have hd : Table.get ({} : Line) s.net.lines lt ≠ {} := fun k => by
    have := h.1
    unfold line at this
    rw [k] at this
    cases this
  exact List.mem_map.mpr ⟨_, Table.mem_of_get hd, rfl⟩

theorem mem_junctions_of_unnamed {j : Nat} (h : JunctionUnnamed j s) : j ∈ s.net.junctions.map Prod.fst := by
  have hd : Table.get ({} : Junction) s.net.junctions j ≠ {} := fun k => by
    have := h.1
    unfold junction at this
    rw [k] at this
    cases this
  exact List.mem_map.mpr ⟨_, Table.mem_of_get hd, rfl⟩

/-- The wait queue and the marks are emptied (R42). -/
theorem originsEmptied_emptyOrigins (h : TablesOk s) (hq : OriginsQuiet s) : OriginsEmptied s (emptyOrigins s) := by
  have h0 : TablesOk { s with orig.queue := [] } := { h with }
  obtain ⟨a1, a2, a3, a4⟩ := foldl_parkOrigin (s := { s with orig.queue := [] }) (s.net.lines.map Prod.fst) h0 hq.1
  have hn : ((s.net.lines.map Prod.fst).foldl parkOrigin { s with orig.queue := [] }).net.junctions =
      s.net.junctions := by rw [a2]
  have hj : ∀ j, JunctionUnnamed j ((s.net.lines.map Prod.fst).foldl parkOrigin { s with orig.queue := [] }) ↔
      JunctionUnnamed j s := by
    intro j
    unfold JunctionUnnamed
    have k1 : ((s.net.lines.map Prod.fst).foldl parkOrigin { s with orig.queue := [] }).calls = s.calls := by rw [a2]
    rw [callOf_congr k1, junction_congr hn]
  have hp : ∀ j, point (2336 + j) ((s.net.lines.map Prod.fst).foldl parkOrigin { s with orig.queue := [] }) =
      point (2336 + j) s := by
    intro j
    refine (a4 _ (fun k => ?_)).2
    have := (hq.1 _ k.2).1
    omega
  obtain ⟨b1, b2, b3, b4, b5⟩ := foldl_holdOrigin (s.net.junctions.map Prod.fst) a1 (fun j hu => by
    rw [hp]
    exact (hq.2 j ((hj j).mp hu)).2)
  have e : emptyOrigins s = retry ((s.net.junctions.map Prod.fst).foldl holdOrigin
      ((s.net.lines.map Prod.fst).foldl parkOrigin { s with orig.queue := [] })) := by
    unfold emptyOrigins
    dsimp only
    rw [hn]
  rw [e]
  generalize (s.net.lines.map Prod.fst).foldl parkOrigin { s with orig.queue := [] } = u at *
  generalize (s.net.junctions.map Prod.fst).foldl holdOrigin u = v at *
  have hl : ∀ lt, line lt (retry v) = line lt u := fun lt => line_congr (by
    show v.net.lines = _
    rw [b2]) lt
  refine ⟨?_, fun lt hu => ?_, fun lt hu => ?_, fun j hu => ?_, fun j hu => ?_, fun p h1 h2 => ?_⟩
  · unfold retry
    rw [b2, a2]
  · obtain ⟨k1, k2⟩ := a3 lt (mem_lines_of_unnamed hu) hu
    refine ⟨(hl lt).trans k1, (b5 lt (fun j _ _ k => ?_)).trans k2⟩
    have := (hq.1 lt hu).1
    omega
  · exact (hl lt).trans (a4 lt (fun k => hu k.2)).1
  · obtain ⟨k1, k2⟩ := b3 j (mem_junctions_of_unnamed hu) ((hj j).mpr hu)
    rw [junction_congr hn] at k1
    rw [hp] at k2
    exact ⟨k1, k2⟩
  · exact (b4 j (fun k => hu ((hj j).mp k.2))).trans (junction_congr hn j)
  · exact (b5 p (fun j _ hju => h2 j ((hj j).mp hju))).trans (a4 p (fun k => h1 k.2)).2

end Sys2Proof.Machine
end

