-- ==== Sys2Proof/Tests/Slice0.lean ====
section
/-!
SUPPORT. The model's own tests: ill-formed commands refused, request frames written out from section 10.2,
single commands whose result the manual gives, and for each statement with hypotheses a state that meets
them.
-/

namespace Sys2Proof.Tests

open Sys2Proof.Machine

/-! ## Ill-formed commands, one for each check -/

theorem test_wf_batterySample : (Instr.batterySample 65536).wf = false := by decide
theorem test_wf_scan : (Instr.scan 0 [2384]).wf = false := by decide
theorem test_wf_digitEnd : (Instr.digitEnd 96).wf = false := by decide
theorem test_wf_callerClear : (Instr.callerClear 2144).wf = false := by decide
theorem test_wf_calledClear : (Instr.calledClear 96).wf = false := by decide
theorem test_wf_farEndClear : (Instr.farEndClear 48).wf = false := by decide
theorem test_wf_parkEnd : (Instr.parkEnd 2048).wf = false := by decide
theorem test_wf_tick : (Instr.tick [128]).wf = false := by decide
theorem test_wf_dialTimeout : (Instr.dialTimeout 128).wf = false := by decide
theorem test_wf_noAnswer : (Instr.noAnswer 128).wf = false := by decide
theorem test_wf_holdExpiry : (Instr.holdExpiry 128).wf = false := by decide
theorem test_wf_graceExpiry : (Instr.graceExpiry 128).wf = false := by decide
theorem test_wf_waitLimit_line : (Instr.waitLimitExpiry (.line 2048)).wf = false := by decide
theorem test_wf_waitLimit_junction : (Instr.waitLimitExpiry (.junction 48)).wf = false := by decide
theorem test_wf_stationPulse : (Instr.stationPulse ⟨0, [128]⟩).wf = false := by decide
theorem test_wf_stationGap : (Instr.stationGap ⟨0, [128]⟩).wf = false := by decide
theorem test_wf_crystalReady : (Instr.crystalReady ⟨0, [128]⟩).wf = false := by decide
theorem test_wf_crystalFailure : (Instr.crystalFailure ⟨0, [128]⟩).wf = false := by decide
theorem test_wf_confirmation : (Instr.driveConfirmation (.frame 32) 0 true).wf = false := by decide
theorem test_wf_timeout : (Instr.driveTimeout (.plane 12) 0).wf = false := by decide
theorem test_wf_malformed : (Instr.malformedFrame (.ctl .a) [7, 5]).wf = false := by decide
theorem test_wf_writeTable : (Instr.writeTable 0 1 0 2 [1, 6, 2] ⟨0, []⟩).wf = false := by decide
theorem test_wf_writeTable_moment : (Instr.writeTable 0 1 0 1 [1, 6] ⟨0, [128]⟩).wf = false := by decide
theorem test_wf_selectSource : (Instr.selectSource 0 0 ⟨0, [128]⟩).wf = false := by decide

/-! ## Request frames, written out byte by byte from section 10.2 and R176 -/

/-- EXTEND, code 1: tag, code, call id, destination kind, destination (2), band, permission. -/
theorem test_frame_extend :
    decodeRequest ⟨0, []⟩ (.ctl .a) [9, 1, 127, 0, 0x07, 0xFF, 15, 1] =
      some (.extend .a 9 127 0 2047 15 1) := by decide

/-- READ LINE, code 4, of line 1,025. -/
theorem test_frame_readLine :
    decodeRequest ⟨0, []⟩ (.ctl .b) [0, 4, 0x04, 0x01] = some (.readLine .b 0 1025) := by decide

/-- SET TIME, code 14: day, minute (2), second, tenth. -/
theorem test_frame_setTime :
    decodeRequest ⟨0, []⟩ .maint [2, 14, 6, 0x05, 0x9F, 59, 9] = some (.setTime 2 6 1439 59 9) := by
  decide

/-- WRITE TABLE, code 1, of two records of the FRAME table, two bytes each. -/
theorem test_frame_writeTable :
    decodeRequest ⟨0, []⟩ .maint [3, 1, 1, 0, 7, 2, 1, 6, 2, 6] =
      some (.writeTable 3 1 7 2 [1, 6, 2, 6] ⟨0, []⟩) := by decide

/-- READ STATUS, the last code of the maintenance port, 22. -/
theorem test_frame_readStatus :
    decodeRequest ⟨0, []⟩ .maint [255, 22] = some (.readStatus 255) := by decide

/-- READ STATUS is no code of a controller port, 23 is no code, and one byte is a tag without a code. -/
theorem test_frame_refused :
    decodeRequest ⟨0, []⟩ (.ctl .a) [4, 22] = none ∧ decodeRequest ⟨0, []⟩ .maint [4, 23] = none ∧
      decodeRequest ⟨0, []⟩ .maint [4] = none ∧ decodeRequest ⟨0, []⟩ (.ctl .a) [4, 5, 0] = none := by
  decide

/-! ## Single commands whose result the manual gives -/

/-- A part without a command waiting. -/
def on (p : Part) : State := { pending := [], part := p }

/-- The part after a command; as before where it does not complete. -/
def after (i : Instr) (s : State) : Part :=
  match exec i s with
  | .next t => t.part
  | _ => s.part

/-- A part IN SERVICE with controller A PRESENT. -/
def inService : Part := { supply := { inService := true }, a := { present := true } }

/-- R186: 41.9 V in NORMAL is RIDE-THROUGH at once, and the count is 1. -/
theorem test_battery_below_hold :
    (after (.batterySample 419) State.reset).supply.battery = .rideThrough ∧
      (after (.batterySample 419) State.reset).supply.ride = 1 := by decide

/-- R186: LOW returns to NORMAL at 46.1 V, not at 46.0 V. -/
theorem test_battery_normal_again :
    (after (.batterySample 460) (on { supply := { battery := .low } })).supply.battery = .low ∧
      (after (.batterySample 461) (on { supply := { battery := .low } })).supply.battery = .normal := by
  decide

/-- R161: the last tenth of the week is followed by its first, and a midnight tick ends a force (R166). -/
theorem test_tick_week_wraps :
    let s := on { tb := { day := 6, minute := 1439, second := 59, tenth := 9 }, cal := { force := some .night } }
    let t := after (.tick []) s
    (t.tb.day, t.tb.minute, t.tb.second, t.tb.tenth) = (0, 0, 0, 0) ∧ t.cal.force = none := by decide

/-- R162: SET TIME clamps a second of 60 to 59, and replies DONE CLAMPED. -/
theorem test_setTime_clamps :
    (after (.setTime 5 0 0 60 0) State.reset).tb.second = 59 ∧
      (after (.setTime 5 0 0 60 0) State.reset).m.io.sending =
        some (.reply { tag := 5, code := .doneClamped }) := by decide

/-- R157: a crystal in STARTING is NOT READY. -/
theorem test_selectSource_notReady :
    (after (.selectSource 3 1 ⟨0, []⟩) State.reset).m.io.sending =
      some (.reply { tag := 3, code := .notReady }) := by decide

/-- R156, R158: the 10th pulse makes the station VALID, and the selection where it is preferred. -/
theorem test_station_valid :
    let s := on { tb := { station := .qualifying, count := 9, preferred := .station } }
    (after (.stationPulse ⟨0, []⟩) s).tb.station = .valid ∧
      (after (.stationPulse ⟨0, []⟩) s).tb.selection = .station := by decide

/-- An ANSWERED call of line 5. -/
def chargedCall : Call :=
  { state := .answered, owner := some .a, origin := some (.line 5), originHeld := true
    charged := some 5, band := some 0, accum := 1000000, incr := 104858, charging := true
    answered := true }

/-- A part with one charging call. -/
def charging : Part :=
  { calls := [(3, chargedCall)], meters := { entries := [(5, { count := 9999999 })] } }

/-- R137: a meter of 9,999,999 goes to 0 with its rollover flag set, at a unit of a call. -/
theorem test_meter_rolls_over :
    meter 5 (after (.tick []) (on charging)) = { count := 0, rollover := true } ∧
      (call 3 (after (.tick []) (on charging))).accum = 56282 := by decide

/-- R140: in NORMAL a changed entry joins the dirty list. -/
theorem test_changed_meter_is_listed : (after (.tick []) (on charging)).meters.dirty = [5] := by decide

/-- R145: a trickle slot writes the head of the dirty list. -/
theorem test_trickle_slot :
    (after .trickleSlot (on { meters := { dirty := [7, 8], entries := [(7, { count := 41 })] } })).meters.engine =
      .meter 7 { count := 41, rollover := false } false := by decide

/-- R7: an occupied cord is BUSY OUT PENDING, a FREE one BUSY OUT. -/
theorem test_busyOut_cord :
    elem (.cord 95) (after (.busyOut 1 2 95) (on { net := { cords := [(95, { occ := .held })] } })) =
        { occ := .held, admin := .busyOutPending } ∧
      elem (.cord 95) (after (.busyOut 1 2 95) State.reset) = { occ := .free, admin := .busyOut } := by decide

/-- R101, R172: RELEASE CALL of a FREE record is BAD STATE, and of call id 128 NO SUCH. -/
theorem test_releaseCall_refused :
    (after (.releaseCall 1 127) State.reset).m.io.sending = some (.reply { tag := 1, code := .badState }) ∧
      (after (.releaseCall 1 128) State.reset).m.io.sending = some (.reply { tag := 1, code := .noSuch }) := by
  decide

/-- R170, R182: a PRESENCE in LOADING is NOT READY, and gives no sign of life. -/
theorem test_presence_loading :
    (after (.presence .b 6) State.reset).b.io.sending =
        some (.reply { tag := 6, code := .notReady, immediate := true }) ∧
      (after (.presence .b 6) State.reset).b.present = false := by decide

/-- R176: the home none is not accepted on writing. -/
theorem test_writeFrame_home_none :
    (after (.writeTable 1 1 0 1 [0, 6] ⟨0, []⟩) State.reset).m.io.sending =
      some (.reply { tag := 1, code := .format }) := by decide

/-- R110 and the worked examples of chapter 6: the increments of 1,800, 3,600, 10 and 6,000 tenths. -/
theorem test_increment :
    increment 1800 = 583 ∧ increment 3600 = 292 ∧ increment 10 = 104858 ∧ increment 6000 = 175 ∧
      increment 0 = 0 := by decide

/-! ## Witnesses: for each statement with hypotheses, states that meet them, clause by clause -/

/-- The canonical form of every table, as one test. -/
def tablesCheck (s : Part) : Bool :=
  Table.wf {} s.net.lines && Table.wf {} s.net.frames && Table.wf {} s.net.routes &&
    Table.wf {} s.net.junctions && Table.wf {} s.net.fls && Table.wf {} s.net.cords &&
    Table.wf {} s.scan.points && Table.wf {} s.calls && Table.wf {} s.charge.tariff &&
    Table.wf {} s.cal.entries && Table.wf {} s.meters.entries && Table.wf {} s.meters.records &&
    decide (s.meters.snapshot = none ∧ s.meters.image = {})

theorem tablesOk_of_check {s : Part} (h : tablesCheck s = true) : TablesOk s := by
  simp only [tablesCheck, Bool.and_eq_true, decide_eq_true_eq] at h
  obtain ⟨⟨⟨⟨⟨⟨⟨⟨⟨⟨⟨⟨h1, h2⟩, h3⟩, h4⟩, h5⟩, h6⟩, h7⟩, h8⟩, h9⟩, h10⟩, h11⟩, h12⟩, h13, h14⟩ := h
  refine ⟨h1, h2, h3, h4, h5, h6, h7, h8, h9, h10, h11, h12, fun t ht => ?_, ?_, ?_, ?_, ?_, ?_, ?_, ?_, ?_⟩
  · rw [h13] at ht
    cases ht
  all_goals
    rw [h14]
    rfl

theorem witness_StepTakesTheFront : State.reset.pending = [] := rfl

/-- A tick at the end of the week, waiting in the queue. -/
def endOfWeek : State :=
  { pending := [.tick []], part := { tb := { day := 6, minute := 1439, second := 59, tenth := 9 } } }

theorem witness_TimeBaseLawKept :
    TimeBaseOk endOfWeek.part ∧ ∃ t, step endOfWeek = .next t ∧ t.part.tb ≠ endOfWeek.part.tb :=
  ⟨by refine ⟨?_, ?_, ?_, ?_, ?_, ?_, ?_, ?_⟩ <;> decide, _, rfl, by decide⟩

/-- A unit that takes a meter over its top, waiting in the queue. -/
def rollingOver : State := { pending := [.tick []], part := charging }

theorem witness_MeterRangeKept :
    MetersOk rollingOver.part ∧
      ∃ t, step rollingOver = .next t ∧ t.part.meters.entries ≠ rollingOver.part.meters.entries :=
  ⟨⟨by decide, by decide, fun _ _ _ h => by cases h⟩, _, rfl, by decide⟩

theorem witness_TablesKeptCanonical :
    TablesOk rollingOver.part ∧ ∃ t, step rollingOver = .next t ∧ t.part ≠ rollingOver.part :=
  ⟨tablesOk_of_check (by decide), _, rfl, by decide⟩

theorem witness_RequestFramesRoundTrip :
    requestFrame (.writeTable 3 1 7 1 [1, 6] ⟨42, []⟩) = some (.maint, [3, 1, 1, 0, 7, 1, 1, 6]) ∧
      (Instr.writeTable 3 1 7 1 [1, 6] ⟨42, []⟩).wf = true ∧
      requestMoment (.writeTable 3 1 7 1 [1, 6] ⟨42, []⟩) = some ⟨42, []⟩ := by decide

/-- A part LOADING whose tables pass the checks of START SERVICE. -/
def loaded : Part :=
  { net :=
      { frames := (List.range 32).map (fun f => (f, { home := some .a }))
        routes := (List.range 8).map (fun r => (r, { home := some .b }))
        junctions := (List.range 48).map (fun j => (j, { route := some (j % 8) })) } }

theorem witness_StartService :
    MaintTakes loaded ∧ loaded.supply.inService = false ∧ (∀ f, f < 32 → (frame f loaded).home ≠ none) ∧
      (∀ r, r < 8 → (route r loaded).home ≠ none) ∧ (∀ j, j < 48 → (junction j loaded).route ≠ none) ∧
      ∀ r, r < 8 → ∃ j, j < 48 ∧ (junction j loaded).route = some r := by
  refine ⟨⟨rfl, rfl⟩, rfl, by decide, by decide, by decide, fun r h => ⟨r, by omega, ?_⟩⟩
  revert r; decide

theorem witness_StartService_refused :
    MaintTakes inService ∧ inService.supply.inService = true ∧ MaintTakes State.reset.part ∧
      (frame 0 State.reset.part).home = none := ⟨⟨rfl, rfl⟩, rfl, ⟨rfl, rfl⟩, rfl⟩

/-- A part IN SERVICE with a meter write in progress. -/
def writing : Part :=
  { inService with meters := { engine := .meter 2047 { count := 12 } false } }

/-- A part IN SERVICE with a configuration save at its first write. -/
def saving : Part :=
  { inService with
    meters := { engine := .config (.marker false) false, save := some { configLast := true } } }

theorem witness_SaveConfiguration :
    MaintTakes inService ∧ inService.meters.save = none ∧ inService.meters.engine = .idle ∧
      MaintTakes writing ∧ writing.meters.save = none ∧ writing.meters.engine ≠ .idle ∧
      MaintTakes saving ∧ saving.meters.save.isSome ∧ MaintTakes State.reset.part ∧
      State.reset.part.supply.inService = false := by and_intros <;> decide
theorem reset_tables : TablesOk State.reset.part := tablesOk_of_check rfl

/-- The last frame link, cord and junction, and the first numbers beyond them. -/
theorem witness_BusyOutOfElements :
    MaintTakes State.reset.part ∧ TablesOk State.reset.part ∧ (383 : Word16).toNat ≤ 383 ∧
      (95 : Word16).toNat ≤ 95 ∧ (47 : Word16).toNat ≤ 47 ∧ 383 < (384 : Word16).toNat ∧
      95 < (96 : Word16).toNat ∧ 47 < (48 : Word16).toNat := by
  and_intros <;> first | decide | exact tablesOk_of_check (by decide)

/-- A FAULTY cord, and a FAULTY frame link that an order still names. -/
def faulty : Part :=
  { net := { fls := [(383, { occ := .faulty })], cords := [(95, { occ := .faulty })] }
    orders := [{ id := 0, call := 0, act := .release (.line 2047 383) }] }

theorem witness_ReturnOfElements :
    MaintTakes faulty ∧ TablesOk faulty ∧
      ((elem (.fl 383) faulty).occ = .faulty ∧ ordered (.fl 383) faulty = true) ∧
      ¬ ((elem (.cord 95) faulty).occ = .faulty ∧ ordered (.cord 95) faulty = true) ∧
      ¬ ((elem (.junction 47) faulty).occ = .faulty ∧ ordered (.junction 47) faulty = true) ∧
      383 < (384 : Word16).toNat ∧ 95 < (96 : Word16).toNat ∧ 47 < (48 : Word16).toNat := by
  and_intros <;> first | decide | exact tablesOk_of_check (by decide)

/-- A dialling call of line 0 by frame link 0 and cord 0, with both crosspoints operated. -/
def diallingCall : Call :=
  { state := .dialling, owner := some .a, origin := some (.line 0), originHeld := true, charged := some 0
    set := { fl := some 0, cord := some 0 }, digits := [4]
    timer := some { kind := .interdigit, limit := 150, count := 150 }
    xps := [(.line 0 0, .operated), (.plane 0 0 .o, .operated)] }

/-- A part IN SERVICE with that call, and the points of its cord. -/
def dialling : Part :=
  { inService with
    net :=
      { lines := [(0, { cls := .ordinary, sup := .inCall 3 })]
        fls := [(0, { occ := .held })], cords := [(0, { occ := .held })] }
    calls := [(3, diallingCall)]
    scan := { points := [(2048, { accepted := .loop, duration := 25, pulses := 10, pending := some .digitEnd })] } }

theorem dialling_tables : TablesOk dialling := tablesOk_of_check (by decide)

theorem witness_BusyOutOfLines :
    MaintTakes dialling ∧ TablesOk dialling ∧ (0 : Word16).toNat < 2048 ∧ (2047 : Word16).toNat < 2048 ∧
      (line 0 dialling).admin ≠ .busyOut ∧ callOf (.line 0) dialling ≠ none ∧
      (line 2047 dialling).admin ≠ .busyOut ∧ callOf (.line 2047) dialling = none ∧
      MaintTakes { net.lines := [(1, { admin := .busyOut })] } ∧
      TablesOk { net.lines := [(1, { admin := .busyOut })] } ∧
      (line 1 { net.lines := [(1, { admin := .busyOut })] }).admin = .busyOut ∧
      2048 ≤ (2048 : Word16).toNat := by
  and_intros <;> first | decide | exact tablesOk_of_check (by decide)

/-- A part with a call already released and one CLOSED. -/
def releasedCalls : Part :=
  { inService with
    calls :=
      [(0, { state := .releasing, owner := some .a, reason := some .noAnswer }),
        (127, { state := .closed, owner := some .a })] }

theorem witness_ReleaseCall :
    MaintTakes dialling ∧ TablesOk dialling ∧ 128 ≤ (128 : Byte).toNat ∧ (127 : Byte).toNat < 128 ∧
      (call 127 dialling).state = .free ∧ (call 3 dialling).state ≠ .free ∧
      (call 3 dialling).state ≠ .closed ∧ (call 3 dialling).released = false ∧ Unawaited 3 dialling ∧
      MaintTakes releasedCalls ∧ TablesOk releasedCalls ∧ (call 127 releasedCalls).state = .closed ∧
      (call 0 releasedCalls).state ≠ .free ∧ (call 0 releasedCalls).state ≠ .closed ∧
      (call 0 releasedCalls).released = true := by
  and_intros <;> first
    | decide
    | exact tablesOk_of_check (by decide)
    | (intro c; cases c <;> decide)
theorem witness_ReadMeters :
    MaintTakes State.reset.part ∧ (0 : Byte).toNat = 0 ∧ 64 < (65 : Byte).toNat ∧
      (0 < (64 : Byte).toNat ∧ (64 : Byte).toNat ≤ 64 ∧ 2048 < (1985 : Word16).toNat + (64 : Byte).toNat) ∧
      (1984 : Word16).toNat + (64 : Byte).toNat ≤ 2048 ∧
      0 < (1 : Byte).toNat ∧ (2047 : Word16).toNat + (1 : Byte).toNat ≤ 2048 := by and_intros <;> decide

/-- A part that holds a snapshot. -/
def held : Part :=
  { inService with
    meters.snapshot :=
      some { stamp := { day := 1, minute := 2, second := 3, tenth := 4, valid := true }
             items := [(2047, { count := 7 })] } }

theorem witness_Snapshots :
    MaintTakes held ∧ held.meters.snapshot ≠ none ∧ MaintTakes rollingOver.part ∧
      rollingOver.part.meters.snapshot = none ∧ TablesOk rollingOver.part ∧
      2048 < (2047 : Word16).toNat + (2 : Byte).toNat ∧ (2047 : Word16).toNat + (1 : Byte).toNat ≤ 2048 ∧
      ∃ t, exec (.dropSnapshot 0) (on held) = .next t := by
  and_intros <;> first
    | decide
    | exact tablesOk_of_check (by decide)
    | exact ⟨_, rfl⟩

/-- A part with meters whose flags are set. -/
def flagged : Part :=
  { meters :=
      { entries := [(0, { count := 3, rollover := true }), (5, { count := 4, rollover := true, nvFault := true }),
          (2047, { count := 9, nvFault := true })]
        dirty := [0] } }

theorem witness_ClearMeterFlags :
    MaintTakes flagged ∧ TablesOk flagged ∧ 2048 ≤ (2048 : Word16).toNat ∧ (2047 : Word16).toNat < 2048 ∧
      (meter 2047 flagged).rollover = false ∧ (meter 0 flagged).nvFault = false ∧
      flagged.supply.battery = .normal ∧ flagged.meters.save = none ∧ (meter 0 flagged).rollover = true ∧
      (meter 5 flagged).rollover = true ∧ (meter 5 flagged).nvFault = true ∧
      (meter 2047 flagged).nvFault = true := by
  and_intros <;> first | decide | exact tablesOk_of_check (by decide)
theorem witness_SetAndReadTime : MaintTakes State.reset.part ∧ TablesOk State.reset.part :=
  ⟨⟨rfl, rfl⟩, reset_tables⟩

/-- A part whose crystal is READY. -/
def crystal : Part := { tb := { crystal := .ready, station := .valid, selection := .internal } }

theorem quiet_reset : QuietForTick State.reset.part :=
  ⟨rfl, rfl, fun _ h => (List.not_mem_nil h).elim, fun c h => by (cases c <;> cases h)⟩

theorem witness_SelectSource :
    MaintTakes State.reset.part ∧ 3 ≤ (3 : Byte).toNat ∧ Source.crystal.code = (1 : Byte).toNat ∧
      usable .crystal State.reset.part = false ∧ Source.internal.code = (2 : Byte).toNat ∧
      usable .internal State.reset.part = true ∧ Source.internal = State.reset.part.tb.selection ∧
      MaintTakes crystal ∧ usable .crystal crystal = true ∧ Source.crystal ≠ crystal.tb.selection ∧
      usable .station crystal = true ∧ Source.station ≠ crystal.tb.selection ∧ QuietForTick crystal ∧
      crystal.tb.day ≤ 6 ∧ crystal.tb.minute ≤ 1439 ∧ crystal.tb.second ≤ 59 ∧ crystal.tb.tenth ≤ 9 := by
  and_intros <;> first
    | decide
    | exact tablesOk_of_check (by decide)
    | (intro c; cases c <;> decide)
theorem witness_StartAndStopCrystal :
    MaintTakes crystal ∧ crystal.tb.selection ≠ .crystal ∧ MaintTakes { crystal with tb.selection := .crystal } ∧
      ({ crystal with tb.selection := .crystal } : Part).tb.selection = .crystal :=
  ⟨⟨rfl, rfl⟩, by decide, ⟨rfl, rfl⟩, rfl⟩

theorem witness_Evaluations :
    MaintTakes State.reset.part ∧ TablesOk State.reset.part ∧ 4 ≤ (4 : Byte).toNat ∧
      Period.holiday.code = (3 : Byte).toNat ∧ State.reset.part.cal.due = false ∧
      TablesOk { cal := { due := true } } ∧ ({ cal := { due := true } } : Part).cal.due = true := by
  and_intros <;> first | decide | exact tablesOk_of_check (by decide)

/-- A part with a calendar of two entries at one instant, and a VALID time. -/
def scheduled : Part :=
  { tb := { day := 3, minute := 360, valid := true }
    cal := { entries := [(0, { mask := 8, minute := 360 }), (15, { mask := 8, minute := 360, profile := .heavy })] } }

theorem witness_EntryInForceIsTheNearest :
    State.reset.part.tb.valid = false ∧
      (∀ i, i < 16 → ∀ d, d < 7 → (Table.get ({} : CalEntry) ([] : Table CalEntry) i).mask.getLsbD d = false) ∧
      scheduled.tb.valid = true ∧
      (Table.get ({} : CalEntry) scheduled.cal.entries 15).mask.getLsbD 3 = true ∧
      entryInForce scheduled = some 15 := by
  refine ⟨rfl, ?_, rfl, by decide, by decide⟩
  intro i _ d _
  simp [Table.get]

/-- A part IN SERVICE with a marked line, a queued line, one whose call is being set up, and a queued junction. -/
def restarting : Part :=
  { supply := { inService := true }
    net :=
      { lines :=
          [(0, { cls := .ordinary, sup := .originating, marked := true }),
            (1, { cls := .ordinary, sup := .originating }), (2047, { cls := .ordinary, sup := .originating })]
        junctions := [(47, { dir := .incoming, sup := .originating })] }
    orig := { queue := [{ origin := .line 2047, limit := 300 }, { origin := .junction 47, limit := 300 }] }
    scan := { points := [(0, { duration := 24 }), (2047, { accepted := .loop, duration := 90 }),
      (2383, { duration := 49 })] }
    calls := [(127, { state := .settingOrigin, owner := none, origin := some (.line 1), originHeld := true
                      claim := 2, op := .origin false })]
    orders := [{ id := 0, call := 127, act := .operate (.line 1 0) }] }

/-- The same without a call, and with controller B PRESENT. -/
def restartingB : Part :=
  { restarting with
    net.lines := [(0, { cls := .ordinary, sup := .originating, marked := true })]
    calls := [], orders := [], b := { present := true, window := 19 } }

/-- A part whose lines and junctions, at most the two ends of their numbers, stand in a table is quiet where each
that is without a call is. -/
theorem originsQuiet_of {s : Part} (hl : ∀ x ∈ s.net.lines, x.1 < 2048)
    (hj : ∀ x ∈ s.net.junctions, x.1 < 48)
    (h : ∀ x ∈ s.net.lines, (point x.1 s).accepted = .open_ → (point x.1 s).duration < 25)
    (g : ∀ x ∈ s.net.junctions, (point (2336 + x.1) s).accepted = .open_ → (point (2336 + x.1) s).duration < 50) :
    OriginsQuiet s := by
  have mem : ∀ {α : Type} (d : α) (t : Table α) (k : Nat), Table.get d t k ≠ d → ∃ x ∈ t, x.1 = k := by
    intro α d t k
    induction t with
    | nil => intro hk; exact absurd rfl hk
    | cons y t ih =>
      intro hk
      by_cases hy : y.1 = k
      · exact ⟨y, List.mem_cons_self, hy⟩
      · rw [Table.get, if_neg hy] at hk
        obtain ⟨x, hx, rfl⟩ := ih hk
        exact ⟨x, List.mem_cons_of_mem _ hx, rfl⟩
  refine ⟨fun lt hu => ?_, fun j hu => ?_⟩
  · obtain ⟨x, hx, rfl⟩ := mem _ _ lt (fun he => by
      have := hu.1
      rw [line, he] at this
      cases this)
    exact ⟨hl x hx, h x hx⟩
  · obtain ⟨x, hx, rfl⟩ := mem _ _ j (fun he => by
      have := hu.1
      rw [junction, he] at this
      cases this)
    exact ⟨hj x hx, g x hx⟩

theorem witness_Restart :
    MaintTakes State.reset.part ∧ State.reset.part.supply.inService = false ∧ MaintTakes restarting ∧
      restarting.supply.inService = true ∧ TablesOk restarting ∧ OriginsQuiet restarting ∧
      callsWith Call.active restarting = [127] ∧ restarting.a.present = false ∧ restarting.b.present = false ∧
      ordersOf 127 restarting ≠ [] ∧ LineUnnamed 2047 restarting ∧ JunctionUnnamed 47 restarting ∧
      ¬ LineUnnamed 1 restarting := by
  and_intros <;> first
    | decide
    | exact tablesOk_of_check (by decide)
    | exact (originsQuiet_of (by decide) (by decide) (by decide) (by decide)).1
    | exact (originsQuiet_of (by decide) (by decide) (by decide) (by decide)).2
    | exact fun h => absurd h.2 (by decide)

theorem witness_Restart_active (id : Nat) (h : (call id restarting).active = true) :
    (call id restarting).released = false ∧ ordersOf id restarting ≠ [] ∧ Unawaited id restarting := by
  by_cases hi : id = 127
  · subst hi
    exact ⟨by decide, by decide, fun c _ h => (by cases c <;> cases h), rfl⟩
  · have : call id restarting = {} := by
      simp [call, restarting, Table.get, Ne.symm hi]
    rw [this] at h
    cases h

theorem witness_Restart_present :
    MaintTakes restartingB ∧ restartingB.supply.inService = true ∧ TablesOk restartingB ∧
      OriginsQuiet restartingB ∧ restartingB.calls = [] ∧ (ctl .b restartingB).present = true ∧
      (ctl .a restartingB).present = false ∧ (ctl .b restartingB).io.queue = [] ∧ MaintRoom restartingB := by
  and_intros <;> first
    | decide
    | exact tablesOk_of_check (by decide)
    | exact (originsQuiet_of (by decide) (by decide) (by decide) (by decide)).1
    | exact (originsQuiet_of (by decide) (by decide) (by decide) (by decide)).2

/-- The same with a call that has no order in the table. -/
def restartingIdle : Part :=
  { restarting with
    calls := [(127, { state := .answered, origin := some (.line 1), originHeld := true, charging := true })]
    orders := [] }

theorem witness_Restart_idle :
    MaintTakes restartingIdle ∧ restartingIdle.supply.inService = true ∧ TablesOk restartingIdle ∧
      OriginsQuiet restartingIdle ∧ callsWith Call.active restartingIdle = [127] ∧
      restartingIdle.a.present = false ∧ restartingIdle.b.present = false ∧ Releasable 127 restartingIdle ∧
      ordersOf 127 restartingIdle = [] ∧ (call 127 restartingIdle).reswitch = false := by
  and_intros <;> first
    | decide
    | exact tablesOk_of_check (by decide)
    | exact (originsQuiet_of (by decide) (by decide) (by decide) (by decide)).1
    | exact (originsQuiet_of (by decide) (by decide) (by decide) (by decide)).2
    | (intro c; cases c <;> decide)

theorem witness_Restart_both :
    let s : Part := { restartingB with a := { present := true, peer := some true } }
    MaintTakes s ∧ s.supply.inService = true ∧ TablesOk s ∧ OriginsQuiet s ∧ s.calls = [] ∧
      s.a.present = true ∧ s.b.present = true ∧ s.a.io.queue = [] ∧ s.b.io.queue = [] ∧
      (s.b.io.sending = none → s.b.io.replies = []) ∧ s.m.held = [] ∧ s.m.io.queue.length < 31 := by
  and_intros <;> first
    | decide
    | exact tablesOk_of_check (by decide)
    | exact (originsQuiet_of (by decide) (by decide) (by decide) (by decide)).1
    | exact (originsQuiet_of (by decide) (by decide) (by decide) (by decide)).2

theorem witness_ReadStatus : MaintTakes State.reset.part := ⟨rfl, rfl⟩

theorem witness_RefusedWriteWritesNothing :
    MaintTakes State.reset.part ∧ recordsFit 1 0 [] = true ∧ (0 : Byte).toNat = 0 ∧
      recordsFit 9 65 (List.replicate 65 0) = true ∧ 64 < (65 : Byte).toNat ∧ recordsFit 10 1 [] = true ∧
      9 < (10 : Byte).toNat ∧ recordsFit 1 1 [1, 6] = true ∧ tableLength 1 < (32 : Word16).toNat + (1 : Byte).toNat ∧
      (31 : Word16).toNat + (1 : Byte).toNat ≤ tableLength 1 ∧ recordsFit 1 1 [0, 6] = true ∧
      recordsFit 9 1 [3] = true ∧ recordsFit 3 1 [7, 2, 1, 3, 0, 0, 0] = true ∧ MaintTakes inService ∧ recordsFit 4 1 [1, 0] = true ∧
      recordsFit 5 1 [1, 0] = true ∧ (383 : Word16).toNat + (1 : Byte).toNat ≤ tableLength 4 ∧
      (95 : Word16).toNat + (1 : Byte).toNat ≤ tableLength 5 ∧ ([1, 0] : List Byte).getD 0 0 ≤ 2 ∧ inService.supply.inService = true := by and_intros <;> decide
theorem witness_WriteFrameAndTariff :
    MaintTakes State.reset.part ∧ TablesOk State.reset.part ∧ (31 : Word16).toNat < 32 ∧
      ctlCode (some Ctl.b) = (2 : Byte).toNat ∧ (63 : Word16).toNat < 64 ∧ State.reset.part.calls = [] ∧
      State.reset.part.charge.incs.length = 16 := by
  and_intros <;> first | decide | exact tablesOk_of_check (by decide)
theorem witness_ReadTable :
    MaintTakes State.reset.part ∧ (0 : Byte).toNat = 0 ∧ 64 < (65 : Byte).toNat ∧ 9 < (10 : Byte).toNat ∧
      tableLength 0 < (2047 : Word16).toNat + (2 : Byte).toNat ∧
      (2047 : Word16).toNat + (1 : Byte).toNat ≤ tableLength 0 ∧
      (1984 : Word16).toNat + (64 : Byte).toNat ≤ tableLength 0 ∧ (9 : Byte).toNat ≤ 9 := by and_intros <;> decide
theorem witness_Presence :
    inService.supply.inService = true ∧ inService.supply.decided = false ∧ (ctl .a inService).extend = none ∧
      (ctl .a inService).present = true ∧ (ctl .b inService).extend = none ∧ (ctl .b inService).present = false := by
  decide

theorem witness_Release :
    CtlTakes .a dialling ∧ TablesOk dialling ∧ 128 ≤ (128 : Byte).toNat ∧ (call 127 dialling).state = .free ∧
      (call 3 dialling).state ≠ .free ∧ (call 3 dialling).state ≠ .closed ∧
      (call 3 dialling).owner = some .a ∧ (call 3 dialling).released = false ∧ Unawaited 3 dialling ∧
      CtlTakes .a releasedCalls ∧ TablesOk releasedCalls ∧ (call 127 releasedCalls).state = .closed ∧
      (call 0 releasedCalls).owner = some .a ∧ (call 0 releasedCalls).released = true ∧
      CtlTakes .b { dialling with b := { present := true } } ∧
      TablesOk { dialling with b := { present := true } } ∧
      (call 3 { dialling with b := { present := true } }).owner ≠ some .b := by
  and_intros <;> first
    | decide
    | exact tablesOk_of_check (by decide)
    | (intro c; cases c <;> decide)
theorem witness_ReadCallAndLine :
    CtlTakes .a dialling ∧ 128 ≤ (128 : Byte).toNat ∧ (call 127 dialling).state = .free ∧
      (call 3 dialling).state ≠ .free ∧ (call 3 dialling).owner = some .a ∧
      CtlTakes .b { dialling with b := { present := true } } ∧
      (call 3 { dialling with b := { present := true } }).owner ≠ some .b ∧
      2048 ≤ (2048 : Word16).toNat ∧ (2047 : Word16).toNat < 2048 := by and_intros <;> decide

/-- Each refusal of EXTEND at the first value beyond a range, and an EXTEND that is taken at the last. -/
theorem witness_Extend :
    CtlTakes .a dialling ∧ 128 ≤ (128 : Byte).toNat ∧ 2048 ≤ (2048 : Word16).toNat ∧ 8 ≤ (8 : Word16).toNat ∧
      2 ≤ (2 : Byte).toNat ∧ 16 ≤ (16 : Byte).toNat ∧ (call 4 dialling).state ≠ .dialling ∧
      (call 3 dialling).state = .dialling ∧ (call 3 dialling).relPending = false ∧
      (call 3 dialling).owner = some .a ∧ (2047 : Word16).toNat < 2048 ∧ (7 : Word16).toNat < 8 ∧
      (15 : Byte).toNat < 16 ∧ (1 : Byte).toNat < 2 ∧ CtlTakes .b { dialling with b := { present := true } } ∧
      (call 3 { dialling with b := { present := true } }).owner ≠ some .b := by and_intros <;> decide

/-- A part with a battery reset decided, and the same with an immediate reply waiting on controller A's port. -/
def resetDecided : Part := { supply := { inService := true, battery := .rideThrough, ride := 5, decided := true } }

/-- The io of a port whose line is busy and on which an immediate reply waits. -/
def waitingIo : PortIo :=
  { sending := some (.reply { tag := 0, code := .done })
    replies := [{ tag := 1, code := .busy, immediate := true }] }

theorem witness_ReceptionChecks :
    requestFrame (.presence .a 7) = some (.ctl .a, [7, 5]) ∧ (Instr.presence .a 7).wf = true ∧
      resetDecided.supply.decided = true ∧ State.reset.part.supply.inService = false ∧
      (signOfLife .a { resetDecided with a.io := waitingIo }).a.io = waitingIo ∧
      (∃ r, r ∈ waitingIo.replies ∧ r.immediate = true) ∧
      requestFrame (.presence .b 7) = some (.ctl .b, [7, 5]) ∧
      signOfLife .b State.reset.part = State.reset.part ∧ inService.supply.inService = true ∧
      (ctl .a { inService with a.window := 19 }).present = true ∧
      (ctl .a { inService with a.window := 19 }).window < 20 := by and_intros <;> decide
theorem witness_MalformedFrames :
    wellFormedFrame .maint [9, 23] = false ∧ wellFormedFrame (.ctl .b) [9] = false ∧
      (∀ r, r ∈ (io .maint State.reset.part).replies → r.immediate = false) ∧
      ∃ r, r ∈ (io .maint { m.io := waitingIo }).replies ∧ r.immediate = true :=
  ⟨by decide, by decide, fun _ h => (List.not_mem_nil h).elim, _, List.mem_singleton.mpr rfl, rfl⟩

/-- The io of a port with a reply and a notice waiting, and with a notice alone. -/
def twoWaiting : PortIo :=
  { sending := some (.reply { tag := 0, code := .done })
    replies := [{ tag := 1, code := .done }], queue := [.peer true] }

theorem witness_NextFrameIsChosen :
    (ctl .a { a.io := twoWaiting }).peer = none ∧ nextHeld .a { a.io := twoWaiting } = none ∧
      (io (.ctl .a) { a.io := twoWaiting }).sending ≠ none ∧
      (io (.ctl .a) { a.io := twoWaiting }).replies = { tag := 1, code := .done } :: [] ∧
      (io .maint { m.io := { twoWaiting with replies := [] } }).replies = [] ∧
      (io .maint { m.io := { twoWaiting with replies := [] } }).queue = .peer true :: [] ∧
      ({ m.io := { twoWaiting with replies := [] } } : Part).m.held = [] ∧
      nextOwnerless { m.io := { twoWaiting with replies := [] } } = none ∧
      (io .maint State.reset.part).sending = none := by decide

/-- A part with an ANSWERED notice pending, and one with a CLEARED. -/
def heldNotices : Part :=
  { calls := [(127, { state := .answered, owner := some .a, pend := [(.answered, [127])] })] }

theorem witness_PendingNoticesEnter :
    64 ≤ (ctl .a { a.io.queue := List.replicate 64 (.peer true) }).io.queue.length ∧
      (ctl .a { a.io.queue := List.replicate 63 (.peer true), a.peer := some false }).io.queue.length < 64 ∧
      (ctl .a { a.io.queue := List.replicate 63 (.peer true), a.peer := some false }).peer = some false ∧
      (ctl .a heldNotices).io.queue.length < 64 ∧ (ctl .a heldNotices).peer = none ∧
      heldNotices.calls = [(127, call 127 heldNotices)] ∧ (call 127 heldNotices).owner = some .a ∧
      (call 127 heldNotices).pend = [(.answered, [127])] := by decide

/-- A part with an ownerless CLOSED record. -/
def ownerless : Part :=
  { calls := [(127, { state := .closed, origin := some (.line 4), pend := [(.cleared, [])] })] }

theorem witness_MaintenanceNoticesEnter :
    32 ≤ ({ m.io.queue := List.replicate 32 (.peer true) } : Part).m.io.queue.length ∧
      ({ m.held := [(.batteryLow, 2, [1, 164])] } : Part).m.held = [(.batteryLow, 2, [1, 164])] ∧
      ({ m.held := [(.batteryLow, 2, [1, 164])] } : Part).m.io.queue.length < 32 ∧
      ownerless.m.io.queue.length < 32 ∧ ownerless.m.held = [] ∧ ownerless.calls = [(127, call 127 ownerless)] ∧
      (call 127 ownerless).owner = none ∧ (call 127 ownerless).state = .closed ∧
      (call 127 ownerless).pend = [(.cleared, [])] := by decide

/-- A part whose controller A has been silent for 20 ticks, with B PRESENT. -/
def silent : Part := { a := { present := true, window := 20 }, b := { present := true } }

theorem witness_PresenceWindowExpires :
    (ctl .a silent).present = true ∧ 20 ≤ (ctl .a silent).window ∧ silent.calls = [] ∧
      (ctl .a silent).io.queue = [] ∧ MaintRoom silent ∧ (ctl .b silent).present = true ∧
      (ctl .b silent).peer = none ∧ (ctl .b silent).io.queue.length < 64 ∧
      (ctl .a { silent with a.window := 19 }).window < 20 ∧ (ctl .b State.reset.part).present = false := by
  and_intros <;> decide

/-- The boundary samples of every row of R186, and the fifth sample below HOLD. -/
theorem witness_BatterySample :
    State.reset.part.supply.decided = false ∧ State.reset.part.supply.battery = .normal ∧ 450 ≤ 450 ∧ 449 < 450 ∧
      ({ supply := { battery := .low } } : Part).supply.battery = .low ∧ 460 < 461 ∧
      ({ supply := { battery := .rideThrough, ride := 4 } } : Part).supply.battery = .rideThrough ∧ 419 < 420 ∧
      resetDecided.supply.decided = true := by decide

/-- A part with a saved image whose marker is set, and one in which a reset is decided. -/
def saved : Part := { meters := { image := { marker := true }, records := [(9, { count := 77 })] } }

theorem witness_StartUpToLoading :
    State.reset.part.supply.decided = false ∧ writing.meters.engine ≠ .idle ∧
      State.reset.part.meters.image.marker = false ∧ State.reset.part.meters.engine = .idle ∧
      resetDecided.supply.decided = true ∧ resetDecided.meters.image.marker = false ∧
      resetDecided.meters.engine = .idle ∧ saved.meters.engine = .idle := by decide

theorem witness_StartUpFromTheImage :
    saved.meters.image.marker = true ∧ saved.meters.engine = .idle ∧
      ({ saved with supply.decided := true } : Part).supply.decided = true := by decide

/-- A frozen part with an idle ordinary line; and the same at NORMAL. -/
def frozenPart : Part :=
  { supply := { battery := .rideThrough }, net := { lines := [(2047, { cls := .ordinary })] }
    scan := { points := [(0, { duration := 4 }), (2047, { duration := 1022 }), (2383, { duration := 1023 })] } }

theorem witness_Scan_frozen : frozenPart.supply.battery = .rideThrough ∧ TablesOk frozenPart :=
  ⟨rfl, tablesOk_of_check (by decide)⟩

theorem witness_Scan_steady :
    State.reset.part.supply.battery ≠ .rideThrough ∧ TablesOk State.reset.part ∧ State.reset.part.scan.skip = [] ∧
      (∀ p, p < 2384 → (point p State.reset.part).pending = none) ∧ updated 2383 State.reset.part = true ∧
      ∀ p, p < 2384 → updated p State.reset.part = true →
        sampleState p ((0 : ScanInputs).getLsbD p) State.reset.part = (point p State.reset.part).accepted := by
  refine ⟨by decide, reset_tables, rfl, fun _ _ => rfl, by decide, fun p _ h => ?_⟩
  cases hk : pointKind p with
  | junction j => simp [sampleState, sensesPolarity, hk, point, junction, State.reset, Table.get]
  | line lt => simp [updated, hk, line, State.reset, Table.get, Line.out] at h
  | oEnd c => simp [updated, hk, elem, State.reset, Table.get] at h
  | tEnd c => simp [updated, hk, elem, State.reset, Table.get] at h
  | coin c => simp [updated, hk, elem, State.reset, Table.get] at h

/-- A part with one line alone, which no other point's reading follows from. -/
theorem steadyAt_of_line {l : Line} {e : ScanEntry} {lt p : Nat} (h : p ≠ lt) (inputs : ScanInputs)
    (hi : inputs.getLsbD p = false) :
    SteadyAt inputs p { net.lines := [(lt, l)], scan.points := [(lt, e)] } := by
  refine ⟨by simp [point, Table.get, Ne.symm h], fun hu => ?_⟩
  cases hk : pointKind p with
  | junction j => simp [sampleState, sensesPolarity, hk, hi, point, junction, Table.get, Ne.symm h]
  | line x =>
    have hx : x = p := by
      simp only [pointKind] at hk
      repeat' split at hk
      all_goals cases hk
      rfl
    simp [updated, hk, hx, line, Table.get, Line.out, Ne.symm h] at hu
  | oEnd c => simp [updated, hk, elem, Table.get] at hu
  | tEnd c => simp [updated, hk, elem, Table.get] at hu
  | coin c => simp [updated, hk, elem, Table.get] at hu

/-- A line at the last sample before its seizure, with LOOP shown at it alone; and a PARKED line at the last sample
before its PARK END, or past it. -/
theorem witness_Scan_one (d : Nat) (h : d = 24 ∨ d = 25) :
    let s : Part := { net.lines := [(2047, { cls := .ordinary })], scan.points := [(2047, { run := 5 })] }
    let q : Part :=
      { net.lines := [(2047, { cls := .ordinary, sup := .parked })]
        scan.points := [(2047, { duration := d, pending := some .parkEnd })] }
    (∀ p, p < 2384 → p ≠ 2047 → SteadyAt (BitVec.twoPow 2384 2047) p s) ∧
      (BitVec.twoPow 2384 2047).getLsbD 2047 = true ∧ (line 2047 s).sup = .idle ∧
      (frame (2047 / 64) s).seize ≤ (point 2047 s).run + 1 ∧ TablesOk s ∧
      (∀ p, p < 2384 → eventDue p s = none) ∧
      (∀ p, p < 2384 → p ≠ 2047 → SteadyAt 0 p q) ∧ (0 : ScanInputs).getLsbD 2047 = false ∧
      (line 2047 q).sup = .parked ∧ (point 2047 q).pending = some .parkEnd ∧ 24 ≤ (point 2047 q).duration ∧
      TablesOk q := by
  refine ⟨fun p _ hn => steadyAt_of_line hn _ ?_, by simp, by decide, by decide, tablesOk_of_check (by decide),
    fun p _ => ?_, fun p _ hn => steadyAt_of_line hn _ (by simp), by simp, ?_, ?_, ?_, ?_⟩
  · simp [Ne.symm hn]
  · by_cases hn : 2047 = p
    · subst hn; decide
    · simp [eventDue, point, Table.get, hn]
  all_goals obtain rfl | rfl := h
  all_goals first | decide | exact tablesOk_of_check (by decide)

/-- A line one sample from its seizure, and one two samples from it. -/
def seizing (run : Nat) : Part :=
  { net := { lines := [(2047, { cls := .ordinary })] }
    scan := { points := [(2047, { run := run })] } }

theorem witness_SeizureOfALine :
    TablesOk (seizing 4) ∧ TablesOk (seizing 5) ∧ (line 2047 (seizing 4)).cls ≠ .unequipped ∧
      (line 2047 (seizing 4)).admin ≠ .busyOut ∧ (line 2047 (seizing 4)).sup = .idle ∧
      (point 2047 (seizing 4)).accepted = .open_ ∧ (point 2047 (seizing 4)).pending = none ∧
      (frame (2047 / 64) (seizing 4)).seize ≤ 15 ∧
      (point 2047 (seizing 4)).run + 1 < (frame (2047 / 64) (seizing 4)).seize ∧
      (line 2047 (seizing 5)).cls ≠ .unequipped ∧ (line 2047 (seizing 5)).admin ≠ .busyOut ∧
      (line 2047 (seizing 5)).sup = .idle ∧ (point 2047 (seizing 5)).accepted = .open_ ∧
      (point 2047 (seizing 5)).pending = none ∧
      (frame (2047 / 64) (seizing 5)).seize ≤ (point 2047 (seizing 5)).run + 1 := by
  and_intros <;> first | decide | exact tablesOk_of_check (by decide)
theorem witness_DigitEnd :
    TablesOk dialling ∧ dialling.supply.battery ≠ .rideThrough ∧ callOfElem (.cord 0) dialling = some 3 ∧
      (call 3 dialling).set.cord = some 0 ∧ (call 3 dialling).state = .dialling ∧
      (call 3 dialling).relPending = false ∧ (call 3 dialling).lineSpeaks = false ∧
      (call 3 dialling).digits.length < 24 ∧ (call 3 dialling).owner = some .a ∧ (call 3 dialling).pend = [] ∧
      (io (.ctl .a) dialling).queue.length < 64 ∧ (point (2048 + 0) dialling).accepted = .loop ∧
      (point (2048 + 0) dialling).pending = some .digitEnd ∧ 25 ≤ (point (2048 + 0) dialling).duration ∧
      1 ≤ (point (2048 + 0) dialling).pulses ∧ (point (2048 + 0) dialling).pulses ≤ 10 := by
  and_intros <;> first | decide | exact tablesOk_of_check (by decide)

/-- The call at the boundaries of a digit: its pulse count, and how many digits it has collected. -/
def diallingAt (pulses digits : Nat) : Part :=
  { dialling with
    calls := [(3, { call 3 dialling with digits := List.replicate digits 1 })]
    scan := { points := [(2048, { point 2048 dialling with pulses := pulses })] } }

theorem witness_DigitEnd_bounds (pulses digits : Nat)
    (h : (pulses, digits) ∈ [(1, 0), (10, 23), (10, 24), (11, 0), (11, 24)]) :
    TablesOk (diallingAt pulses digits) ∧ callOfElem (.cord 0) (diallingAt pulses digits) = some 3 ∧
      (call 3 (diallingAt pulses digits)).state = .dialling ∧
      (point (2048 + 0) (diallingAt pulses digits)).pending = some .digitEnd ∧
      (point (2048 + 0) (diallingAt pulses digits)).pulses = pulses ∧
      (call 3 (diallingAt pulses digits)).digits.length = digits ∧
      (call 3 (diallingAt pulses digits)).owner = some .a ∧ (call 3 (diallingAt pulses digits)).pend = [] := by
  simp only [List.mem_cons, Prod.mk.injEq, List.not_mem_nil, or_false] at h
  obtain ⟨rfl, rfl⟩ | ⟨rfl, rfl⟩ | ⟨rfl, rfl⟩ | ⟨rfl, rfl⟩ | ⟨rfl, rfl⟩ := h <;> and_intros <;>
    first | decide | exact tablesOk_of_check (by decide)

/-- A PARKED line whose OPEN has lasted 25 scans. -/
def parked : Part :=
  { net := { lines := [(2047, { cls := .ordinary, sup := .parked })] }
    scan := { points := [(2047, { duration := 25, pending := some .parkEnd })] } }

theorem witness_ParkEnd :
    TablesOk parked ∧ (point 2047 parked).pending = some .parkEnd ∧ 25 ≤ (point 2047 parked).duration ∧
      parked.supply.battery ≠ .rideThrough ∧ (line 2047 parked).sup = .parked ∧
      eventDue 0 parked ≠ some .parkEnd :=
  ⟨tablesOk_of_check (by decide), by decide, by decide, by decide, by decide, by decide⟩

/-- An ANSWERED call by cord 95 whose called line has been OPEN for 50 scans. -/
def clearing : Part :=
  { inService with
    net := { cords := [(95, { occ := .held })] }
    calls :=
      [(127,
        { state := .answered, owner := some .a, origin := some (.line 0), originHeld := true
          term := some (.line 9), set := { cord := some 95 }, answered := true, charging := true })]
    scan := { points := [(2239, { duration := 50, pending := some .calledClear })] } }

theorem witness_CalledClear :
    TablesOk clearing ∧ clearing.supply.battery ≠ .rideThrough ∧ callOfElem (.cord 95) clearing = some 127 ∧
      (call 127 clearing).state = .answered ∧ (call 127 clearing).relPending = false ∧ clearing.timers.hold ≠ 0 ∧
      (call 127 clearing).owner = some .a ∧ (call 127 clearing).pend = [] ∧
      (io (.ctl .a) clearing).queue.length < 64 ∧ (point (2144 + 95) clearing).pending = some .calledClear ∧
      50 ≤ (point (2144 + 95) clearing).duration := by
  and_intros <;> first | decide | exact tablesOk_of_check (by decide)

/-- The dialling call with a caller clear due on its O point, and one with its line's own point speaking. -/
def clearingCaller : Part :=
  { dialling with
    scan.points :=
      [(1, { duration := 50, pending := some .callerClear }),
        (2048, { duration := 50, pending := some .callerClear }),
        (2383, { duration := 50, pending := some .farEndClear })]
    net :=
      { dialling.net with
        lines := [(0, { cls := .ordinary, sup := .inCall 3 }), (1, { cls := .ordinary, sup := .originating })]
        junctions := [(47, { sup := .inCall .incoming 5 })] }
    calls :=
      [(3, diallingCall), (4, { state := .settingOrigin, origin := some (.line 1), originHeld := true }),
        (5, { state := .dialling, origin := some (.junction 47), originHeld := true
              set := { junction := some 47, cord := some 88 } })] }

theorem clearingCaller_unawaited (id : Nat) : Unawaited id clearingCaller :=
  ⟨fun c _ h => by (cases c <;> cases h), rfl⟩

theorem witness_CallerClearReleases :
    TablesOk clearingCaller ∧ clearingCaller.supply.battery ≠ .rideThrough ∧ Releasable 3 clearingCaller ∧
      Releasable 4 clearingCaller ∧ Releasable 5 clearingCaller ∧ callOf (.line 1) clearingCaller = some 4 ∧
      (point 1 clearingCaller).pending = some .callerClear ∧ 50 ≤ (point 1 clearingCaller).duration ∧
      callOfElem (.cord 0) clearingCaller = some 3 ∧
      (point (2048 + 0) clearingCaller).pending = some .callerClear ∧
      50 ≤ (point (2048 + 0) clearingCaller).duration ∧
      (junction 47 clearingCaller).sup = .inCall .incoming 5 ∧
      (point (2336 + 47) clearingCaller).pending = some .farEndClear ∧
      50 ≤ (point (2336 + 47) clearingCaller).duration := by
  and_intros <;> first
    | decide
    | exact tablesOk_of_check (by decide)
    | (intro c; cases c <;> decide)

/-- Calls whose timers have reached their limits. -/
def expiring : Part :=
  { calls :=
      [(0, { state := .dialling, owner := some .a, timer := some { kind := .firstDigit, limit := 50, count := 50 } }),
        (1, { state := .ringing, owner := some .a, timer := some { kind := .noAnswer, limit := 300, count := 300 } }),
        (2, { state := .calledCleared, owner := some .a, timer := some { kind := .hold, limit := 10, count := 10 } }),
        (3, { state := .answered, owner := some .a, coin := some { grace := some (100, 100) } }),
        (4, { state := .answered, owner := some .a, coin := some { grace := some (100, 99) } })] }

theorem expiring_unawaited (id : Nat) : Unawaited id expiring := ⟨fun c _ h => by (cases c <;> cases h), rfl⟩

theorem witness_ExpiryReleases :
    TablesOk expiring ∧ (call 0 expiring).timer = some { kind := .firstDigit, limit := 50, count := 50 } ∧
      TimerKind.firstDigit ∈ [TimerKind.firstDigit, .interdigit] ∧ Releasable 0 expiring ∧
      (call 1 expiring).timer = some { kind := .noAnswer, limit := 300, count := 300 } ∧ Releasable 1 expiring ∧
      (call 2 expiring).timer = some { kind := .hold, limit := 10, count := 10 } ∧ Releasable 2 expiring ∧
      (call 3 expiring).coin = some { grace := some (100, 100) } ∧ Releasable 3 expiring ∧
      (call 4 expiring).coin = some { grace := some (100, 99) } := by
  and_intros <;> first
    | decide
    | exact tablesOk_of_check (by decide)
    | (intro c; cases c <;> decide)
theorem witness_DiallingCallIsReleased :
    TablesOk dialling ∧ Releasable 3 dialling ∧
      (call 3 dialling).timer = some { kind := .interdigit, limit := 150, count := 150 } ∧
      (call 3 dialling).state = .dialling ∧ (call 3 dialling).origin = some (.line 0) ∧
      (call 3 dialling).term = none ∧ (call 3 dialling).set = { fl := some 0, cord := some 0 } ∧
      (call 3 dialling).old = {} ∧ (call 3 dialling).new = {} ∧ (call 3 dialling).reswitch = false ∧
      (call 3 dialling).coin = none ∧ (call 3 dialling).claim = 0 ∧
      (call 3 dialling).xps = [(.line 0 0, .operated), (.plane 0 0 .o, .operated)] ∧
      (elem (.fl 0) dialling).occ = .held ∧ (elem (.cord 0) dialling).occ = .held ∧ ordersOf 3 dialling = [] ∧
      dialling.arb.releaseWait = [] ∧ 5 ≤ freePlaces dialling := by
  and_intros <;> first
    | decide
    | exact tablesOk_of_check (by decide)
    | (intro c; cases c <;> decide)
theorem witness_Tick :
    ({ tb := { selection := .station } } : Part).tb.selection = .station ∧
      State.reset.part.tb.selection ≠ .station ∧ QuietForTick State.reset.part ∧ QuietForTick endOfWeek.part ∧
      endOfWeek.part.tb.day ≤ 6 ∧ endOfWeek.part.tb.minute ≤ 1439 ∧ endOfWeek.part.tb.second ≤ 59 ∧
      endOfWeek.part.tb.tenth ≤ 9 := by
  and_intros <;> first
    | decide
    | exact tablesOk_of_check (by decide)
    | (intro c; cases c <;> decide)

/-- The charging call with its meter below the top. -/
def metered : Part := { charging with meters.entries := [(5, { count := 9999998 })] }

theorem witness_TickCharges :
    metered.calls = [(3, chargedCall)] ∧ chargedCall.state = .answered ∧ chargedCall.charging = true ∧
      chargedCall.coin = none ∧ chargedCall.relPending = false ∧
      (∀ m, chargedCall.timer = some m → m.count < m.limit) ∧ chargedCall.accum < 1048576 ∧
      chargedCall.incr ≤ 104858 ∧ 1048576 ≤ chargedCall.accum + chargedCall.incr ∧
      metered.tb.selection ≠ .station ∧ TablesOk metered ∧ metered.orig.queue = [] ∧ metered.cal.due = false ∧
      (∀ c, (ctl c metered).present = false) ∧ metered.supply.battery = .normal ∧ metered.meters.save = none ∧
      MaintRoom metered ∧ (∀ lt, chargedCall.charged = some lt → (meter lt metered).count < 9999999) ∧
      TablesOk { metered with meters := { entries := [(5, { count := 9999999 })] } } ∧
      (meter 5 { metered with meters := { entries := [(5, { count := 9999999 })] } }).count = 9999999 ∧
      chargedCall.charged = some 5 :=
  ⟨rfl, rfl, rfl, rfl, rfl, fun _ h => by (cases h), by decide, by decide, by decide, by decide,
    tablesOk_of_check (by decide), rfl, rfl, fun c => by (cases c <;> rfl), rfl, rfl,
    ⟨by decide, rfl⟩, fun lt h => by (cases h; decide), tablesOk_of_check (by decide), rfl, rfl⟩

/-- A part whose wait queue holds a line at its limit and a junction below it. -/
def waitingOrigins : Part :=
  { net := { lines := [(2047, { cls := .ordinary, sup := .originating })]
             junctions := [(47, { sup := .originating })] }
    orig := { queue := [{ origin := .line 2047, wait := 300, limit := 300 },
                        { origin := .junction 47, wait := 299, limit := 300 }] } }

theorem witness_WaitLimitExpires :
    TablesOk waitingOrigins ∧
      ({ origin := .line 2047, wait := 300, limit := 300 } : WaitEntry) ∈ waitingOrigins.orig.queue ∧
      ({ origin := .junction 47, wait := 299, limit := 300 } : WaitEntry) ∈ waitingOrigins.orig.queue ∧
      (∀ x ∈ waitingOrigins.orig.queue, x.origin = .line 2047 → x = { origin := .line 2047, wait := 300, limit := 300 }) ∧
      (∀ x ∈ waitingOrigins.orig.queue, x.origin = .junction 47 → x = { origin := .junction 47, wait := 299, limit := 300 }) :=
  ⟨tablesOk_of_check (by decide), by decide, by decide, by decide, by decide⟩

/-- Parts at each state of the station clock. -/
def stationAt (st : Station) (count : Nat) (sel pref : Source) (fall : Bool) : Part :=
  { tb := { station := st, count := count, selection := sel, preferred := pref, fallback := fall, crystal := .ready } }

theorem witness_StationPulse :
    (stationAt .absent 0 .internal .station false).tb.selection ≠ .station ∧
      (stationAt .qualifying 8 .internal .station false).tb.count + 1 <
        (stationAt .qualifying 8 .internal .station false).tb.requirement ∧
      (stationAt .qualifying 9 .internal .station false).tb.requirement ≤
        (stationAt .qualifying 9 .internal .station false).tb.count + 1 ∧
      MaintRoom (stationAt .qualifying 9 .internal .station true) ∧
      (stationAt .qualifying 9 .crystal .crystal true).tb.selection = .crystal ∧
      (stationAt .valid 0 .station .station false).tb.station = .valid ∧ (49 < 50 ∧ 50 ≤ 50) ∧
      QuietForTick (stationAt .valid 0 .station .station false) := by
  refine ⟨by decide, by decide, by decide, ⟨by decide, rfl⟩, rfl, rfl, by decide, rfl, rfl,
    fun _ h => (List.not_mem_nil h).elim, fun c h => ?_⟩
  cases c <;> cases h

theorem witness_StationGap :
    (stationAt .absent 0 .internal .station false).tb.station = .absent ∧
      (stationAt .qualifying 9 .internal .station false).tb.station = .qualifying ∧
      (stationAt .valid 0 .internal .crystal false).tb.selection ≠ .station ∧
      (stationAt .valid 0 .station .station false).tb.selection = .station ∧ 99 < 100 ∧
      MaintRoom (stationAt .valid 0 .station .station false) := by and_intros <;> decide
theorem witness_CrystalReadyAndFailure :
    (stationAt .absent 0 .internal .crystal false).tb.crystal ≠ .starting ∧
      State.reset.part.tb.crystal = .starting ∧ State.reset.part.tb.preferred = .crystal ∧
      State.reset.part.tb.selection = .internal ∧ State.reset.part.tb.fallback = false ∧
      ({ tb := { fallback := true } } : Part).tb.fallback = true ∧ MaintRoom { tb := { fallback := true } } ∧
      ({ tb := { preferred := .internal } } : Part).tb.preferred = .internal ∧
      ({ tb := { crystal := .stopped } } : Part).tb.crystal = .stopped ∧
      (stationAt .absent 0 .crystal .crystal false).tb.crystal ≠ .stopped ∧
      (stationAt .absent 0 .crystal .crystal false).tb.selection = .crystal ∧
      MaintRoom (stationAt .absent 0 .crystal .crystal false) := by and_intros <;> decide

/-- The order of the line crosspoint of a call being set up, with the plane crosspoint's beside it. -/
def lineOrder : Order := { id := 8, call := 127, act := .operate (.line 2047 383) }

/-- A call with both OPERATE orders in the table. -/
def operatingCall : Part :=
  { net := { lines := [(2047, { cls := .ordinary, sup := .originating })]
             fls := [(383, { occ := .reserved, admin := .busyOutPending })], cords := [(95, { occ := .reserved })] }
    calls :=
      [(127,
        { state := .settingOrigin, owner := some .a, origin := some (.line 2047), originHeld := true
          set := { fl := some 383, cord := some 95 }, claim := 2, op := .origin false
          xps := [(.line 2047 383, .operating), (.plane 383 95 .o, .operating)] })]
    orders := [lineOrder, { id := 9, call := 127, act := .operate (.plane 383 95 .o) }] }

theorem witness_OperateIsDone :
    TablesOk operatingCall ∧ lineOrder.act = .operate (.line 2047 383) ∧
      dispatched lineOrder.act.unit operatingCall = some lineOrder ∧
      (call lineOrder.call operatingCall).state ≠ .free ∧ (elem (.fl 383) operatingCall).occ ≠ .faulty ∧
      ∃ x, x ∈ operatingCall.orders.filter (fun x => decide (x.id ≠ lineOrder.id)) ∧ x.call = lineOrder.call := by
  and_intros <;> first | decide | exact tablesOk_of_check (by decide)
theorem witness_OperateFails :
    TablesOk operatingCall ∧ dispatched lineOrder.act.unit operatingCall = some lineOrder ∧
      (call lineOrder.call operatingCall).active = true ∧ (call lineOrder.call operatingCall).reswitch = false ∧
      callOfElem (.fl 383) operatingCall = some lineOrder.call ∧
      (call lineOrder.call operatingCall).set.tfl ≠ some 383 ∧ (call lineOrder.call operatingCall).new.tfl ≠ some 383 ∧
      (∀ y, y ∈ (call lineOrder.call operatingCall).xps → y.2 ≠ .operated) ∧ MaintRoom operatingCall ∧
      ∃ x, x ∈ operatingCall.orders.filter (fun x => decide (x.id ≠ lineOrder.id)) ∧ x.call = lineOrder.call := by
  and_intros <;> first | decide | exact tablesOk_of_check (by decide)

/-- A part with a marked line and a free network. -/
def marked : Part :=
  { inService with
    net := { lines := [(130, { cls := .coin, sup := .originating, marked := true })]
             frames := [(2, { home := some .a, hunt := 11 })] }
    orig := { request := some 2 } }

/-- The same with a release waiting, and room for the release alone. -/
def crowded : Part :=
  { marked with
    arb.releaseWait := [1]
    timers := { prioServer := 3, prioRelease := 0 }
    calls := (List.range 15).map (fun i => (i + 1, { state := .releasing, claim := if i = 0 then 3 else 4 })) }

/-- EXTENDs of both controllers and the server waiting, controller A the last granted at their priority. -/
def contended : Part :=
  { dialling with
    orig.request := some 2, arb.last := [.release, .release, .ctl .a, .release]
    a := { present := true, extend := some { tag := 1, call := 3, band := 0, allow := true, dest := .line 64 } }
    b := { present := true, extend := some { tag := 2, call := 4, band := 0, allow := false, dest := .route 7 } } }

theorem witness_ArbiterKeepsPlacesForReleases :
    marked.timers.prioServer ≤ 3 ∧ grantee marked = some .server ∧ claims marked ≤ 64 ∧
      crowded.timers.prioServer ≤ 3 ∧ crowded.timers.prioRelease ≤ 3 ∧ claims crowded ≤ 64 ∧
      grantee crowded = some .release ∧ grantee { crowded with arb.releaseWait := [] } = none ∧
      claims { crowded with arb.releaseWait := [] } ≤ 64 ∧ contended.timers.prioB ≤ 3 ∧
      grantee contended = some (.ctl .b) ∧ claims contended ≤ 64 ∧
      contended.a.extend.map (fun e => extendWorst e contended) = some 7 := by decide

theorem witness_ArbiterKeepsPlacesForReleases_selected :
    Selected .server crowded ∧ Selected .server { crowded with arb.releaseWait := [] } ∧
      Selected (.ctl .b) contended := by
  and_intros <;> first
    | decide
    | (intro x; rcases x with _ | (_ | _) | _ <;> decide)

/-- The server's worst case with 5 places more does not fit, and the release's does. -/
theorem witness_ArbiterKeepsPlacesForReleases_places :
    ¬ PlacesEnough .server crowded ∧ PlacesEnough .release crowded :=
  ⟨fun ⟨w, h, g⟩ => by
    have hw : requestOf .server crowded = some 2 := by decide
    rw [hw] at h
    cases h
    exact absurd g (by decide), 2, by decide, by decide⟩

theorem witness_GrantServesALine :
    TablesOk marked ∧ grantee marked = some .server ∧ marked.orig.request = some 2 ∧
      chooseWork marked = some (.serve (.line 130)) ∧ lowestFree marked = some 0 ∧
      findOriginPath (130 / 64) marked = some (11, 88) ∧ (line 130 marked).sup = .originating ∧
      callOf (.line 130) marked = none :=
  ⟨tablesOk_of_check (by decide), by decide⟩

theorem witness_MeterWriteEnds :
    TablesOk writing ∧ writing.meters.engine = .meter 2047 { count := 12 } false ∧ writing.meters.save = none ∧
      writing.supply.battery = .normal ∧ TablesOk { meters := { engine := .meter 0 {} true } } ∧
      MaintRoom { meters := { engine := .meter 0 {} true } } := by
  and_intros <;> first | decide | exact tablesOk_of_check (by decide)

/-- The engine at a meter write, or at a configuration write of a save, with what it may write next. -/
def engineAt (w : Engine) (battery : Battery) (dirty : List Nat) (save : Option Save) : Part :=
  { supply := { battery := battery }, meters := { engine := w, dirty := dirty, save := save } }

/-- What follows a write (R146, R147): in URGENT the dirty list's head; in a save its first write before the list,
then the list and the save in turn in TRICKLE, and the list first in URGENT. -/
theorem witness_MeterWriteEnds_next :
    (after (.nvWriteEnd true) (on (engineAt (.meter 9 {} false) .low [5, 6] none))).meters.engine =
        .meter 5 {} false ∧
      (after (.nvWriteEnd true) (on (engineAt (.meter 9 {} false) .low [5] (some {})))).meters.engine =
        .config (.marker false) false ∧
      (after (.nvWriteEnd true) (on (engineAt (.meter 9 {} false) .normal [5] (some { next := 1 })))).meters.engine =
        .config (.line 0 {}) false ∧
      (after (.nvWriteEnd true) (on (engineAt (.meter 9 {} false) .rideThrough [5] (some { next := 1 })))).meters.engine =
        .meter 5 {} false ∧
      (after (.nvWriteEnd true) (on (engineAt (.config (.marker false) false) .normal [5]
        (some { configLast := true })))).meters.engine = .meter 5 {} false := by decide

/-- A save at its last two writes. -/
def savingLast (n : Nat) (again : Bool) : Part :=
  { meters := { engine := .config (if n < 2699 then .preferred .crystal else .marker true) again
                save := some { next := n, verified := 2697, configLast := true } } }

theorem witness_ConfigurationWriteEnds :
    TablesOk (savingLast 2698 false) ∧ TablesOk (savingLast 2699 false) ∧
      (savingLast 2698 false).meters.engine = .config (.preferred .crystal) false ∧
      (savingLast 2698 true).meters.engine = .config (.preferred .crystal) true ∧
      (savingLast 2699 false).meters.engine = .config (.marker true) false ∧
      (savingLast 2698 false).meters.dirty = [] ∧ (savingLast 2698 false).supply.decided = false ∧
      (∀ b, ConfigValue.preferred .crystal ≠ .marker b) ∧ MaintRoom (savingLast 2699 false) ∧
      TablesOk (savingLast 2699 true) ∧ (savingLast 2699 true).meters.engine = .config (.marker true) true :=
  ⟨tablesOk_of_check (by decide), tablesOk_of_check (by decide), rfl, rfl, rfl, rfl, rfl,
    fun _ h => by (cases h), ⟨by decide, rfl⟩, tablesOk_of_check (by decide), rfl⟩

theorem witness_TrickleSlot :
    writing.meters.engine ≠ .idle ∧ State.reset.part.meters.dirty = [] ∧ flagged.meters.engine = .idle ∧
      flagged.meters.dirty = 0 :: [] ∧ flagged.meters.save = none ∧ flagged.supply.battery = .normal ∧
      flagged.supply.decided = false := by decide

/-! ## Witnesses of the further clauses of a statement -/

/-- A part whose one meter that differs from its record is listed, with a coin call that owes a unit. -/
def lawful : Part :=
  { meters := { entries := [(5, { count := 9999999 })], dirty := [5] }
    calls :=
      [(3,
        { chargedCall with
          set := { fl := some 1, cord := some 8, tfl := some 13 }
          coin := some { credit := 0, owed := 1, deposits := 999, grace := some (100, 0) } })] }

theorem witness_MeterRangeKept_laws :
    TablesOk lawful ∧ ListedOk lawful ∧ CallsOk lawful ∧
      ∃ t, step { pending := [.tick []], part := lawful } = .next t ∧ t.part.calls ≠ lawful.calls := by
  refine ⟨tablesOk_of_check (by decide), ⟨fun lt h => ?_, fun _ _ _ h => by cases h⟩, ?_, _, rfl, by decide⟩
  · by_cases hl : lt = 5
    · exact .inl (by subst hl; decide)
    · refine absurd ?_ h
      simp [meter, lawful, Table.get, Ne.symm hl, MeterEntry.value]
  · intro x hx
    obtain rfl : x = _ := List.mem_singleton.mp hx
    refine ⟨fun k hk => ?_, fun c hc => ?_, fun c hc => ?_, fun c hc => ?_⟩
    · cases hk
      exact ⟨by decide, by decide, fun _ => by decide⟩
    · cases hc
      exact ⟨by decide, by decide⟩
    all_goals cases hc

/-- The dialling call with an EXTEND of controller A waiting at the arbiter; the frame link to lines 64 to 127 on its plane may be
taken. -/
def extending (dest : Dest) (allow taken : Bool) : Part :=
  { dialling with
    net := { dialling.net with
      lines := [(0, { cls := .ordinary, sup := .inCall 3 }), (5, { cls := .ordinary }), (64, { cls := .coin }),
        (128, { cls := .ordinary, sup := .parked })]
      fls := [(0, { occ := .held })] ++ if taken then [(12, { occ := .held })] else []
      junctions := [(36, { route := some 7 })] }
    a := { present := true
           extend := some { tag := 9, call := 3, band := 15, allow := allow, dest := dest } } }

/-- With an EXTEND of another call on port B and a re-hunt of this call in the list. -/
theorem witness_ReleaseCall_awaited :
    MaintTakes (extending (.line 64) false true) ∧
      TablesOk (extending (.line 64) false true) ∧
      (3 : Byte).toNat < 128 ∧ (call 3 (extending (.line 64) false true)).active = true ∧
      (call 3 (extending (.line 64) false true)).released = false ∧
      (ctl .a (extending (.line 64) false true)).extend.map ExtendRequest.call = some 3 ∧
      (ctl .b (extending (.line 64) false true)).extend = none ∧
      (extending (.line 64) false true).orig.rehunts = [] ∧
      (∀ c : Ctl, (ctl c { dialling with orig.rehunts := [{ call := 3, route := 7, junction := 0 }] }).extend =
        none) := by
  and_intros <;> first
    | decide
    | exact tablesOk_of_check (by decide)
    | (intro c; cases c <;> decide)

/-- The EXTEND of that part. -/
def extendOf (dest : Dest) (allow : Bool) : ExtendRequest :=
  { tag := 9, call := 3, band := 15, allow := allow, dest := dest }

/-- A grant of the EXTEND of that part, as one test. -/
theorem extendGranted_of_check {c : Ctl} {e : ExtendRequest} {o : Party} {cord : Nat} {s : Part}
    (h : tablesCheck s = true) (g : grantee s = some (.ctl c) ∧ (ctl c s).extend = some e)
    (hc : (call e.call s).state = .dialling ∧ (call e.call s).relPending = false ∧
      (call e.call s).origin = some o ∧ (call e.call s).lineSpeaks = false ∧
      (call e.call s).reswitch = false ∧ (call e.call s).set.cord = some cord ∧
      (call e.call s).term = none ∧ (call e.call s).old = {} ∧ (call e.call s).new = {})
    (hs : cord < 96 ∧ callOfElem (.cord cord) s = some e.call ∧ (point (2048 + cord) s).accepted = .loop ∧
      s.scan.pos = none)
    (hp : OriginInCall e.call o s) :
    ExtendGranted c e o cord s := by
  obtain ⟨g1, g2⟩ := g
  obtain ⟨c1, c2, c3, c4, c5, c6, c7, c8, c9⟩ := hc
  obtain ⟨s1, s2, s3, s4⟩ := hs
  exact ⟨tablesOk_of_check h, g1, g2, c1, c2, c3, c4, c5, c6, c7, c8, c9, s1, s2, s3, s4, hp⟩

/-- Every frame link of lines 64 to 127 is taken. -/
def unreachable : Part :=
  { extending (.line 64) true true with
    net.fls := [(0, { occ := .held })] ++ (List.range 12).map (fun k => (12 + k, { occ := .held })) }

theorem witness_Extend_refused :
    (ExtendGranted .a (extendOf (.line 70) false) (.line 0) 0 (extending (.line 70) false true) ∧
      (line 70 (extending (.line 70) false true)).cls = .unequipped) ∧
    (ExtendGranted .a (extendOf (.line 128) false) (.line 0) 0 (extending (.line 128) false true) ∧
      (line 128 (extending (.line 128) false true)).sup ≠ .idle) ∧
    (ExtendGranted .a (extendOf (.line 5) false) (.line 0) 0 (extending (.line 5) false true) ∧
      callOf (.line 5) (extending (.line 5) false true) = none ∧ 0 / 64 = 5 / 64) ∧
    (ExtendGranted .a (extendOf (.line 64) false) (.line 0) 0 (extending (.line 64) false true) ∧
      avail (.fl 12) (extending (.line 64) false true) = false) ∧
    (ExtendGranted .a (extendOf (.line 64) true) (.line 0) 0 unreachable ∧
      avail (.fl 12) unreachable = false ∧ linePlane (0 / 64) (64 / 64) (0 / 8) unreachable = none) ∧
    (ExtendGranted .a (extendOf (.route 6) false) (.line 0) 0 (extending (.route 6) false true) ∧
      hunt 6 0 (fun k => decide (k = 0 / 8)) (extending (.route 6) false true) = none) := by
  and_intros <;> first
    | decide
    | exact extendGranted_of_check (by decide) (by decide) (by decide) (by decide) ⟨by decide, by decide⟩

/-- Permission given, and a junction of the route on plane 4 alone; the calling line's frame link to it is taken or not. -/
def otherPlane (taken : Bool) : Part :=
  { extending (.route 7) true true with
    net := { (extending (.route 7) true true).net with
      junctions := [(40, { route := some 7, dir := .bothway })]
      fls := [(0, { occ := .held })] ++ if taken then [(4, { occ := .held })] else [] } }

theorem witness_Extend_done :
    (ExtendGranted .a (extendOf (.line 64) false) (.line 0) 0 (extending (.line 64) false false) ∧
      callOf (.line 64) (extending (.line 64) false false) = none ∧
      (line 64 (extending (.line 64) false false)).sup = .idle ∧
      avail (.fl 12) (extending (.line 64) false false) = true) ∧
    (ExtendGranted .a (extendOf (.line 64) true) (.line 0) 0 (extending (.line 64) true true) ∧
      linePlane (0 / 64) (64 / 64) (0 / 8) (extending (.line 64) true true) = some (1, 8) ∧
      (call 3 (extending (.line 64) true true)).set = { fl := some 0, cord := some 0 } ∧
      (call 3 (extending (.line 64) true true)).xps = [(.line 0 0, .operated), (.plane 0 0 .o, .operated)] ∧
      (elem (.fl 0) (extending (.line 64) true true)).occ = .held ∧
      callOfElem (.cord 8) (extending (.line 64) true true) = none) ∧
    (ExtendGranted .a (extendOf (.route 7) false) (.line 0) 0 (extending (.route 7) false true) ∧
      hunt 7 0 (fun k => decide (k = 0 / 8)) (extending (.route 7) false true) = some 36) := by
  and_intros <;> first
    | decide
    | exact extendGranted_of_check (by decide) (by decide) (by decide) (by decide) ⟨by decide, by decide⟩

theorem witness_Extend_otherPlane (taken : Bool) :
    ExtendGranted .a (extendOf (.route 7) true) (.line 0) 0 (otherPlane taken) ∧
      hunt 7 0 (fun k => decide (k = 0 / 8)) (otherPlane taken) = none ∧
      hunt 7 0 (fun k => decide (k ≠ 0 / 8)) (otherPlane taken) = some 40 ∧
      lowestCord (40 % 12) (otherPlane taken) = some 32 ∧
      avail (.fl (12 * (0 / 64) + 40 % 12)) (otherPlane taken) = !taken ∧
      (call 3 (otherPlane taken)).set = { fl := some 0, cord := some 0 } ∧
      (call 3 (otherPlane taken)).xps = [(.line 0 0, .operated), (.plane 0 0 .o, .operated)] ∧
      (elem (.fl 0) (otherPlane taken)).occ = .held ∧ callOfElem (.cord 32) (otherPlane taken) = none := by
  cases taken <;> and_intros <;> first
    | decide
    | exact extendGranted_of_check (by decide) (by decide) (by decide) (by decide) ⟨by decide, by decide⟩

/-- A dialling call of incoming junction 11, with an EXTEND of controller B waiting. -/
def extendingJunction (dest : Dest) (taken : Bool) : Part :=
  { inService with
    net :=
      { lines := [(64, { cls := .coin })]
        fls := if taken then [(23, { occ := .held })] else []
        junctions :=
          [(11, { route := some 6, dir := .incoming, elem := { occ := .held }, sup := .inCall .incoming 3 }),
            (47, { route := some 7 })]
        cords := [(95, { occ := .held })] }
    calls := [(3, { state := .dialling, owner := some .b, origin := some (.junction 11), originHeld := true
                    set := { junction := some 11, cord := some 95 }, xps := [(.junctor 11 95 .o, .operated)] })]
    scan := { points := [(2143, { accepted := .loop }), (2347, { accepted := .loop })] }
    b := { present := true, extend := some (extendOf dest true) } }

theorem witness_Extend_junction :
    (ExtendGranted .b (extendOf (.line 64) true) (.junction 11) 95 (extendingJunction (.line 64) false) ∧
      avail (.fl 23) (extendingJunction (.line 64) false) = true) ∧
    (ExtendGranted .b (extendOf (.line 64) true) (.junction 11) 95 (extendingJunction (.line 64) true) ∧
      avail (.fl 23) (extendingJunction (.line 64) true) = false) ∧
    (ExtendGranted .b (extendOf (.route 7) true) (.junction 11) 95 (extendingJunction (.route 7) true) ∧
      hunt 7 0 (fun k => decide (k = 95 / 8)) (extendingJunction (.route 7) true) = some 47) ∧
    (ExtendGranted .b (extendOf (.route 6) true) (.junction 11) 95 (extendingJunction (.route 6) true) ∧
      hunt 6 0 (fun k => decide (k = 95 / 8)) (extendingJunction (.route 6) true) = none) := by
  and_intros <;> first
    | decide
    | exact extendGranted_of_check (by decide) (by decide) (by decide) (by decide)
        ⟨by decide, by decide, by decide⟩

theorem witness_WriteFrameAndTariff_lines :
    MaintTakes dialling ∧ TablesOk dialling ∧ dialling.supply.inService = true ∧
      callOf (.line 0) dialling ≠ none ∧ callOf (.line 2047) dialling = none ∧
      LineClass.unequipped.code = (3 : Byte).toNat ∧ LineClass.ordinary.code = (0 : Byte).toNat ∧
      (line 2047 dialling).cls = .unequipped ∧ (2 : Byte).toNat ≤ 2 ∧ MaintTakes parked ∧ TablesOk parked ∧
      (line 2047 parked).cls ≠ .unequipped ∧ ctlCode (some Ctl.a) = (1 : Byte).toNat := by
  and_intros <;> first | decide | exact tablesOk_of_check (by decide)

/-- A part IN SERVICE with one FREE junction, whose far end may hold the loop, and one in use. -/
def junctions (v : PointState) : Part :=
  { inService with
    net := { junctions := [(0, { dir := .incoming, sup := .heldUnserved }), (47, { dir := .incoming })] }
    scan := { points := [(2383, { accepted := v, duration := 9 })] } }

theorem witness_WriteFrameAndTariff_junctions :
    MaintTakes (junctions .loop) ∧ TablesOk (junctions .loop) ∧ MaintTakes (junctions .open_) ∧
      TablesOk (junctions .open_) ∧ Direction.bothway.code = (2 : Byte).toNat ∧
      Glare.yield.code = (1 : Byte).toNat ∧
      ¬ ((junction 0 (junctions .loop)).elem.occ = .free ∧ (junction 0 (junctions .loop)).sup = .idle) ∧
      (junction 47 (junctions .loop)).elem.occ = .free ∧ (junction 47 (junctions .loop)).sup = .idle ∧
      (junction 47 (junctions .loop)).elem.admin = .inService ∧
      (point (2336 + 47) (junctions .loop)).accepted = .loop ∧
      (point (2336 + 47) (junctions .open_)).accepted ≠ .loop := by
  and_intros <;> first | decide | exact tablesOk_of_check (by decide)

theorem witness_WriteFrameAndTariff_rest :
    MaintTakes State.reset.part ∧ TablesOk State.reset.part ∧ State.reset.part.supply.inService = false ∧
      (elem (.fl 383) State.reset.part).occ = .free ∧ (elem (.cord 95) State.reset.part).admin ≠ .busyOutPending ∧
      Period.holiday.code = (3 : Byte).toNat ∧ Profile.heavy.code = (1 : Byte).toNat ∧
      usable .internal State.reset.part = true ∧ Source.internal = State.reset.part.tb.selection ∧
      MaintTakes crystal ∧ TablesOk crystal ∧ usable .crystal crystal = true ∧
      Source.crystal ≠ crystal.tb.selection ∧ crystal.tb.fallback = false ∧
      MaintRoom { crystal with tb.fallback := true } ∧ TablesOk { crystal with tb.fallback := true } ∧
      usable .station { crystal with tb.station := .absent } = false ∧
      TablesOk { crystal with tb.station := .absent } ∧
      ({ crystal with tb.station := .absent } : Part).tb.selection = .internal ∧
      usable .station State.reset.part = false ∧ State.reset.part.tb.crystal ≠ .ready := by
  and_intros <;> first | decide | exact tablesOk_of_check (by decide)

/-- A part IN SERVICE whose one active call has no owner. -/
def orphaned : Part :=
  { supply := { inService := true }, b := { present := true }
    calls := [(127, { state := .answered, origin := some (.line 4) })] }

theorem witness_Presence_arrives :
    orphaned.supply.inService = true ∧ orphaned.supply.decided = false ∧ (ctl .a orphaned).extend = none ∧
      (ctl .a orphaned).present = false ∧ orphaned.calls = [(127, call 127 orphaned)] ∧
      (call 127 orphaned).active = true ∧ (call 127 orphaned).owner = none ∧ (call 127 orphaned).pend = [] ∧
      (ctl .a orphaned).io.queue.length < 64 ∧ MaintRoom orphaned ∧ (ctl .b orphaned).present = true ∧
      (ctl .b orphaned).peer = none ∧ (ctl .b orphaned).io.queue.length < 64 := by and_intros <;> decide

theorem witness_Presence_late :
    ({ inService with a.window := 20 } : Part).supply.inService = true ∧
      (ctl .a { inService with a.window := 20 }).present = true ∧
      20 ≤ (ctl .a { inService with a.window := 20 }).window ∧ inService.calls = [] ∧
      (ctl .a { inService with a.window := 20 }).io.queue = [] ∧
      (ctl .b { inService with a.window := 20 }).present = false ∧ inService.m.held = [] ∧
      inService.m.io.queue.length < 31 := by and_intros <;> decide

/-- Two records of controller A with a notice pending each, and the pointer between them. -/
def heldTwice (pointer : Nat) : Part :=
  { calls := [(0, { state := .answered, owner := some .a, pend := [(.answered, [0])] }),
      (127, { state := .closed, owner := some .a, pend := [(.cleared, [])] })]
    a := { present := true, pointer := pointer } }

/-- A full queue that is being sent, with a peer item or without, and a record's notice held. -/
def fullQueue (peer : Option Bool) : Part :=
  { heldNotices with
    a := { present := true, peer := peer
           io := { sending := some (.notice (.peer true)), queue := List.replicate 64 (.peer true) } } }

theorem witness_PendingNoticesEnter_order :
    (ctl .a { heldNotices with a.peer := some true }).io.queue.length < 63 ∧
      (ctl .a { heldNotices with a.peer := some true }).peer = some true ∧
      heldNotices.calls = [(127, call 127 heldNotices)] ∧
      (heldTwice 0).calls = [(0, call 0 (heldTwice 0)), (127, call 127 (heldTwice 0))] ∧
      (call 0 (heldTwice 0)).pend = [(.answered, [0])] ∧ (call 127 (heldTwice 0)).pend = [(.cleared, [])] ∧
      (0 ≤ (ctl .a (heldTwice 0)).pointer ∧ (ctl .a (heldTwice 0)).pointer < 127) ∧
      ¬ (0 ≤ (ctl .a (heldTwice 127)).pointer ∧ (ctl .a (heldTwice 127)).pointer < 127) ∧
      (fullQueue none).a.io.sending = some (.notice (.peer true)) ∧ (fullQueue none).a.io.replies = [] ∧
      (fullQueue none).a.io.queue = .peer true :: List.replicate 63 (.peer true) ∧
      (List.replicate 63 (Notice.peer true)).length = 63 ∧ (fullQueue none).calls = heldNotices.calls ∧
      (ctl .a (fullQueue (some false))).peer = some false := by and_intros <;> decide

/-- A record with two notices of a kind order pending. -/
theorem witness_PendingNoticesEnter_kinds :
    let s : Part :=
      { calls := [(5, { state := .answered, owner := some .a, pend := [(.ringing, [5]), (.answered, [5])] })] }
    (ctl .a s).io.queue.length < 63 ∧ (ctl .a s).peer = none ∧ s.calls = [(5, call 5 s)] ∧
      (call 5 s).owner = some .a ∧ CallKind.ringing.rank < CallKind.answered.rank ∧
      (call 5 s).pend = [(.ringing, [5]), (.answered, [5])] := by and_intros <;> decide

/-- Records whose notices are read from them as they enter, one of them ownerless. -/
def noticing : Part :=
  { calls :=
      [(3, { state := .dialling, owner := some .a, origin := some (.line 5), digits := [4, 0] }),
        (4, { state := .answered, origin := some (.line 6)
              coin := some { owed := 2, deposits := 3, grace := some (100, 40) } })]
    a := { present := true, io := { queue := List.replicate 64 (.peer true) } } }

theorem witness_PendingNoticesEnter_data :
    (call 4 noticing).owner = none ∧ (call 3 noticing).owner = some .a ∧
      64 ≤ (ctl .a noticing).io.queue.length ∧ (call 3 noticing).digits = [4] ++ [0] ∧
      (call 3 noticing).origin = some (.line 5) ∧ (call 4 noticing).origin = some (.line 6) ∧
      (call 4 noticing).coin = some { owed := 2, deposits := 3, grace := some (100, 40) } ∧
      ([(CallKind.ringing, [4]), (.cleared, [])] : List (CallKind × List Byte)).Pairwise
        (fun x y => x.1.rank < y.1.rank) := by and_intros <;> decide

/-- The maintenance queue full and being sent, with an entry held and an ownerless CLEARED. -/
def fullMaint (entries : List (MaintKind × Nat × List Byte)) : Part :=
  { ownerless with
    m := { held := entries
           io := { sending := some (.notice (.peer true)), queue := List.replicate 32 (.peer true) } } }

theorem witness_MaintenanceNoticesEnter_order :
    ({ m.held := [(.batteryLow, 0, [1, 164]), (.rollover, 1, [0, 5])] } : Part).m.io.queue.length < 31 ∧
      ({ m.held := [(.batteryLow, 0, [1, 164]), (.rollover, 1, [0, 5])] } : Part).calls = [] ∧
      ({ ownerless with m.held := [(.batteryLow, 2, [1, 164])] } : Part).m.io.queue.length < 31 ∧
      ({ ownerless with m.held := [(.batteryLow, 2, [1, 164])] } : Part).calls = [(127, call 127 ownerless)] ∧
      (fullMaint []).m.io.sending = some (.notice (.peer true)) ∧ (fullMaint []).m.io.replies = [] ∧
      (fullMaint []).m.io.queue = .peer true :: List.replicate 31 (.peer true) ∧ (fullMaint []).m.held = [] ∧
      (fullMaint []).calls = [(127, call 127 ownerless)] ∧
      (fullMaint [(.batteryLow, 0, [1, 164])]).m.held = (.batteryLow, 0, [1, 164]) :: [] := by and_intros <;> decide

/-- R180: an entry of the kind raised is held, or none is, with the queue full; and with room in it. -/
theorem witness_MaintenanceNoticesEnter_merged :
    MaintRoom State.reset.part ∧
      32 ≤ (fullMaint [(.batteryLow, 255, [1, 164]), (.rollover, 1, [0, 5])]).m.io.queue.length ∧
      (∀ x ∈ (fullMaint [(.batteryLow, 255, [1, 164]), (.rollover, 1, [0, 5])]).m.held,
        x.1 ≠ .batteryNormal) ∧
      (fullMaint [(.batteryLow, 255, [1, 164]), (.rollover, 1, [0, 5])]).m.held =
        [] ++ (.batteryLow, 255, [1, 164]) :: [(.rollover, 1, [0, 5])] ∧
      (∀ x ∈ ([] ++ [(.rollover, 1, [0, 5])] : List (MaintKind × Nat × List Byte)), x.1 ≠ .batteryLow) ∧
      ({ m.held := [(.batteryLow, 2, [1, 164])] } : Part).m.held ≠ [] ∧
      (∀ x ∈ ({ m.held := [(.batteryLow, 2, [1, 164])] } : Part).m.held, x.1 ≠ .rollover) ∧
      ({ m.held := [(.batteryLow, 2, [1, 164])] } : Part).calls = [] ∧
      ({ m.held := [(.batteryLow, 2, [1, 164])] } : Part).m.io.queue.length + 1 < 32 := by and_intros <;> decide

/-- Controller A silent for 20 ticks with a record, and with a notice in its queue. -/
def silentWith (peerPresent : Bool) (queue : List Notice) : Part :=
  { a := { present := true, window := 20, io := { sending := some (.notice (.peer true)), queue := queue } }
    b := { present := peerPresent }
    calls := [(127, { state := .ringing, owner := some .a, origin := some (.line 4) })] }

theorem witness_PresenceWindowExpires_records :
    (ctl .a (silentWith true [])).present = true ∧ 20 ≤ (ctl .a (silentWith true [])).window ∧
      (silentWith true []).calls = [(127, call 127 (silentWith true []))] ∧
      (call 127 (silentWith true [])).active = true ∧ (call 127 (silentWith true [])).owner = some .a ∧
      (call 127 (silentWith true [])).pend = [] ∧ MaintRoom (silentWith true []) ∧
      (ctl .a (silentWith true [])).io.queue = [] ∧ (ctl .b (silentWith true [])).present = true ∧
      (ctl .b (silentWith true [])).peer = none ∧ (ctl .b (silentWith true [])).io.queue.length < 63 ∧
      (ctl .b (silentWith false [.peer true])).present = false ∧ MaintRoom (silentWith false [.peer true]) ∧
      (ctl .a (silentWith false [.peer true])).io.queue = [.peer true] ∧
      (ctl .a (silentWith false [.call .ringing 127 [127]])).io.queue = [.call .ringing 127 [127]] ∧
      CallKind.ringing ≠ .cleared := by and_intros <;> decide

theorem witness_PresenceWindowExpires_cleared (n : Nat) (h : n = 0 ∨ n = 32) :
    let s : Part :=
      { a := { present := true, window := 20, io.queue := [.call .cleared 127 [127]] }
        m.io := { sending := some (.notice (.peer true)), queue := List.replicate n (.peer true) } }
    20 ≤ (ctl .a s).window ∧ s.calls = [] ∧ (ctl .a s).io.queue = [.call .cleared 127 [127]] ∧
      (ctl .b s).present = false ∧ s.m.held = [] ∧ (n = 0 → s.m.io.queue.length < 31) ∧
      (n = 32 → 32 ≤ s.m.io.queue.length) := by
  obtain rfl | rfl := h <;> decide

/-- The dialling call in a freeze, with pulses counted on its O point. -/
def dialFrozen : Part :=
  { dialling with
    supply := { inService := true, battery := .rideThrough }
    scan.points := [(2048, { accepted := .loop, duration := 24, pulses := 1, pending := some .digitEnd })] }

theorem witness_BatterySample_notices :
    State.reset.part.supply.decided = false ∧ State.reset.part.supply.battery = .normal ∧ 449 < 450 ∧
      State.reset.part.meters.save = none ∧ MaintRoom State.reset.part ∧ flagged.meters.engine = .idle ∧
      flagged.meters.dirty = 0 :: [] ∧ flagged.supply.battery = .normal ∧ MaintRoom flagged ∧
      ({ supply := { battery := .low } } : Part).supply.battery = .low ∧ 461 ≤ 461 ∧
      MaintRoom { supply := { battery := .low } } := by and_intros <;> decide

theorem witness_BatterySample_ends_the_freeze :
    TablesOk dialFrozen ∧ dialFrozen.supply.decided = false ∧ dialFrozen.supply.battery = .rideThrough ∧
      420 ≤ 420 ∧ dialFrozen.calls = [(3, call 3 dialFrozen)] ∧ (call 3 dialFrozen).state = .dialling ∧
      (call 3 dialFrozen).relPending = false ∧ (call 3 dialFrozen).set.cord = some 0 ∧
      (call 3 dialFrozen).owner = some .a ∧ (call 3 dialFrozen).pend = [] ∧
      (io (.ctl .a) dialFrozen).queue.length < 64 ∧ (point (2048 + 0) dialFrozen).accepted = .loop ∧
      1 ≤ (point (2048 + 0) dialFrozen).pulses ∧ (point (2048 + 0) dialFrozen).duration < 25 ∧
      (point (2048 + 0) dialFrozen).pending = some .digitEnd := by
  and_intros <;> first | decide | exact tablesOk_of_check (by decide)

theorem dialFrozen_quiet (p : Nat) (h : p ≠ 2048 + 0) : (point p dialFrozen).pending = none := by
  simp [point, dialFrozen, Table.get, Ne.symm h]

theorem witness_BatterySample_quiet_freeze :
    TablesOk frozenPart ∧ frozenPart.supply.decided = false ∧ frozenPart.supply.battery = .rideThrough ∧
      (∀ p, (point p frozenPart).pending = none) ∧ ∀ id, (call id frozenPart).state ≠ .dialling := by
  refine ⟨tablesOk_of_check (by decide), rfl, rfl, fun p => ?_, fun _ h => by cases h⟩
  simp only [point, frozenPart, Table.get]
  split
  · rfl
  · split
    · rfl
    · split <;> rfl

/-- An idle junction that shows LOOP after `run` scans, and the call that has reserved it, if one has. -/
def glaring (g : Glare) (o : Occupancy) (d : Direction) (run : Nat) : Part :=
  { net := { junctions := [(47, { route := some 7, dir := d, glare := g, elem := { occ := o } })] }
    scan := { points := [(2383, { run := run })] }
    calls := [(127, { state := .settingTerm, owner := some .a, dest := some (.route 7), op := .extension
                      term := some (.junction 47), set := { cord := some 88, tjunction := some 47 } })]
    orders := [{ id := 4, call := 127, act := .operate (.junctor 47 88 .t) }] }

theorem witness_SeizureOfALine_junction :
    TablesOk (glaring .hold .free .incoming 4) ∧ TablesOk (glaring .hold .free .incoming 5) ∧
      (junction 47 (glaring .hold .free .incoming 5)).sup = .idle ∧
      (junction 47 (glaring .hold .free .incoming 5)).elem.admin ≠ .busyOut ∧
      (point (2336 + 47) (glaring .hold .free .incoming 5)).accepted = .open_ ∧
      (point (2336 + 47) (glaring .hold .free .incoming 5)).pending = none ∧
      (junction 47 (glaring .hold .free .incoming 5)).elem.occ = .free ∧
      (point (2336 + 47) (glaring .hold .free .incoming 4)).run + 1 < 6 ∧
      (6 ≤ (point (2336 + 47) (glaring .hold .free .incoming 5)).run + 1 ∧
        (point (2336 + 47) (glaring .hold .free .incoming 5)).run + 1 ≤ 15) := by
  and_intros <;> first | decide | exact tablesOk_of_check (by decide)

theorem witness_SeizureOfALine_glare :
    TablesOk (glaring .hold .reserved .bothway 5) ∧ TablesOk (glaring .yield .reserved .bothway 5) ∧
      (junction 47 (glaring .hold .reserved .bothway 5)).elem.occ = .reserved ∧
      (junction 47 (glaring .yield .reserved .bothway 5)).glare = .yield ∧
      callOfElem (.junction 47) (glaring .yield .reserved .bothway 5) = some 127 ∧
      (call 127 (glaring .yield .reserved .bothway 5)).new.tjunction ≠ some 47 ∧
      (call 127 (glaring .yield .reserved .bothway 5)).dest = some (.route 7) ∧
      (call 127 (glaring .yield .reserved .bothway 5)).relPending = false ∧
      (glaring .yield .reserved .bothway 5).orig.rehunts = [] ∧
      junctorOrder 127 47 (glaring .yield .reserved .bothway 5) =
        some { id := 4, call := 127, act := .operate (.junctor 47 88 .t) } ∧
      isDispatched { id := 4, call := 127, act := .operate (.junctor 47 88 .t) }
        (glaring .yield .reserved .bothway 5) = true := by
  and_intros <;> first | decide | exact tablesOk_of_check (by decide)

theorem witness_SeizureOfALine_freed :
    let s : Part :=
      { net := { junctions := [(47, { pendDir := some .incoming, elem := { occ := .releasing } })] }
        scan := { points := [(2383, { accepted := .loop })] } }
    TablesOk s ∧ (junction 47 s).sup = .idle ∧ (junction 47 s).elem.admin = .inService ∧
      (junction 47 s).pendDir.getD (junction 47 s).dir ≠ .outgoing ∧ (point (2336 + 47) s).accepted = .loop := by
  and_intros <;> first | decide | exact tablesOk_of_check (by decide)

/-- The dialling call with a break on its O point, one sample from its end. -/
def breaking (b : Nat) : Part :=
  { dialling with scan.points := [(2048, { run := 1, duration := b + 1, pulses := 3 })] }

theorem witness_DigitEnd_breaks :
    TablesOk (breaking 19) ∧ TablesOk (breaking 20) ∧ TablesOk (breaking 50) ∧
      callOfElem (.cord 0) (breaking 20) = some 3 ∧ (call 3 (breaking 20)).set.cord = some 0 ∧
      (call 3 (breaking 20)).state = .dialling ∧ (call 3 (breaking 20)).relPending = false ∧
      (call 3 (breaking 20)).lineSpeaks = false ∧ (point (2048 + 0) (breaking 20)).accepted = .open_ ∧
      (point (2048 + 0) (breaking 20)).run = 1 ∧ 1 ≤ (point (2048 + 0) (breaking 20)).duration ∧
      (point (2048 + 0) (breaking 19)).duration - 1 < 20 ∧ 20 ≤ (point (2048 + 0) (breaking 20)).duration - 1 ∧
      50 ≤ (point (2048 + 0) (breaking 50)).duration - 1 ∧ (call 3 (breaking 20)).owner = some .a ∧
      (call 3 (breaking 20)).pend = [] ∧ (io (.ctl .a) (breaking 20)).queue.length < 64 := by
  and_intros <;> first | decide | exact tablesOk_of_check (by decide)

/-- A CALLED CLEARED call, and a ringing one of line 0. -/
def answering (st : CallState) : Part :=
  { inService with
    net := { lines := [(0, { cls := .ordinary, sup := .inCall 127 }), (64, { cls := .ordinary, sup := .inCall 127 })]
             cords := [(95, { occ := .held })] }
    calls :=
      [(127,
        { state := st, owner := some .a, origin := some (.line 0), originHeld := true, charged := some 0
          term := some (.line 64), band := some 15, units := 65520
          set := { cord := some 95, ring := true } })]
    charge := { tariff := [(60, { unitPeriod := 1800, answerUnits := 15 })] } }

theorem witness_CalledClear_hold_0 :
    TablesOk { clearing with timers.hold := 0 } ∧ Releasable 127 { clearing with timers.hold := 0 } ∧
      ({ clearing with timers.hold := 0 } : Part).timers.hold = 0 ∧
      callOfElem (.cord 95) { clearing with timers.hold := 0 } = some 127 ∧
      (call 127 { clearing with timers.hold := 0 }).state = .answered ∧
      (point (2144 + 95) { clearing with timers.hold := 0 }).pending = some .calledClear ∧
      50 ≤ (point (2144 + 95) { clearing with timers.hold := 0 }).duration := by
  and_intros <;> first
    | decide
    | exact tablesOk_of_check (by decide)
    | (intro c; cases c <;> decide)

theorem witness_CalledClear_answers :
    TablesOk (answering .calledCleared) ∧ (call 127 (answering .calledCleared)).relPending = false ∧
      (call 127 (answering .calledCleared)).owner = some .a ∧ (call 127 (answering .calledCleared)).pend = [] ∧
      (io (.ctl .a) (answering .calledCleared)).queue.length < 64 ∧
      (call 127 (answering .calledCleared)).state = .calledCleared ∧ TablesOk (answering .ringing) ∧
      (call 127 (answering .ringing)).state = .ringing ∧
      (call 127 (answering .ringing)).origin = some (.line 0) ∧
      (call 127 (answering .ringing)).set.cord = some 95 ∧ (call 127 (answering .ringing)).set.ring = true ∧
      (call 127 (answering .ringing)).coin = none ∧ (call 127 (answering .ringing)).charged = some 0 ∧
      (call 127 (answering .ringing)).band = some 15 ∧ ordersOf 127 (answering .ringing) = [] ∧
      (answering .ringing).supply.battery = .normal ∧ (answering .ringing).meters.save = none ∧
      (call 127 (answering .ringing)).units +
        (Table.get {} (answering .ringing).charge.tariff (4 * 15 + 0)).answerUnits = 65535 := by
  and_intros <;> first | decide | exact tablesOk_of_check (by decide)

/-- A coin call in release, its cord joined to its line or not. -/
def coinRelease (xps : List (Xp × XpState)) (ring : Bool) : Part :=
  { inService with
    calls :=
      [(127,
        { state := .releasing, owner := some .a, origin := some (.line 2047), originHeld := true, answered := true
          set := { fl := some 383, cord := some 95, ring := ring }, xps := xps, op := .release1, claim := 5
          coin := some { deposits := 999 } })] }

/-- The two crosspoints that join a line to its cord. -/
def joined : List (Xp × XpState) := [(.line 2047 383, .operated), (.plane 383 95 .o, .operated)]

theorem witness_DiallingCallIsReleased_coins :
    TablesOk (coinRelease joined true) ∧ (call 127 (coinRelease joined true)).state ≠ .free ∧
      (call 127 (coinRelease joined true)).origin = some (.line 2047) ∧
      (call 127 (coinRelease joined true)).set.cord = some 95 ∧
      (call 127 (coinRelease joined true)).xps = [(.line 2047 383, .operated), (.plane 383 95 .o, .operated)] ∧
      (call 127 (coinRelease joined true)).set.ring = true ∧ TablesOk (coinRelease [] false) ∧
      MaintRoom (coinRelease [] false) ∧ (call 127 (coinRelease [] false)).owner = some .a ∧
      (call 127 (coinRelease [] false)).coin = some { deposits := 999 } ∧
      (call 127 (coinRelease [] false)).set.ring = false ∧ (call 127 (coinRelease [] false)).xps = [] := by
  and_intros <;> first | decide | exact tablesOk_of_check (by decide)

/-- A charging coin call with a credit, or without. -/
def coinCall (k : Coin) : Part :=
  { net := { cords := [(95, { occ := .held })] }
    calls := [(3, { chargedCall with coin := some k, set := { cord := some 95 } })]
    scan := { points := [(2335, { run := 1, duration := 7 })] } }

theorem witness_TickCharges_coins :
    (coinCall { credit := 1 }).calls = [(3, call 3 (coinCall { credit := 1 }))] ∧
      (call 3 (coinCall { credit := 1 })).state = .answered ∧
      (call 3 (coinCall { credit := 1 })).charging = true ∧
      (call 3 (coinCall { credit := 1 })).coin = some { credit := 1 } ∧
      (call 3 (coinCall { credit := 1 })).relPending = false ∧
      (call 3 (coinCall { credit := 1 })).timer = none ∧
      1048576 ≤ (call 3 (coinCall { credit := 1 })).accum + (call 3 (coinCall { credit := 1 })).incr ∧
      (coinCall { credit := 1 }).tb.selection ≠ .station ∧ (coinCall { credit := 1 }).orig.queue = [] ∧
      (coinCall { credit := 1 }).cal.due = false ∧
      (∀ c, (ctl c (coinCall {})).present = true → (ctl c (coinCall {})).window < 20) ∧
      (coinCall {}).timers.grace ≠ 0 ∧ (call 3 (coinCall {})).owner = some .a ∧ (call 3 (coinCall {})).pend = [] ∧
      (io (.ctl .a) (coinCall {})).queue.length < 64 := by
  and_intros <;> first
    | decide
    | exact tablesOk_of_check (by decide)
    | (intro c; cases c <;> decide)

theorem witness_TickCharges_pulse :
    TablesOk (coinCall { owed := 1, grace := some (100, 0) }) ∧ TablesOk (coinCall { owed := 2 }) ∧
      TablesOk (coinCall { credit := 99, deposits := 998 }) ∧ TablesOk (coinCall { deposits := 999 }) ∧
      callOfElem (.cord 95) (coinCall {}) = some 3 ∧ (call 3 (coinCall {})).coin = some {} ∧
      (point (2240 + 95) (coinCall {})).accepted = .open_ ∧ (point (2240 + 95) (coinCall {})).run = 1 ∧
      TablesOk (coinRelease joined false) ∧ (call 127 (coinRelease joined false)).released = true := by
  and_intros <;> first | decide | exact tablesOk_of_check (by decide)

/-- A queued line at its limit that has shown OPEN for 25 scans. -/
theorem witness_WaitLimitExpires_due :
    let s : Part := { waitingOrigins with scan := { points := [(2047, { duration := 25 })] } }
    TablesOk s ∧ ({ origin := .line 2047, wait := 300, limit := 300 } : WaitEntry) ∈ s.orig.queue ∧
      (point 2047 s).accepted = .open_ ∧ 25 ≤ (point 2047 s).duration ∧ s.supply.battery ≠ .rideThrough ∧
      (point (2336 + 47) s).duration < 50 := by
  and_intros <;> first | decide | exact tablesOk_of_check (by decide)

theorem witness_Station_and_crystal_ticks :
    QuietForTick (stationAt .valid 0 .station .station false) ∧
      (stationAt .valid 0 .station .station false).tb.day ≤ 6 ∧
      MaintRoom (stationAt .valid 0 .station .station false) ∧ 100 ≤ 100 ∧
      QuietForTick { tb := { preferred := .crystal } } ∧ ({} : Part).tb.crystal = .starting ∧
      QuietForTick (stationAt .absent 0 .crystal .crystal false) ∧
      MaintRoom (stationAt .absent 0 .crystal .crystal false) ∧
      ({ tb := { preferred := .station, fallback := true } } : Part).tb.station ≠ .valid ∧
      MaintRoom { tb := { preferred := .station, fallback := true } } := by
  and_intros <;> first
    | decide
    | exact tablesOk_of_check (by decide)
    | (intro c; cases c <;> decide)

/-- A call whose last order is in the table. -/
def lastOrder (act : Action) (r : Call) : Part :=
  { inService with
    net := { lines := [(0, { cls := .ordinary, sup := .inCall 127 }), (2047, { cls := .ordinary, sup := .inCall 127 })]
             fls := [(383, { occ := .held })], cords := [(95, { occ := .reserved })] }
    scan := { points := [(0, { accepted := .loop, duration := 9 }), (2143, { accepted := .loop })] }
    calls := [(127, r)], orders := [{ id := 9, call := 127, act := act }] }

/-- The part at the end of an origin search. -/
def pathReady : Part :=
  { lastOrder (.operate (.plane 383 95 .o))
      { state := .settingOrigin, owner := some .a, origin := some (.line 2047), originHeld := true
        set := { fl := some 383, cord := some 95 }, claim := 2, op := .origin false
        xps := [(.line 2047 383, .operated), (.plane 383 95 .o, .operating)] } with
    scan := { points := [(2047, { accepted := .loop })] } }

/-- An extension to line 2,047 whose last order is in the table. -/
def extended (op : Operation) (act : Action) : Part :=
  lastOrder act
    { state := .settingTerm, owner := some .a, origin := some (.line 0), originHeld := true, op := op, claim := 3
      term := some (.line 2047), dest := some (.line 2047), set := { cord := some 95, tfl := some 383 } }

/-- A reswitch to line 2,047 whose last order of a step is in the table. -/
def reswitching (op : Operation) (act : Action) : Part :=
  lastOrder act
    { state := .settingTerm, owner := some .a, origin := some (.line 0), originHeld := true, op := op, claim := 7
      term := some (.line 2047), dest := some (.line 2047), reswitch := true, lineSpeaks := true
      old := { fl := some 0, cord := some 0 }, new := { fl := some 11, cord := some 95, tfl := some 383 } }

/-- A release whose last order is in the table. -/
def releasing : Part :=
  { lastOrder (.release (.plane 383 95 .o))
      { state := .releasing, owner := some .a, origin := some (.line 2047), originHeld := true, op := .release2
        claim := 5, set := { fl := some 383, cord := some 95 }, xps := [(.plane 383 95 .o, .releasing)] } with
    m := { restart := some { tag := 8, waiting := [127] } } }

/-- What holds of the outcome of a call's last order, whatever its operation. -/
def atLastOrder (s : Part) (o : Order) : Prop :=
  TablesOk s ∧ dispatched o.act.unit s = some o ∧ (∀ x ∈ s.orders, x.call = o.call → x.id = o.id) ∧
    (call o.call s).relPending = false ∧ (call o.call s).owner = some .a ∧ (call o.call s).pend = [] ∧
    (io (.ctl .a) s).queue.length < 64 ∧ s.scan.pos = none

theorem witness_OperateIsDone_origin :
    atLastOrder pathReady { id := 9, call := 127, act := .operate (.plane 383 95 .o) } ∧
      (call 127 pathReady).state = .settingOrigin ∧ (call 127 pathReady).op = .origin false ∧
      (call 127 pathReady).opFailed = false ∧ (call 127 pathReady).origin = some (.line 2047) ∧
      (call 127 pathReady).term = none ∧ (call 127 pathReady).set = { fl := some 383, cord := some 95 } ∧
      (call 127 pathReady).new = {} ∧
      (call 127 pathReady).xps = [(.line 2047 383, .operated), (.plane 383 95 .o, .operating)] ∧
      (elem (.fl 383) pathReady).occ = .held ∧ (elem (.cord 95) pathReady).occ = .reserved ∧
      callOfElem (.cord 95) pathReady = some 127 ∧ (point 2047 pathReady).accepted = .loop := by
  and_intros <;> first | decide | exact tablesOk_of_check (by decide)

theorem witness_OperateIsDone_extension (op : Operation) (act : Action)
    (h : op = .extension ∧ act = .ringOn 95 ∨ op = .reversal ∧ act = .ringOff 95) :
    atLastOrder (extended op act) { id := 9, call := 127, act := act } ∧
      (call 127 (extended op act)).state = .settingTerm ∧ (call 127 (extended op act)).opFailed = false ∧
      (call 127 (extended op act)).origin = some (.line 0) ∧
      (call 127 (extended op act)).term = some (.line 2047) ∧
      (call 127 (extended op act)).set.cord = some 95 ∧ (call 127 (extended op act)).reswitch = false ∧
      (call 127 (extended op act)).lineSpeaks = false ∧ (call 127 (extended op act)).new = {} ∧
      (extended op act).orig.rehunts = [] ∧ (line 0 (extended op act)).sup = .inCall 127 ∧
      (line 2047 (extended op act)).sup = .inCall 127 ∧ callOfElem (.cord 95) (extended op act) = some 127 ∧
      (point (2048 + 95) (extended op act)).accepted = .loop ∧
      (point (2048 + 95) (extended op act)).pulses = 0 ∧
      (point (2144 + 95) (extended op act)).accepted = .open_ ∧ (call 127 (extended op act)).op = op ∧
      (call 127 (extended op act)).dest = some (.line 2047) ∧
      (line 2047 (extended op act)).admin = .inService ∧ (line 2047 (extended op act)).pendCls = none := by
  obtain ⟨rfl, rfl⟩ | ⟨rfl, rfl⟩ := h <;> and_intros <;> first | decide | exact tablesOk_of_check (by decide)

theorem witness_OperateIsDone_reswitch (op : Operation) (act : Action)
    (h : op = .reswitch1 ∧ act = .release (.line 0 0) ∨ op = .reswitch2 ∧ act = .ringOn 95) :
    atLastOrder (reswitching op act) { id := 9, call := 127, act := act } ∧
      (call 127 (reswitching op act)).state = .settingTerm ∧ (call 127 (reswitching op act)).reswitch = true ∧
      (call 127 (reswitching op act)).opFailed = false ∧
      (call 127 (reswitching op act)).origin = some (.line 0) ∧
      (call 127 (reswitching op act)).term = some (.line 2047) ∧
      (call 127 (reswitching op act)).new = { fl := some 11, cord := some 95, tfl := some 383 } ∧
      (call 127 (reswitching op act)).op = op ∧
      (∀ e ∈ (Xp.line 0 0).elems, e ∉ (call 127 (reswitching op act)).new.elems) ∧
      (call 127 (reswitching op act)).set = {} ∧ (reswitching op act).orig.rehunts = [] ∧
      (line 0 (reswitching op act)).sup = .inCall 127 ∧ (line 2047 (reswitching op act)).sup = .inCall 127 ∧
      callOfElem (.cord 95) (reswitching op act) = some 127 ∧ (point 0 (reswitching op act)).accepted = .loop ∧
      (point (2144 + 95) (reswitching op act)).accepted = .open_ := by
  obtain ⟨rfl, rfl⟩ | ⟨rfl, rfl⟩ := h <;> and_intros <;> first | decide | exact tablesOk_of_check (by decide)

theorem witness_OperateIsDone_release :
    atLastOrder releasing { id := 9, call := 127, act := .release (.plane 383 95 .o) } ∧
      (call 127 releasing).op = .release2 ∧ (call 127 releasing).state = .releasing ∧
      releasing.m.restart = some { tag := 8, waiting := [127] } := by
  and_intros <;> first | decide | exact tablesOk_of_check (by decide)

/-- The coin release with its coin order in the table. -/
def collecting (act : Action) : Part :=
  { coinRelease joined false with
    orders := [{ id := 6, call := 127, act := act }], meters := { entries := [(2047, { count := 9999000 })] } }

theorem witness_OperateFails_coins (act : Action) (h : act = .collect 95 ∨ act = .refund 95) :
    TablesOk (collecting act) ∧
      dispatched act.unit (collecting act) = some { id := 6, call := 127, act := act } ∧
      (call 127 (collecting act)).op = .release1 ∧ (call 127 (collecting act)).relPending = false ∧
      (call 127 (collecting act)).coin = some { deposits := 999 } ∧
      (call 127 (collecting act)).origin = some (.line 2047) ∧ (call 127 (collecting act)).owner = some .a ∧
      (io .maint (collecting act)).queue.length < 31 ∧ (collecting act).m.held = [] ∧
      (collecting act).supply.battery = .normal ∧ (collecting act).meters.save = none ∧
      (meter 2047 (collecting act)).count + 999 = 9999999 := by
  obtain rfl | rfl := h <;> and_intros <;> first | decide | exact tablesOk_of_check (by decide)

/-- A line's origin search whose last order fails, with a number of origins queued. -/
def searchFails (x : Xp) (again : Bool) (fl : Option Nat) (xps : List (Xp × XpState)) (queued : Nat) : Part :=
  { lastOrder (.operate x)
      { state := .settingOrigin, owner := some .a, origin := some (.line 2047), originHeld := true
        set := { fl := fl, cord := some 95 }, claim := 2, op := .origin again, xps := xps } with
    net := { lines := [(2047, { cls := .ordinary, sup := .originating })], frames := [(31, { hunt := 11 })]
             fls := [(383, { occ := if fl = none then .faulty else .reserved })]
             cords := [(95, { occ := .reserved, admin := .busyOutPending })] }
    orig := { queue := List.replicate queued { origin := .junction 47, limit := 300 } } }

/-- The three ends of a search: its line crosspoint fails, its plane crosspoint fails, and both do. -/
def lineFails : Part :=
  searchFails (.line 2047 383) false (some 383) [(.line 2047 383, .operating), (.plane 383 95 .o, .operated)] 0
def planeFails (again : Bool) (queued : Nat) : Part :=
  searchFails (.plane 383 95 .o) again (some 383)
    [(.line 2047 383, .operated), (.plane 383 95 .o, .operating)] queued
def bothFail (x : Xp) : Part := searchFails x true none [(x, .operating)] 63

theorem witness_OperateFails_search :
    TablesOk lineFails ∧ MaintRoom lineFails ∧
      dispatched (Xp.line 2047 383).unit lineFails =
        some { id := 9, call := 127, act := .operate (.line 2047 383) } ∧
      (∀ x ∈ lineFails.orders, x.call = 127 → x.id = 9) ∧ (call 127 lineFails).state = .settingOrigin ∧
      (call 127 lineFails).relPending = false ∧ (call 127 lineFails).reswitch = false ∧
      (call 127 lineFails).op = .origin false ∧ (call 127 lineFails).origin = some (.line 2047) ∧
      (call 127 lineFails).old = {} ∧ (call 127 lineFails).new = {} ∧
      (elem (.cord 95) lineFails).occ ≠ .faulty ∧ callOfElem (.fl 383) lineFails = some 127 ∧
      (call 127 lineFails).set = { fl := some 383, cord := some 95 } := by
  and_intros <;> first | decide | exact tablesOk_of_check (by decide)

theorem witness_OperateFails_search_again :
    TablesOk (planeFails false 0) ∧ MaintRoom (planeFails false 0) ∧
      dispatched (Xp.plane 383 95 .o).unit (planeFails false 0) =
        some { id := 9, call := 127, act := .operate (.plane 383 95 .o) } ∧
      callOfElem (.fl 383) (planeFails false 0) = some 127 ∧
      findOriginPath 31 { planeFails false 0 with
        net.fls := [(383, { occ := .faulty })], net.cords := [(95, { admin := .busyOut })] } = some (0, 0) ∧
      TablesOk (planeFails true 64) ∧ (call 127 (planeFails true 64)).op = .origin true ∧
      (call 127 (planeFails true 64)).originHeld = true ∧ (line 2047 (planeFails true 64)).admin = .inService ∧
      (point 2047 (planeFails true 64)).accepted = .open_ ∧ (line 2047 (planeFails true 64)).sup = .originating ∧
      TablesOk (bothFail (.line 2047 383)) ∧ TablesOk (bothFail (.plane 383 95 .o)) ∧
      callOfElem (.fl 383) (bothFail (.line 2047 383)) = none ∧
      callOfElem (.fl 383) (bothFail (.plane 383 95 .o)) = none := by
  and_intros <;> first | decide | exact tablesOk_of_check (by decide)

/-- A junction's origin search whose one order fails. -/
def junctorFails : Part :=
  { lastOrder (.operate (.junctor 47 95 .o))
      { state := .settingOrigin, owner := some .a, origin := some (.junction 47), originHeld := true, claim := 2
        set := { junction := some 47, cord := some 95 }, op := .origin false
        xps := [(.junctor 47 95 .o, .operating)] } with
    net := { junctions := [(47, { route := some 7, sup := .originating, elem := { occ := .reserved } })]
             cords := [(95, { occ := .reserved })] }
    scan := { points := [(2383, { accepted := .loop })] } }

theorem witness_OperateFails_junction :
    TablesOk junctorFails ∧ MaintRoom junctorFails ∧
      dispatched (Xp.junctor 47 95 .o).unit junctorFails =
        some { id := 9, call := 127, act := .operate (.junctor 47 95 .o) } ∧
      (call 127 junctorFails).op = .origin false ∧ callOfElem (.junction 47) junctorFails = some 127 ∧
      (junction 47 junctorFails).sup = .originating ∧ (elem (.cord 95) junctorFails).occ ≠ .faulty ∧
      junctorFails.orig.queue = [] := by
  and_intros <;> first | decide | exact tablesOk_of_check (by decide)

/-- An extension to a line, or to a junction, whose last crosspoint order fails. -/
def extensionFails : Part :=
  lastOrder (.operate (.line 2047 383))
    { state := .settingTerm, owner := some .a, origin := some (.line 0), originHeld := true, op := .extension
      claim := 3, term := some (.line 2047), dest := some (.line 2047), band := some 2
      set := { fl := some 11, cord := some 95, tfl := some 383, ring := true }
      xps := [(.line 0 11, .operated), (.plane 11 95 .o, .operated), (.plane 383 95 .t, .operated),
        (.line 2047 383, .operating)] }
def junctorOut : Part :=
  { lastOrder (.operate (.junctor 47 95 .t))
      { state := .settingTerm, owner := some .a, origin := some (.line 0), originHeld := true, op := .extension
        claim := 1, term := some (.junction 47), dest := some (.route 7), band := some 2
        set := { fl := some 11, cord := some 95, tjunction := some 47 }
        xps := [(.line 0 11, .operated), (.plane 11 95 .o, .operated), (.junctor 47 95 .t, .operating)] } with
    net := { lines := [(0, { cls := .ordinary, sup := .inCall 127 })], cords := [(95, { occ := .held })]
             junctions := [(47, { route := some 7, elem := { occ := .reserved, admin := .busyOutPending } })] } }

theorem witness_OperateFails_extension :
    TablesOk extensionFails ∧ MaintRoom extensionFails ∧
      dispatched (Xp.line 2047 383).unit extensionFails =
        some { id := 9, call := 127, act := .operate (.line 2047 383) } ∧
      (call 127 extensionFails).op = .extension ∧ (call 127 extensionFails).state = .settingTerm ∧
      (call 127 extensionFails).lineSpeaks = false ∧ (call 127 extensionFails).reswitch = false ∧
      (elem (.fl 11) extensionFails).occ ≠ .faulty ∧ (elem (.cord 95) extensionFails).occ ≠ .faulty ∧
      callOfElem (.fl 383) extensionFails = some 127 ∧ callOfElem (.cord 95) extensionFails = some 127 ∧
      (line 2047 extensionFails).sup = .inCall 127 ∧ (line 2047 extensionFails).admin = .inService ∧
      (line 2047 extensionFails).pendCls = none ∧ (call 127 extensionFails).owner = some .a ∧
      (call 127 extensionFails).pend = [] ∧ TablesOk junctorOut ∧
      dispatched (Xp.junctor 47 95 .t).unit junctorOut =
        some { id := 9, call := 127, act := .operate (.junctor 47 95 .t) } ∧
      callOfElem (.junction 47) junctorOut = some 127 ∧ callOfElem (.cord 95) junctorOut = some 127 ∧
      (junction 47 junctorOut).sup = .idle ∧ junctorOut.orig.queue = [] ∧ junctorOut.orig.rehunts = [] ∧
      (call 127 junctorOut).dest = some (.route 7) ∧ (line 0 junctorOut).sup = .inCall 127 ∧
      (point (2048 + 95) junctorOut).accepted = .loop ∧ (point (2048 + 95) junctorOut).pulses = 0 := by
  and_intros <;> first | decide | exact tablesOk_of_check (by decide)

/-- A release of the two crosspoints of an origin path, the last of one or the first of two orders failing. -/
def releaseFails (x y : Xp) : Part :=
  { lastOrder (.release x)
      { state := .releasing, owner := some .a, origin := some (.line 2047), originHeld := true, op := .release2
        claim := 5, set := { fl := some 383, cord := some 95 }
        xps := [(.line 2047 383, .releasing), (.plane 383 95 .o, .releasing)] } with
    net.fls := [(383, { occ := .releasing })], net.cords := [(95, { occ := .releasing, admin := .busyOutPending })]
    orders := [{ id := 9, call := 127, act := .release x }] ++
      (if x = y then [] else [{ id := 10, call := 127, act := .release y }]) }

theorem witness_OperateFails_release (x y : Xp)
    (h : x = .line 2047 383 ∧ y = .plane 383 95 .o ∨ x = .plane 383 95 .o ∧ y = .line 2047 383) :
    TablesOk (releaseFails x y) ∧ MaintRoom (releaseFails x y) ∧
      dispatched x.unit (releaseFails x y) = some { id := 9, call := 127, act := .release x } ∧
      callOfElem (.fl 383) (releaseFails x y) = some 127 ∧ (call 127 (releaseFails x y)).reswitch = false ∧
      (call 127 (releaseFails x y)).set.tfl = none ∧ (call 127 (releaseFails x y)).new = {} ∧
      (∀ z, z ∈ (call 127 (releaseFails x y)).xps → z.2 ≠ .operated) ∧
      (call 127 (releaseFails x y)).set.cord = some 95 ∧ (elem (.cord 95) (releaseFails x y)).occ = .releasing ∧
      (∃ z, z ∈ (releaseFails x y).orders ∧ z.id ≠ 9 ∧ z.call = 127) ∧
      (x = .plane 383 95 .o → .cord 95 ∉ y.elems) ∧
      dispatched x.unit (releaseFails x x) = some { id := 9, call := 127, act := .release x } ∧
      (∀ z ∈ (releaseFails x x).orders, z.call = 127 → z.id = 9) ∧ x.blame = .fl 383 := by
  obtain ⟨rfl, rfl⟩ | ⟨rfl, rfl⟩ := h <;> and_intros <;> first | decide | exact tablesOk_of_check (by decide)

/-- An answered call with its answer orders in the table, or the last of them. -/
def answerFails (act : Action) (others : List Order) : Part :=
  { lastOrder act
      { state := .answered, owner := some .a, origin := some (.line 0), originHeld := true, op := .answer
        claim := 2, term := some (.line 2047), set := { cord := some 95 } } with
    orders := [{ id := 9, call := 127, act := act }] ++ others }

theorem witness_OperateFails_ring (act : Action) (others : List Order) (h : act = .ringOff 95 ∨ act = .reverse 95)
    (h' : others = [] ∨ others = [{ id := 10, call := 127, act := .reverse 95 }]) :
    TablesOk (answerFails act others) ∧
      dispatched act.unit (answerFails act others) = some { id := 9, call := 127, act := act } ∧
      (call 127 (answerFails act others)).relPending = false ∧ (call 127 (answerFails act others)).op = .answer ∧
      (call 127 (answerFails act others)).owner = some .a ∧ (call 127 (answerFails act others)).pend = [] ∧
      (io (.ctl .a) (answerFails act others)).queue.length < 63 ∧
      (others = [] → ∀ x ∈ (answerFails act others).orders, x.call = 127 → x.id = 9) ∧
      (others ≠ [] → ∃ x, x ∈ (answerFails act others).orders ∧ x.id ≠ 9 ∧ x.call = 127) := by
  obtain rfl | rfl := h <;> obtain rfl | rfl := h' <;> and_intros <;>
    first | decide | exact tablesOk_of_check (by decide)

/-- RING ON of an extension fails, at the premises of `witness_OperateIsDone_extension`. -/
theorem witness_OperateFails_ringOn :
    (extended .extension (.ringOn 95)).orig.rehunts = [] ∧
      (io (.ctl .a) (extended .extension (.ringOn 95))).queue.length < 63 := by decide

/-- A marked line with no path, so that the server queues it. -/
def blocked : Part := { marked with net.fls := (List.range 12).map (fun k => (24 + k, { occ := .held })) }

/-- A call that waits for its re-hunt, and the junction it may find. -/
def rehunting (other : Table Junction) : Part :=
  { inService with
    net := { lines := [(0, { cls := .ordinary, sup := .inCall 3 })], cords := [(95, { occ := .held })]
             junctions := other }
    scan := { points := [(2143, { accepted := .loop })] }
    calls := [(3, { state := .settingTerm, owner := some .a, origin := some (.line 0), originHeld := true
                    dest := some (.route 7), band := some 1, set := { cord := some 95 } })]
    orig := { request := some 1, rehunts := [{ call := 3, route := 7, junction := 47 }] } }

theorem witness_ArbiterKeepsPlacesForReleases_grants :
    TablesOk State.reset.part ∧ grantee State.reset.part = none ∧ TablesOk crowded ∧
      grantee crowded = some .release ∧ crowded.arb.releaseWait = 1 :: [] ∧ TablesOk blocked ∧
      grantee blocked = some .server ∧ blocked.orig.request = some 2 ∧
      chooseWork blocked = some (.enqueue (.line 130)) ∧ grantee { marked with orig.request := some 1 } =
        some .server ∧ chooseWork { marked with orig.request := some 1 } = some (.serve (.line 130)) ∧
      1 < (Work.serve (.line 130)).need { marked with orig.request := some 1 } ∧
      TablesOk { inService with orig.request := some 2 } ∧
      grantee { inService with orig.request := some 2 } = some .server ∧
      chooseWork { inService with orig.request := some 2 } = none := by
  and_intros <;> first | decide | exact tablesOk_of_check (by decide)

theorem witness_ArbiterKeepsPlacesForReleases_rehunt (js : Table Junction) (h : js = [] ∨ js = [(35, { route := some 7 })]) :
    TablesOk (rehunting js) ∧ grantee (rehunting js) = some .server ∧ (rehunting js).orig.request = some 1 ∧
      chooseWork (rehunting js) = some (.rehunt { call := 3, route := 7, junction := 47 }) ∧
      1 + (call 3 (rehunting js)).answerPlaces ≤ 1 ∧ (call 3 (rehunting js)).set.cord = some 95 ∧
      hunt 7 ((47 + 1) % 48) (fun k => decide (k = 95 / 8)) (rehunting js) =
        (if js = [] then none else some 35) ∧
      (call 3 (rehunting js)).dest = some (.route 7) ∧
      (call 3 (rehunting js)).owner = some .a ∧ (call 3 (rehunting js)).pend = [] ∧
      (io (.ctl .a) (rehunting js)).queue.length < 64 ∧ (call 3 (rehunting js)).origin = some (.line 0) ∧
      (line 0 (rehunting js)).sup = .inCall 3 ∧ (call 3 (rehunting js)).lineSpeaks = false ∧
      (call 3 (rehunting js)).new = {} ∧ callOfElem (.cord 95) (rehunting js) = some 3 ∧
      (point (2048 + 95) (rehunting js)).accepted = .loop ∧ (point (2048 + 95) (rehunting js)).pulses = 0 := by
  obtain rfl | rfl := h <;> and_intros <;> first | decide | exact tablesOk_of_check (by decide)

theorem witness_GrantServesALine_cleared :
    let s : Part := { marked with scan := { points := [(130, { duration := 50 })] } }
    TablesOk s ∧ grantee s = some .server ∧ chooseWork s = some (.serve (.line 130)) ∧ lowestFree s = some 0 ∧
      (point 130 s).accepted = .open_ ∧ 50 ≤ (point 130 s).duration ∧ s.supply.battery ≠ .rideThrough ∧
      Unawaited 0 s := by
  and_intros <;> first
    | decide
    | exact tablesOk_of_check (by decide)
    | (intro c; cases c <;> decide)

theorem witness_GrantServesALine_path :
    (frame 2 marked).hunt < 12 ∧ findOriginPath 2 marked = some (11, 88) ∧ (frame 2 blocked).hunt < 12 ∧
      findOriginPath 2 blocked = none ∧ (frame 2 marked).home = some .a ∧ (ctl .a marked).present = true ∧
      (ctl .a { marked with a.present := false, b.present := true }).present = false ∧
      markedOrigins marked = [.line 130] ∧ canServe (.line 130) marked = true ∧
      canServe (.line 130) blocked = false := by decide

/-- Marked origins about the rotating pointer: the point after it comes first, its own point last. -/
def markedAround : Part :=
  { net := { lines := [(5, { marked := true }), (70, { marked := true }), (71, { marked := true }), (72, { cls := .coin })]
             junctions := [(47, { marked := true })] }
    orig := { pointer := 70 } }

theorem witness_GrantServesALine_marked :
    TablesOk markedAround ∧ markedAround.orig.pointer < 2384 ∧
      markedOrigins markedAround = [.line 71, .junction 47, .line 5, .line 70] := by
  and_intros <;> first | decide | exact tablesOk_of_check (by decide)

/-- R22: when its called line leaves an ANSWERED call, CALLED CLEAR is no longer armed at the cord's T point. -/
theorem test_leaveTerm_disarms :
    (point 2239 clearing).pending = some .calledClear ∧ (point 2239 (leaveTerm 127 clearing)).pending = none := by
  decide

/-! ## Junctions -/

/-- A FAULTY junction, one in a call, one HELD UNSERVED, one whose call is being set up, and a queued one with
pending changes; an OPEN of 50 scans on each. -/
def farEnds : Part :=
  { inService with
    net.junctions :=
      [(0, { elem := { occ := .faulty }, pendDir := some .bothway }),
        (1, { elem := { occ := .held }, sup := .inCall .incoming 5 }),
        (2, { sup := .heldUnserved, pendDir := some .incoming }),
        (3, { elem := { occ := .reserved }, sup := .originating }),
        (47, { sup := .originating, marked := true, pendRoute := some 7, pendDir := some .incoming })]
    orig.queue := [{ origin := .junction 47, limit := 300 }]
    calls := [(6, { state := .settingOrigin, origin := some (.junction 3), originHeld := true })]
    scan.points :=
      [(2336, { accepted := .loop, duration := 9 }), (2338, { duration := 50, pending := some .farEndClear }),
        (2339, { duration := 50, pending := some .farEndClear }),
        (2383, { duration := 50, pending := some .farEndClear })] }

theorem witness_BusyOutOfElements_junction :
    MaintTakes farEnds ∧ TablesOk farEnds ∧ (junction 47 farEnds).elem.admin = .inService ∧
      (junction 47 farEnds).elem.occ = .free ∧ (junction 47 farEnds).sup = .originating ∧
      (junction 0 farEnds).elem.occ = .faulty ∧ (junction 0 farEnds).sup = .idle ∧
      (junction 1 farEnds).sup = .inCall .incoming 5 := by
  and_intros <;> first | decide | exact tablesOk_of_check (by decide)

/-- A junction that is FREE and BUSY OUT while its call has not reached CLOSED. -/
def leaving : Part :=
  { net.junctions := [(47, { elem := { admin := .busyOut }, sup := .inCall .outgoing 9 })]
    scan.points := [(2383, { accepted := .normal, duration := 4 })] }

theorem witness_ReturnOfElements_junction :
    MaintTakes farEnds ∧ TablesOk farEnds ∧ ordered (.junction 0) farEnds = false ∧
      (junction 0 farEnds).elem.occ = .faulty ∧ (junction 0 farEnds).sup = .idle ∧
      (junction 47 farEnds).elem.admin = .inService ∧
      (junction 1 farEnds).sup = .inCall .incoming 5 ∧ MaintTakes leaving ∧ TablesOk leaving ∧
      (junction 47 leaving).elem = { occ := .free, admin := .busyOut } := by
  and_intros <;> first | decide | exact tablesOk_of_check (by decide)

theorem witness_CallerClearReleases_junction :
    TablesOk farEnds ∧ farEnds.supply.battery ≠ .rideThrough ∧ Releasable 6 farEnds ∧
      (junction 3 farEnds).sup = .originating ∧ callOf (.junction 3) farEnds = some 6 ∧
      (junction 2 farEnds).sup = .heldUnserved ∧ (junction 47 farEnds).sup = .originating ∧
      callOf (.junction 47) farEnds = none ∧
      ∀ j ∈ [2, 3, 47], (point (2336 + j) farEnds).pending = some .farEndClear ∧
        50 ≤ (point (2336 + j) farEnds).duration := by
  and_intros <;> first
    | decide
    | exact tablesOk_of_check (by decide)
    | (intro c; cases c <;> decide)

/-- A call of line 0 by outgoing junction 47, whose point shows a polarity for `run` samples against its accepted
state. -/
def outgoing (st : CallState) (v : PointState) (run : Nat) : Part :=
  { answering st with
    net := { lines := [(0, { cls := .ordinary, sup := .inCall 127 })], cords := [(95, { occ := .held })]
             junctions := [(47, { elem := { occ := .held }, sup := .inCall .outgoing 127 })] }
    calls :=
      [(127,
        { state := st, owner := some .a, origin := some (.line 0), originHeld := true, charged := some 0
          term := some (.junction 47), band := some 15, units := 65520
          set := { cord := some 95, tjunction := some 47 } })]
    scan := { points := [(2383, { accepted := v, candidate := v, run := run, duration := 1023 })] } }

theorem witness_CalledClear_outgoing (st : CallState) (v : PointState) (run : Nat)
    (h : (st, v, run) ∈ [(.awaitingAnswer, .normal, 0), (.awaitingAnswer, .normal, 1), (.answered, .reversed, 1),
      (.calledCleared, .normal, 1), (.ringing, .normal, 1)]) :
    TablesOk (outgoing st v run) ∧ (junction 47 (outgoing st v run)).sup = .inCall .outgoing 127 ∧
      (point (2336 + 47) (outgoing st v run)).pending = none ∧
      (point (2336 + 47) (outgoing st v run)).accepted = v ∧
      (point (2336 + 47) (outgoing st v run)).run = run ∧
      (call 127 (outgoing st v run)).state = st ∧ (call 127 (outgoing st v run)).relPending = false ∧
      (call 127 (outgoing st v run)).owner = some .a ∧ (call 127 (outgoing st v run)).pend = [] ∧
      (io (.ctl .a) (outgoing st v run)).queue.length < 64 ∧ (outgoing st v run).timers.hold ≠ 0 ∧
      (call 127 (outgoing st v run)).origin = some (.line 0) ∧
      (call 127 (outgoing st v run)).set.cord = some 95 ∧ (call 127 (outgoing st v run)).coin = none ∧
      (call 127 (outgoing st v run)).charged = some 0 ∧ (call 127 (outgoing st v run)).band = some 15 ∧
      ordersOf 127 (outgoing st v run) = [] ∧ (outgoing st v run).supply.battery = .normal ∧
      (outgoing st v run).meters.save = none ∧
      (call 127 (outgoing st v run)).units +
        (Table.get {} (outgoing st v run).charge.tariff (4 * 15 + 0)).answerUnits = 65535 := by
  simp only [List.mem_cons, Prod.mk.injEq, List.not_mem_nil, or_false] at h
  obtain ⟨rfl, rfl, rfl⟩ | ⟨rfl, rfl, rfl⟩ | ⟨rfl, rfl, rfl⟩ | ⟨rfl, rfl, rfl⟩ | ⟨rfl, rfl, rfl⟩ := h <;>
    and_intros <;> first | decide | exact tablesOk_of_check (by decide)

/-- Junction 47 with the junctor order of its call as the last, at an end of cord 95. -/
def junctorOrdered (side : CordEnd) (r : Call) : Part :=
  { lastOrder (.operate (.junctor 47 95 side)) r with
    net := { lines := [(0, { cls := .ordinary, sup := .inCall 127 })]
             cords := [(95, { occ := if side = .o then .reserved else .held })]
             junctions := [(47, { route := some 7, dir := .bothway, elem := { occ := .reserved }
                                  sup := if side = .o then .originating else .idle })] }
    scan := { points := [(2143, { accepted := .loop }), (2383, { accepted := .loop, duration := 9 })] } }

/-- The end of an origin search for junction 47. -/
def junctionReady : Part :=
  junctorOrdered .o
    { state := .settingOrigin, owner := some .a, origin := some (.junction 47), originHeld := true, claim := 2
      op := .origin false, set := { junction := some 47, cord := some 95 }
      xps := [(.junctor 47 95 .o, .operating)] }

/-- The end of an extension to junction 47. -/
def junctionHunted : Part :=
  junctorOrdered .t
    { state := .settingTerm, owner := some .a, origin := some (.line 0), originHeld := true, claim := 1
      op := .extension, term := some (.junction 47), dest := some (.route 7)
      set := { cord := some 95, tjunction := some 47 }, xps := [(.junctor 47 95 .t, .operating)] }

theorem witness_OperateIsDone_junctor :
    atLastOrder junctionReady { id := 9, call := 127, act := .operate (.junctor 47 95 .o) } ∧
      (call 127 junctionReady).state = .settingOrigin ∧ (call 127 junctionReady).op = .origin false ∧
      (call 127 junctionReady).origin = some (.junction 47) ∧ (call 127 junctionReady).term = none ∧
      (call 127 junctionReady).set = { junction := some 47, cord := some 95 } ∧
      (call 127 junctionReady).xps = [(.junctor 47 95 .o, .operating)] ∧
      (junction 47 junctionReady).elem.occ = .reserved ∧ (elem (.cord 95) junctionReady).occ = .reserved ∧
      (junction 47 junctionReady).route = some 7 ∧ callOfElem (.cord 95) junctionReady = some 127 ∧
      (point (2336 + 47) junctionReady).accepted = .loop ∧
      atLastOrder junctionHunted { id := 9, call := 127, act := .operate (.junctor 47 95 .t) } ∧
      (call 127 junctionHunted).state = .settingTerm ∧ (call 127 junctionHunted).op = .extension ∧
      (call 127 junctionHunted).yielded = false ∧ (call 127 junctionHunted).origin = some (.line 0) ∧
      (call 127 junctionHunted).term = some (.junction 47) ∧ (call 127 junctionHunted).set.cord = some 95 ∧
      junctionHunted.orig.rehunts = [] ∧ (junction 47 junctionHunted).elem.occ = .reserved ∧
      (elem (.cord 95) junctionHunted).occ = .held ∧ (line 0 junctionHunted).sup = .inCall 127 ∧
      callOfElem (.cord 95) junctionHunted = some 127 ∧ (point (2048 + 95) junctionHunted).accepted = .loop ∧
      (point (2048 + 95) junctionHunted).pulses = 0 := by
  and_intros <;> first | decide | exact tablesOk_of_check (by decide)

/-- A marked junction of plane 11 whose route has a home, with the lowest cord of the plane taken; its far end holds the
loop, or has opened it for 50 scans. -/
def markedJunction (v : PointState) : Part :=
  { inService with
    net := { routes := [(7, { home := some .a })], cords := [(88, { occ := .held })]
             junctions := [(47, { route := some 7, dir := .incoming, sup := .originating, marked := true })] }
    scan := { points := [(2383, { accepted := v, duration := 50 })] }
    orig := { request := some 2 } }

theorem witness_GrantServesALine_junction (v : PointState) (h : v = .loop ∨ v = .open_) :
    TablesOk (markedJunction v) ∧ grantee (markedJunction v) = some .server ∧
      chooseWork (markedJunction v) = some (.serve (.junction 47)) ∧ lowestFree (markedJunction v) = some 0 ∧
      89 / 8 = 47 % 12 ∧ avail (.cord 89) (markedJunction v) = true ∧
      (∀ x, x / 8 = 47 % 12 → x < 89 → avail (.cord x) (markedJunction v) = false) ∧
      (junction 47 (markedJunction v)).sup = .originating ∧ callOf (.junction 47) (markedJunction v) = none ∧
      (point (2336 + 47) (markedJunction v)).accepted = v ∧ Unawaited 0 (markedJunction v) := by
  obtain rfl | rfl := h <;> and_intros <;> first
    | decide
    | exact tablesOk_of_check (by decide)
    | (intro c; cases c <;> decide)
    | (intro x h1 h2; obtain rfl : x = 88 := by omega
       decide)

end Sys2Proof.Tests
end

section
/-!
PROOFS. The part after reset (R17, R41, R58, R84, R107, R122, R152, R163, R167, R185, R193).
-/

namespace Sys2Proof.Machine

/-- Every element of the part after reset is FREE and IN SERVICE (R17). -/
theorem elem_reset (e : ElemId) : elem e State.reset.part = { occ := .free, admin := .inService } := by
  cases e <;> rfl

/-- Both controllers' ports are empty after reset (R185, R193). -/
theorem ctl_reset (c : Ctl) : ctl c State.reset.part = {} := by
  cases c <;> rfl

/-- Settles O2, clause by clause: every table of the part after reset is empty, so a record reads as the `{}` of its
type, and every other field is a literal of `State.reset`. -/
theorem resetIsLoading : Obligations.ResetIsLoading := by
  refine ⟨rfl, rfl, rfl, rfl, rfl, rfl, fun _ => rfl, fun _ => rfl, fun _ => rfl, fun _ => rfl, elem_reset,
    fun _ => ⟨rfl, rfl, rfl, rfl, rfl⟩, rfl, rfl, rfl, rfl, rfl, rfl, rfl, fun _ => ⟨rfl, rfl, rfl, rfl⟩, rfl,
    fun _ => rfl, rfl, rfl, fun _ => ⟨rfl, rfl⟩, rfl, rfl, rfl, rfl, rfl, rfl, rfl, rfl, rfl, rfl, rfl, rfl, rfl,
    fun _ => rfl, rfl, rfl, rfl, rfl, fun c => ?_, rfl⟩
  rw [ctl_reset c]
  exact ⟨rfl, rfl, rfl, rfl, rfl, rfl⟩

end Sys2Proof.Machine
end

section
/-!
SUPPORT. Reading one record after one change: for every change of one record, what each other read gives (the same),
and what the read of the changed table gives, where the tables are in canonical form.
-/

namespace Sys2Proof.Machine

variable {s : Part}

@[simp] theorem elem_junction (j : Nat) (s : Part) : elem (.junction j) s = (junction j s).elem := rfl

@[simp] theorem modElem_junction (j : Nat) (f : Element → Element) (s : Part) :
    modElem (.junction j) f s = modJunction j (fun r => { r with elem := f r.elem }) s := rfl

/-! ## Reads beside modLine -/

@[simp] theorem frame_modLine (x : Nat) (f : Line → Line) (k : Nat) : frame k (modLine x f s) = frame k s := rfl
@[simp] theorem junction_modLine (x : Nat) (f : Line → Line) (k : Nat) :
    junction k (modLine x f s) = junction k s := rfl
@[simp] theorem elem_modLine (x : Nat) (f : Line → Line) (k : ElemId) :
    elem k (modLine x f s) = elem k s := by cases k <;> rfl
@[simp] theorem call_modLine (x : Nat) (f : Line → Line) (k : Nat) : call k (modLine x f s) = call k s := rfl
@[simp] theorem point_modLine (x : Nat) (f : Line → Line) (k : Nat) : point k (modLine x f s) = point k s := rfl
@[simp] theorem meter_modLine (x : Nat) (f : Line → Line) (k : Nat) : meter k (modLine x f s) = meter k s := rfl
@[simp] theorem io_modLine (x : Nat) (f : Line → Line) (k : Port) :
    io k (modLine x f s) = io k s := by rcases k with (_ | _) | _ <;> rfl

/-! ## Reads beside modFrame -/

@[simp] theorem line_modFrame (x : Nat) (f : Frame → Frame) (k : Nat) : line k (modFrame x f s) = line k s := rfl
@[simp] theorem junction_modFrame (x : Nat) (f : Frame → Frame) (k : Nat) :
    junction k (modFrame x f s) = junction k s := rfl
@[simp] theorem elem_modFrame (x : Nat) (f : Frame → Frame) (k : ElemId) :
    elem k (modFrame x f s) = elem k s := by cases k <;> rfl
@[simp] theorem call_modFrame (x : Nat) (f : Frame → Frame) (k : Nat) : call k (modFrame x f s) = call k s := rfl
@[simp] theorem point_modFrame (x : Nat) (f : Frame → Frame) (k : Nat) : point k (modFrame x f s) = point k s := rfl
@[simp] theorem meter_modFrame (x : Nat) (f : Frame → Frame) (k : Nat) : meter k (modFrame x f s) = meter k s := rfl
@[simp] theorem io_modFrame (x : Nat) (f : Frame → Frame) (k : Port) :
    io k (modFrame x f s) = io k s := by rcases k with (_ | _) | _ <;> rfl

/-! ## Reads beside modJunction -/

@[simp] theorem line_modJunction (x : Nat) (f : Junction → Junction) (k : Nat) :
    line k (modJunction x f s) = line k s := rfl
@[simp] theorem frame_modJunction (x : Nat) (f : Junction → Junction) (k : Nat) :
    frame k (modJunction x f s) = frame k s := rfl
@[simp] theorem call_modJunction (x : Nat) (f : Junction → Junction) (k : Nat) :
    call k (modJunction x f s) = call k s := rfl
@[simp] theorem point_modJunction (x : Nat) (f : Junction → Junction) (k : Nat) :
    point k (modJunction x f s) = point k s := rfl
@[simp] theorem meter_modJunction (x : Nat) (f : Junction → Junction) (k : Nat) :
    meter k (modJunction x f s) = meter k s := rfl
@[simp] theorem io_modJunction (x : Nat) (f : Junction → Junction) (k : Port) :
    io k (modJunction x f s) = io k s := by rcases k with (_ | _) | _ <;> rfl

/-! ## Reads beside modElem -/

@[simp] theorem line_modElem (x : ElemId) (f : Element → Element) (k : Nat) :
    line k (modElem x f s) = line k s := by cases x <;> rfl
@[simp] theorem frame_modElem (x : ElemId) (f : Element → Element) (k : Nat) :
    frame k (modElem x f s) = frame k s := by cases x <;> rfl
@[simp] theorem call_modElem (x : ElemId) (f : Element → Element) (k : Nat) :
    call k (modElem x f s) = call k s := by cases x <;> rfl
@[simp] theorem point_modElem (x : ElemId) (f : Element → Element) (k : Nat) :
    point k (modElem x f s) = point k s := by cases x <;> rfl
@[simp] theorem meter_modElem (x : ElemId) (f : Element → Element) (k : Nat) :
    meter k (modElem x f s) = meter k s := by cases x <;> rfl
@[simp] theorem io_modElem (x : ElemId) (f : Element → Element) (k : Port) :
    io k (modElem x f s) = io k s := by cases x <;> rcases k with (_ | _) | _ <;> rfl

/-! ## Reads beside modCall -/

@[simp] theorem line_modCall (x : Nat) (f : Call → Call) (k : Nat) : line k (modCall x f s) = line k s := rfl
@[simp] theorem frame_modCall (x : Nat) (f : Call → Call) (k : Nat) : frame k (modCall x f s) = frame k s := rfl
@[simp] theorem junction_modCall (x : Nat) (f : Call → Call) (k : Nat) :
    junction k (modCall x f s) = junction k s := rfl
@[simp] theorem elem_modCall (x : Nat) (f : Call → Call) (k : ElemId) :
    elem k (modCall x f s) = elem k s := by cases k <;> rfl
@[simp] theorem point_modCall (x : Nat) (f : Call → Call) (k : Nat) : point k (modCall x f s) = point k s := rfl
@[simp] theorem meter_modCall (x : Nat) (f : Call → Call) (k : Nat) : meter k (modCall x f s) = meter k s := rfl
@[simp] theorem io_modCall (x : Nat) (f : Call → Call) (k : Port) :
    io k (modCall x f s) = io k s := by rcases k with (_ | _) | _ <;> rfl

/-! ## Reads beside modPoint -/

@[simp] theorem line_modPoint (x : Nat) (f : ScanEntry → ScanEntry) (k : Nat) :
    line k (modPoint x f s) = line k s := rfl
@[simp] theorem frame_modPoint (x : Nat) (f : ScanEntry → ScanEntry) (k : Nat) :
    frame k (modPoint x f s) = frame k s := rfl
@[simp] theorem junction_modPoint (x : Nat) (f : ScanEntry → ScanEntry) (k : Nat) :
    junction k (modPoint x f s) = junction k s := rfl
@[simp] theorem elem_modPoint (x : Nat) (f : ScanEntry → ScanEntry) (k : ElemId) :
    elem k (modPoint x f s) = elem k s := by cases k <;> rfl
@[simp] theorem call_modPoint (x : Nat) (f : ScanEntry → ScanEntry) (k : Nat) :
    call k (modPoint x f s) = call k s := rfl
@[simp] theorem meter_modPoint (x : Nat) (f : ScanEntry → ScanEntry) (k : Nat) :
    meter k (modPoint x f s) = meter k s := rfl
@[simp] theorem io_modPoint (x : Nat) (f : ScanEntry → ScanEntry) (k : Port) :
    io k (modPoint x f s) = io k s := by rcases k with (_ | _) | _ <;> rfl

/-! ## Reads beside modMeter -/

@[simp] theorem line_modMeter (x : Nat) (f : MeterEntry → MeterEntry) (k : Nat) :
    line k (modMeter x f s) = line k s := rfl
@[simp] theorem frame_modMeter (x : Nat) (f : MeterEntry → MeterEntry) (k : Nat) :
    frame k (modMeter x f s) = frame k s := rfl
@[simp] theorem junction_modMeter (x : Nat) (f : MeterEntry → MeterEntry) (k : Nat) :
    junction k (modMeter x f s) = junction k s := rfl
@[simp] theorem elem_modMeter (x : Nat) (f : MeterEntry → MeterEntry) (k : ElemId) :
    elem k (modMeter x f s) = elem k s := by cases k <;> rfl
@[simp] theorem call_modMeter (x : Nat) (f : MeterEntry → MeterEntry) (k : Nat) :
    call k (modMeter x f s) = call k s := rfl
@[simp] theorem point_modMeter (x : Nat) (f : MeterEntry → MeterEntry) (k : Nat) :
    point k (modMeter x f s) = point k s := rfl
@[simp] theorem io_modMeter (x : Nat) (f : MeterEntry → MeterEntry) (k : Port) :
    io k (modMeter x f s) = io k s := by rcases k with (_ | _) | _ <;> rfl

/-! ## Reads beside modMeters -/

@[simp] theorem line_modMeters (f : MeterStore → MeterStore) (k : Nat) : line k (modMeters f s) = line k s := rfl
@[simp] theorem frame_modMeters (f : MeterStore → MeterStore) (k : Nat) : frame k (modMeters f s) = frame k s := rfl
@[simp] theorem junction_modMeters (f : MeterStore → MeterStore) (k : Nat) :
    junction k (modMeters f s) = junction k s := rfl
@[simp] theorem elem_modMeters (f : MeterStore → MeterStore) (k : ElemId) :
    elem k (modMeters f s) = elem k s := by cases k <;> rfl
@[simp] theorem call_modMeters (f : MeterStore → MeterStore) (k : Nat) : call k (modMeters f s) = call k s := rfl
@[simp] theorem point_modMeters (f : MeterStore → MeterStore) (k : Nat) : point k (modMeters f s) = point k s := rfl
@[simp] theorem io_modMeters (f : MeterStore → MeterStore) (k : Port) :
    io k (modMeters f s) = io k s := by rcases k with (_ | _) | _ <;> rfl

/-! ## Reads beside modIo -/

@[simp] theorem line_modIo (x : Port) (f : PortIo → PortIo) (k : Nat) :
    line k (modIo x f s) = line k s := by rcases x with (_ | _) | _ <;> rfl
@[simp] theorem frame_modIo (x : Port) (f : PortIo → PortIo) (k : Nat) :
    frame k (modIo x f s) = frame k s := by rcases x with (_ | _) | _ <;> rfl
@[simp] theorem junction_modIo (x : Port) (f : PortIo → PortIo) (k : Nat) :
    junction k (modIo x f s) = junction k s := by rcases x with (_ | _) | _ <;> rfl
@[simp] theorem elem_modIo (x : Port) (f : PortIo → PortIo) (k : ElemId) :
    elem k (modIo x f s) = elem k s := elem_congr (modIo_net s x f) k
@[simp] theorem call_modIo (x : Port) (f : PortIo → PortIo) (k : Nat) :
    call k (modIo x f s) = call k s := by rcases x with (_ | _) | _ <;> rfl
@[simp] theorem point_modIo (x : Port) (f : PortIo → PortIo) (k : Nat) :
    point k (modIo x f s) = point k s := by rcases x with (_ | _) | _ <;> rfl
@[simp] theorem meter_modIo (x : Port) (f : PortIo → PortIo) (k : Nat) :
    meter k (modIo x f s) = meter k s := by rcases x with (_ | _) | _ <;> rfl

/-! ## Reads beside modMaint -/

@[simp] theorem line_modMaint (f : MaintPort → MaintPort) (k : Nat) : line k (modMaint f s) = line k s := rfl
@[simp] theorem frame_modMaint (f : MaintPort → MaintPort) (k : Nat) : frame k (modMaint f s) = frame k s := rfl
@[simp] theorem junction_modMaint (f : MaintPort → MaintPort) (k : Nat) :
    junction k (modMaint f s) = junction k s := rfl
@[simp] theorem elem_modMaint (f : MaintPort → MaintPort) (k : ElemId) :
    elem k (modMaint f s) = elem k s := by cases k <;> rfl
@[simp] theorem call_modMaint (f : MaintPort → MaintPort) (k : Nat) : call k (modMaint f s) = call k s := rfl
@[simp] theorem point_modMaint (f : MaintPort → MaintPort) (k : Nat) : point k (modMaint f s) = point k s := rfl
@[simp] theorem meter_modMaint (f : MaintPort → MaintPort) (k : Nat) : meter k (modMaint f s) = meter k s := rfl

/-! ## Reads beside place -/

@[simp] theorem line_place (x : Nat) (a : Action) (k : Nat) : line k (place x a s) = line k s := rfl
@[simp] theorem frame_place (x : Nat) (a : Action) (k : Nat) : frame k (place x a s) = frame k s := rfl
@[simp] theorem junction_place (x : Nat) (a : Action) (k : Nat) : junction k (place x a s) = junction k s := rfl
@[simp] theorem elem_place (x : Nat) (a : Action) (k : ElemId) : elem k (place x a s) = elem k s := by cases k <;> rfl
@[simp] theorem call_place (x : Nat) (a : Action) (k : Nat) : call k (place x a s) = call k s := rfl
@[simp] theorem point_place (x : Nat) (a : Action) (k : Nat) : point k (place x a s) = point k s := rfl
@[simp] theorem meter_place (x : Nat) (a : Action) (k : Nat) : meter k (place x a s) = meter k s := rfl
@[simp] theorem io_place (x : Nat) (a : Action) (k : Port) :
    io k (place x a s) = io k s := by rcases k with (_ | _) | _ <;> rfl

/-! ## Reads beside retry -/

@[simp] theorem line_retry (k : Nat) : line k (retry s) = line k s := rfl
@[simp] theorem frame_retry (k : Nat) : frame k (retry s) = frame k s := rfl
@[simp] theorem junction_retry (k : Nat) : junction k (retry s) = junction k s := rfl
@[simp] theorem elem_retry (k : ElemId) : elem k (retry s) = elem k s := by cases k <;> rfl
@[simp] theorem call_retry (k : Nat) : call k (retry s) = call k s := rfl
@[simp] theorem point_retry (k : Nat) : point k (retry s) = point k s := rfl
@[simp] theorem meter_retry (k : Nat) : meter k (retry s) = meter k s := rfl
@[simp] theorem io_retry (k : Port) : io k (retry s) = io k s := by rcases k with (_ | _) | _ <;> rfl

/-! ## Reads beside dequeue -/

@[simp] theorem line_dequeue (x : Party) (k : Nat) : line k (dequeue x s) = line k s := by unfold dequeue; split <;> rfl
@[simp] theorem frame_dequeue (x : Party) (k : Nat) :
    frame k (dequeue x s) = frame k s := by unfold dequeue; split <;> rfl
@[simp] theorem junction_dequeue (x : Party) (k : Nat) :
    junction k (dequeue x s) = junction k s := by unfold dequeue; split <;> rfl
@[simp] theorem elem_dequeue (x : Party) (k : ElemId) :
    elem k (dequeue x s) = elem k s := by unfold dequeue; split <;> cases k <;> rfl
@[simp] theorem call_dequeue (x : Party) (k : Nat) : call k (dequeue x s) = call k s := by unfold dequeue; split <;> rfl
@[simp] theorem point_dequeue (x : Party) (k : Nat) :
    point k (dequeue x s) = point k s := by unfold dequeue; split <;> rfl
@[simp] theorem meter_dequeue (x : Party) (k : Nat) :
    meter k (dequeue x s) = meter k s := by unfold dequeue; split <;> rfl
@[simp] theorem io_dequeue (x : Party) (k : Port) :
    io k (dequeue x s) = io k s := by unfold dequeue; split <;> rcases k with (_ | _) | _ <;> rfl

/-! ## Reads beside removeOrder -/

@[simp] theorem line_removeOrder (x : Nat) (k : Nat) : line k (removeOrder x s) = line k s := rfl
@[simp] theorem frame_removeOrder (x : Nat) (k : Nat) : frame k (removeOrder x s) = frame k s := rfl
@[simp] theorem junction_removeOrder (x : Nat) (k : Nat) : junction k (removeOrder x s) = junction k s := rfl
@[simp] theorem elem_removeOrder (x : Nat) (k : ElemId) : elem k (removeOrder x s) = elem k s := by cases k <;> rfl
@[simp] theorem call_removeOrder (x : Nat) (k : Nat) : call k (removeOrder x s) = call k s := rfl
@[simp] theorem point_removeOrder (x : Nat) (k : Nat) : point k (removeOrder x s) = point k s := rfl
@[simp] theorem meter_removeOrder (x : Nat) (k : Nat) : meter k (removeOrder x s) = meter k s := rfl
@[simp] theorem io_removeOrder (x : Nat) (k : Port) :
    io k (removeOrder x s) = io k s := by rcases k with (_ | _) | _ <;> rfl

@[simp] theorem junction_modElem_fl (n : Nat) (f : Element → Element) (k : Nat) :
    junction k (modElem (.fl n) f s) = junction k s := rfl
@[simp] theorem junction_modElem_cord (n : Nat) (f : Element → Element) (k : Nat) :
    junction k (modElem (.cord n) f s) = junction k s := rfl
@[simp] theorem elem_fl_modJunction (x : Nat) (f : Junction → Junction) (n : Nat) :
    elem (.fl n) (modJunction x f s) = elem (.fl n) s := rfl
@[simp] theorem elem_cord_modJunction (x : Nat) (f : Junction → Junction) (n : Nat) :
    elem (.cord n) (modJunction x f s) = elem (.cord n) s := rfl
@[simp] theorem io_maint_modMaint (f : MaintPort → MaintPort) : io .maint (modMaint f s) = (f s.m).io := rfl
@[simp] theorem io_ctl_modMaint (f : MaintPort → MaintPort) (c : Ctl) : io (.ctl c) (modMaint f s) = io (.ctl c) s := by
  cases c <;> rfl
@[simp] theorem io_maint_modIo_ctl (c : Ctl) (f : PortIo → PortIo) : io .maint (modIo (.ctl c) f s) = io .maint s := by
  cases c <;> rfl
@[simp] theorem io_ctl_modIo_maint (c : Ctl) (f : PortIo → PortIo) :
    io (.ctl c) (modIo .maint f s) = io (.ctl c) s := by
  cases c <;> rfl
@[simp] theorem m_modIo_ctl (c : Ctl) (f : PortIo → PortIo) : (modIo (.ctl c) f s).m = s.m := by
  cases c <;> rfl
@[simp] theorem held_modIo (p : Port) (f : PortIo → PortIo) : (modIo p f s).m.held = s.m.held := by
  rcases p with (_ | _) | _ <;> rfl

/-! ## The fields that the server's request, an order and the wait queue leave alone -/

@[simp] theorem retry_net (s : Part) : (retry s).net = s.net := rfl
@[simp] theorem retry_scan (s : Part) : (retry s).scan = s.scan := rfl
@[simp] theorem retry_calls (s : Part) : (retry s).calls = s.calls := rfl
@[simp] theorem retry_orders (s : Part) : (retry s).orders = s.orders := rfl
@[simp] theorem retry_serial (s : Part) : (retry s).serial = s.serial := rfl
@[simp] theorem retry_meters (s : Part) : (retry s).meters = s.meters := rfl
@[simp] theorem retry_timers (s : Part) : (retry s).timers = s.timers := rfl
@[simp] theorem retry_cal (s : Part) : (retry s).cal = s.cal := rfl
@[simp] theorem retry_m (s : Part) : (retry s).m = s.m := rfl
@[simp] theorem retry_queue (s : Part) : (retry s).orig.queue = s.orig.queue := rfl
@[simp] theorem retry_rehunts (s : Part) : (retry s).orig.rehunts = s.orig.rehunts := rfl
@[simp] theorem removeOrder_net (n : Nat) (s : Part) : (removeOrder n s).net = s.net := rfl
@[simp] theorem removeOrder_scan (n : Nat) (s : Part) : (removeOrder n s).scan = s.scan := rfl
@[simp] theorem removeOrder_orig (n : Nat) (s : Part) : (removeOrder n s).orig = s.orig := rfl
@[simp] theorem removeOrder_calls (n : Nat) (s : Part) : (removeOrder n s).calls = s.calls := rfl
@[simp] theorem removeOrder_serial (n : Nat) (s : Part) : (removeOrder n s).serial = s.serial := rfl
@[simp] theorem removeOrder_meters (n : Nat) (s : Part) : (removeOrder n s).meters = s.meters := rfl
@[simp] theorem removeOrder_timers (n : Nat) (s : Part) : (removeOrder n s).timers = s.timers := rfl
@[simp] theorem removeOrder_cal (n : Nat) (s : Part) : (removeOrder n s).cal = s.cal := rfl
@[simp] theorem removeOrder_m (n : Nat) (s : Part) : (removeOrder n s).m = s.m := rfl
@[simp] theorem removeOrder_orders (n : Nat) (s : Part) :
    (removeOrder n s).orders = s.orders.filter (fun o => decide (o.id ≠ n)) := rfl
@[simp] theorem dequeue_net (o : Party) (s : Part) : (dequeue o s).net = s.net := by unfold dequeue; split <;> rfl
@[simp] theorem dequeue_scan (o : Party) (s : Part) : (dequeue o s).scan = s.scan := by unfold dequeue; split <;> rfl
@[simp] theorem dequeue_calls (o : Party) (s : Part) : (dequeue o s).calls = s.calls := by unfold dequeue; split <;> rfl
@[simp] theorem dequeue_orders (o : Party) (s : Part) : (dequeue o s).orders = s.orders := by
  unfold dequeue; split <;> rfl

/-! ## The table changed keeps its canonical form -/

@[simp] theorem wf_modLine (x : Nat) (f : Line → Line) (h : Table.wf {} s.net.lines = true) :
    Table.wf {} (modLine x f s).net.lines = true := Table.wf_put h
@[simp] theorem wf_modFrame (x : Nat) (f : Frame → Frame) (h : Table.wf {} s.net.frames = true) :
    Table.wf {} (modFrame x f s).net.frames = true := Table.wf_put h
@[simp] theorem wf_modJunction (x : Nat) (f : Junction → Junction) (h : Table.wf {} s.net.junctions = true) :
    Table.wf {} (modJunction x f s).net.junctions = true := Table.wf_put h
@[simp] theorem wf_modElem_fl (x : Nat) (f : Element → Element) (h : Table.wf {} s.net.fls = true) :
    Table.wf {} (modElem (.fl x) f s).net.fls = true := Table.wf_put h
@[simp] theorem wf_modElem_cord (x : Nat) (f : Element → Element) (h : Table.wf {} s.net.cords = true) :
    Table.wf {} (modElem (.cord x) f s).net.cords = true := Table.wf_put h
@[simp] theorem wf_modCall (x : Nat) (f : Call → Call) (h : Table.wf {} s.calls = true) :
    Table.wf {} (modCall x f s).calls = true := Table.wf_put h
@[simp] theorem wf_modPoint (x : Nat) (f : ScanEntry → ScanEntry) (h : Table.wf {} s.scan.points = true) :
    Table.wf {} (modPoint x f s).scan.points = true := Table.wf_put h
@[simp] theorem wf_modMeter (x : Nat) (f : MeterEntry → MeterEntry) (h : Table.wf {} s.meters.entries = true) :
    Table.wf {} (modMeter x f s).meters.entries = true := Table.wf_put h
@[simp] theorem modElem_fl_cords (x : Nat) (f : Element → Element) :
    (modElem (.fl x) f s).net.cords = s.net.cords := rfl
@[simp] theorem modElem_fl_junctions (x : Nat) (f : Element → Element) :
    (modElem (.fl x) f s).net.junctions = s.net.junctions := rfl
@[simp] theorem modElem_cord_fls (x : Nat) (f : Element → Element) :
    (modElem (.cord x) f s).net.fls = s.net.fls := rfl
@[simp] theorem modElem_cord_junctions (x : Nat) (f : Element → Element) :
    (modElem (.cord x) f s).net.junctions = s.net.junctions := rfl

/-! ## The record changed -/

@[simp] theorem line_modLine_eq (x : Nat) (f : Line → Line) (k : Nat) (h : Table.wf {} s.net.lines = true) :
    line k (modLine x f s) = if k = x then f (line x s) else line k s := Table.get_put h

@[simp] theorem frame_modFrame_eq (x : Nat) (f : Frame → Frame) (k : Nat) (h : Table.wf {} s.net.frames = true) :
    frame k (modFrame x f s) = if k = x then f (frame x s) else frame k s := Table.get_put h

@[simp] theorem junction_modJunction_eq (x : Nat) (f : Junction → Junction) (k : Nat)
    (h : Table.wf {} s.net.junctions = true) :
    junction k (modJunction x f s) = if k = x then f (junction x s) else junction k s := Table.get_put h

@[simp] theorem call_modCall_eq (x : Nat) (f : Call → Call) (k : Nat) (h : Table.wf {} s.calls = true) :
    call k (modCall x f s) = if k = x then f (call x s) else call k s := Table.get_put h

@[simp] theorem point_modPoint_eq (x : Nat) (f : ScanEntry → ScanEntry) (k : Nat)
    (h : Table.wf {} s.scan.points = true) :
    point k (modPoint x f s) = if k = x then f (point x s) else point k s := Table.get_put h

@[simp] theorem meter_modMeter_eq (x : Nat) (f : MeterEntry → MeterEntry) (k : Nat)
    (h : Table.wf {} s.meters.entries = true) :
    meter k (modMeter x f s) = if k = x then f (meter x s) else meter k s := Table.get_put h

@[simp] theorem elem_modElem_fl (x : Nat) (f : Element → Element) (k : ElemId) (h : Table.wf {} s.net.fls = true) :
    elem k (modElem (.fl x) f s) = if k = .fl x then f (elem (.fl x) s) else elem k s := by
  split
  · next e =>
    subst e
    exact Table.get_put_same h
  · exact elem_modElem_of_ne (by assumption) f

@[simp] theorem elem_modElem_cord (x : Nat) (f : Element → Element) (k : ElemId)
    (h : Table.wf {} s.net.cords = true) :
    elem k (modElem (.cord x) f s) = if k = .cord x then f (elem (.cord x) s) else elem k s := by
  split
  · next e =>
    subst e
    exact Table.get_put_same h
  · exact elem_modElem_of_ne (by assumption) f

/-! ## The canonical form is kept -/

theorem TablesOk.modFrame (h : TablesOk s) (x : Nat) (f : Frame → Frame) : TablesOk (modFrame x f s) :=
  (low_modFrame (Low.refl s)).tablesOk h
theorem TablesOk.modElem (h : TablesOk s) (x : ElemId) (f : Element → Element) : TablesOk (modElem x f s) :=
  (low_modElem (Low.refl s)).tablesOk h
theorem TablesOk.modCall (h : TablesOk s) (x : Nat) (f : Call → Call) : TablesOk (modCall x f s) :=
  { h with calls := Table.wf_put h.calls }
theorem TablesOk.modIo (h : TablesOk s) (x : Port) (f : PortIo → PortIo) : TablesOk (modIo x f s) :=
  (low_modIo (Low.refl s)).tablesOk h
theorem TablesOk.place (h : TablesOk s) (x : Nat) (a : Action) : TablesOk (place x a s) := { h with }
theorem TablesOk.retry (h : TablesOk s) : TablesOk (retry s) := { h with }
theorem TablesOk.removeOrder (h : TablesOk s) (x : Nat) : TablesOk (removeOrder x s) := { h with }
theorem TablesOk.dequeue (h : TablesOk s) (o : Party) : TablesOk (dequeue o s) := (low_dequeue (Low.refl s)).tablesOk h

end Sys2Proof.Machine
end

section
/-!
SUPPORT. Scan points and the Network Map: the kind of a point by its number, the event armed for it, and what the
operations on lines, junctions and elements come to in changes of one record.
-/

namespace Sys2Proof.Machine

variable {s : Part}

/-! ## The kinds of point (R19) -/

theorem pointKind_line {p : Nat} (h : p < 2048) : pointKind p = .line p := by
  simp [pointKind, h]

theorem pointKind_oEnd {c : Nat} (h : c < 96) : pointKind (2048 + c) = .oEnd c := by
  have h2 : 2048 + c < 2144 := by omega
  simp [pointKind, h2]

theorem pointKind_tEnd {c : Nat} (h : c < 96) : pointKind (2144 + c) = .tEnd c := by
  have h2 : ¬ 2144 + c < 2048 := by omega
  have h3 : 2144 + c < 2240 := by omega
  simp [pointKind, h2, h3]

theorem pointKind_junction (j : Nat) : pointKind (2336 + j) = .junction j := by
  have h2 : ¬ 2336 + j < 2048 := by omega
  have h3 : ¬ 2336 + j < 2144 := by omega
  have h4 : ¬ 2336 + j < 2240 := by omega
  simp [pointKind, h2, h3, h4]

/-! ## The event armed for a point (R22) -/

theorem rearm_eq (p : Nat) (s : Part) : rearm p s = modPoint p (fun e => { e with pending := armed p s }) s := rfl

/-- A junction whose supervision state is IDLE has no event armed. -/
theorem armed_junction_idle {j : Nat} (h : (junction j s).sup = .idle) : armed (2336 + j) s = none := by
  simp only [armed, pointKind_junction, h]
  split <;> rfl

/-- A line that is IDLE has no event armed. -/
theorem armed_line_idle {lt : Nat} (hl : lt < 2048) (h : (line lt s).sup = .idle) : armed lt s = none := by
  simp only [armed, pointKind_line hl, h]
  split <;> rfl

/-! ## The wait queue (R53) -/

/-- An origin's entry, if it has one, is the only thing that leaves the queue. -/
theorem queue_dequeue (o : Party) (s : Part) :
    (dequeue o s).orig.queue = s.orig.queue.filter (fun w => decide (w.origin ≠ o)) := by
  unfold dequeue
  split
  · rfl
  · next h =>
    refine (List.filter_eq_self.mpr fun w hw => ?_).symm
    have := List.any_eq_false.mp (Bool.not_eq_true _ ▸ h) w hw
    simpa using this

/-- Everything a withdrawal from the queue does. -/
theorem dequeue_eq (o : Party) (s : Part) :
    dequeue o s = { s with
      orig.queue := (dequeue o s).orig.queue, orig.request := (dequeue o s).orig.request } := by
  unfold dequeue
  split <;> rfl

/-- An origin without an entry leaves the queue as it is. -/
theorem dequeue_of_absent {o : Party} (h : ∀ w ∈ s.orig.queue, w.origin ≠ o) : dequeue o s = s := by
  unfold dequeue
  rw [if_neg]
  simpa using h

/-! ## Junctions (R15, R35, R38) -/

theorem settleJunction_eq (j : Nat) (s : Part) : settleJunction j s = modJunction j Junction.settled s := by
  unfold settleJunction
  congr 1
  funext r
  unfold Junction.settled
  split
  · cases r.pendRoute <;> rfl
  · rfl

@[simp] theorem settled_elem (r : Junction) : r.settled.elem = r.elem := by
  unfold Junction.settled; split <;> rfl
@[simp] theorem settled_sup (r : Junction) : r.settled.sup = r.sup := by
  unfold Junction.settled; split <;> rfl
@[simp] theorem settled_marked (r : Junction) : r.settled.marked = r.marked := by
  unfold Junction.settled; split <;> rfl

/-- A junction that is not FREE takes no pending change. -/
theorem settled_of_used {r : Junction} (h : r.elem.occ ≠ .free) : r.settled = r := by
  simp [Junction.settled, h]

/-- A junction becomes IDLE (R35, R38): its mark, its queue entry and its event go, and its pending changes are
taken. -/
theorem idleJunction_eq (h : TablesOk s) (j : Nat) :
    idleJunction j s =
      modPoint (2336 + j) (fun e => { e with pending := none })
        (modJunction j Junction.settled
          (dequeue (.junction j) (modJunction j (fun r => { r with sup := .idle, marked := false }) s))) := by
  unfold idleJunction
  dsimp only
  rw [settleJunction_eq, show junctionPoint j = 2336 + j from rfl, rearm_eq, armed_junction_idle]

  simp [h.junctions]

theorem junction_idleJunction (h : TablesOk s) (j k : Nat) :
    junction k (idleJunction j s) =
      if k = j then ({ junction j s with sup := .idle, marked := false } : Junction).settled else junction k s := by
  rw [idleJunction_eq h]
  by_cases e : k = j <;> simp [h.junctions, e]

theorem point_idleJunction (h : TablesOk s) (j p : Nat) :
    point p (idleJunction j s) =
      if p = 2336 + j then { point p s with pending := none } else point p s := by
  rw [idleJunction_eq h]
  by_cases e : p = 2336 + j <;> simp [h.points, e]

theorem elem_idleJunction (h : TablesOk s) (j : Nat) (e : ElemId) : elem e (idleJunction j s) = elem e s := by
  cases e with
  | junction k =>
    by_cases g : k = j <;> simp [junction_idleJunction h, g]
  | fl n => simp [idleJunction_eq h]
  | cord n => simp [idleJunction_eq h]

theorem queue_idleJunction (h : TablesOk s) (j : Nat) :
    (idleJunction j s).orig.queue = s.orig.queue.filter (fun w => decide (w.origin ≠ .junction j)) := by
  rw [idleJunction_eq h]
  exact queue_dequeue _ _

/-- Everything a junction's becoming IDLE does. -/
theorem idleJunction_frame (h : TablesOk s) (j : Nat) :
    idleJunction j s = { s with
      net.junctions := (idleJunction j s).net.junctions, scan.points := (idleJunction j s).scan.points
      orig.queue := (idleJunction j s).orig.queue, orig.request := (idleJunction j s).orig.request } := by
  rw [idleJunction_eq h, dequeue_eq]
  rfl

theorem elem_seizeIfLoop (h : TablesOk s) (j : Nat) (e : ElemId) : elem e (seizeIfLoop j s) = elem e s := by
  unfold seizeIfLoop
  dsimp only
  split
  · cases e with
    | junction k => by_cases g : k = j <;> simp [seizeJunction, rearm_eq, h.junctions, g]
    | fl n => rfl
    | cord n => rfl
  · rfl

/-! ## Elements (R4, R9) -/

/-- An element that becomes FREE is so whatever follows from it, and a pending busy-out has taken effect (R4, R9). -/
theorem elem_becomeFree (h : TablesOk s) (e : ElemId) :
    elem e (becomeFree e s) =
      { occ := .free
        admin := if (elem e s).admin = .busyOutPending then .busyOut else (elem e s).admin } := by
  cases e with
  | fl n => simp only [becomeFree]; split <;> simp [h.fls]
  | cord n => simp only [becomeFree]; split <;> simp [h.cords]
  | junction j =>
    simp only [becomeFree]
    rw [elem_seizeIfLoop (by rw [settleJunction_eq]; exact (h.modElem _ _).modJunction _ _), settleJunction_eq]
    simp [h.junctions]
    rfl

end Sys2Proof.Machine
end

section
/-!
PROOFS. BUSY OUT of elements (R7), and what is common to the requests of the maintenance port.
-/

namespace Sys2Proof.Machine

variable {s : Part}

/-! ## A maintenance request that is taken and answered -/

/-- A maintenance request that is taken and comes to a reply has been answered, and the part is what the reply was
built on. -/
theorem replies_of_reply {i : Instr} {s : State} {tag : Byte} {f : Part → Part} {code : ResultCode}
    {data : List Byte} {q : Part} (hi : exec i s = onPart (receiveMaint tag f) s) (h : MaintTakes s.part)
    (hf : f s.part = reply .maint tag code data q) :
    Replies i s .maint { tag := tag, code := code, data := data } q := by
  refine ⟨{ s with part := reply .maint tag code data q }, ?_, rfl, answered_reply q .maint tag code data⟩
  rw [hi, onPart, receiveMaint_of_takes s.part h, hf]

/-! ## BUSY OUT of an element (R7) -/

/-- The administrative state that BUSY OUT gives an element, by its own and its occupancy (R7). -/
def Element.busyAdmin (r : Element) : Admin :=
  match r.admin, r.occ with
  | .inService, .free => .busyOut
  | .inService, .faulty => .busyOut
  | .inService, _ => .busyOutPending
  | admin, _ => admin

/-- A junction that BUSY OUT makes IDLE (R38): it becomes BUSY OUT, and no call uses it. -/
def Idles (j : Nat) (s : Part) : Prop :=
  (junction j s).elem.admin = .inService ∧
    ((junction j s).elem.occ = .free ∨ (junction j s).elem.occ = .faulty) ∧
      ∀ use id, (junction j s).sup ≠ .inCall use id

/-- BUSY OUT of an element is a change of its administrative state alone, but for a junction that it makes IDLE. -/
theorem busyOutElem_eq (h : TablesOk s) {e : ElemId} (hj : ∀ j, e = .junction j → ¬ Idles j s) :
    busyOutElem e s = modElem e (fun r => { r with admin := (elem e s).busyAdmin }) s ∨
      busyOutElem e s = s ∧ (elem e s).busyAdmin = (elem e s).admin := by
  cases ha : (elem e s).admin with
  | busyOut => exact .inr ⟨by simp only [busyOutElem, ha], by simp only [Element.busyAdmin, ha]⟩
  | busyOutPending => exact .inr ⟨by simp only [busyOutElem, ha], by simp only [Element.busyAdmin, ha]⟩
  | inService =>
    refine .inl ?_
    by_cases ho : (elem e s).occ = .free ∨ (elem e s).occ = .faulty
    · have hb : (elem e s).busyAdmin = .busyOut := by
        obtain ho | ho := ho <;> simp only [Element.busyAdmin, ha, ho]
      simp only [busyOutElem, ha, if_pos ho, hb]
      cases e with
      | fl n => rfl
      | cord n => rfl
      | junction j =>
        have hc : ∃ use id, (junction j s).sup = .inCall use id := by
          by_contra hn
          exact hj j rfl ⟨ha, ho, fun use id g => hn ⟨use, id, g⟩⟩
        obtain ⟨use, id, hs⟩ := hc
        simp [h.junctions, hs]
    · have hb : (elem e s).busyAdmin = .busyOutPending := by
        cases g : (elem e s).occ <;> simp_all [Element.busyAdmin]
      simp only [busyOutElem, ha, if_neg ho, hb]

/-- BUSY OUT of a junction that no call uses makes it BUSY OUT and IDLE (R38). -/
theorem busyOutElem_of_idles {j : Nat} (h : TablesOk s) (hi : Idles j s) :
    busyOutElem (.junction j) s = idleJunction j (modElem (.junction j) (fun r => { r with admin := .busyOut }) s) := by
  obtain ⟨ha, ho, hs⟩ := hi
  simp only [busyOutElem, elem_junction, ha]
  cases g : (junction j s).sup with
  | inCall use id => exact absurd g (hs use id)
  | idle => simp [h.junctions, g, ho]
  | originating => simp [h.junctions, g, ho]
  | heldUnserved => simp [h.junctions, g, ho]

/-- The element after BUSY OUT, and every other element (R7). -/
theorem elem_busyOutElem (h : TablesOk s) (e x : ElemId) :
    elem x (busyOutElem e s) =
      if x = e then { elem e s with admin := (elem e s).busyAdmin } else elem x s := by
  by_cases hi : ∃ j, e = .junction j ∧ Idles j s
  · obtain ⟨j, rfl, hi⟩ := hi
    rw [busyOutElem_of_idles h hi, elem_idleJunction (h.modElem _ _)]
    have hb : (elem (.junction j) s).busyAdmin = .busyOut := by
      obtain ⟨ha, ho | ho, -⟩ := hi <;> simp only [Element.busyAdmin, elem_junction, ha, ho]
    split
    · next g => rw [g, elem_modElem h, hb]
    · next g => rw [elem_modElem_of_ne g]
  · have hn : ∀ j, e = .junction j → ¬ Idles j s := fun j g k => hi ⟨j, g, k⟩
    obtain g | ⟨g, k⟩ := busyOutElem_eq h hn
    · rw [g]
      split
      · next g => rw [g, elem_modElem h]
      · next g => rw [elem_modElem_of_ne g]
    · rw [g, k]
      split
      · next g => rw [g]
      · rfl

theorem busyAdmin_ne_inService (r : Element) : r.busyAdmin ≠ .inService := by
  obtain ⟨occ, admin⟩ := r
  cases admin <;> cases occ <;> decide

/-- BUSY OUT is reached at FREE, whichever of the two states it gave (R7, R9). -/
theorem elem_becomeFree_of_out (h : TablesOk s) {e : ElemId} (g : (elem e s).admin ≠ .inService) :
    elem e (becomeFree e s) = { occ := .free, admin := .busyOut } := by
  rw [elem_becomeFree h]
  cases k : (elem e s).admin <;> simp_all

theorem avail_of_out {e : ElemId} (g : (elem e s).admin ≠ .inService) : avail e s = false := by
  simp [avail, g]

/-- What BUSY OUT of a junction brings beside its element record (R7, R15, R38). -/
theorem busyOut_junction (h : TablesOk s) (j : Nat) :
    let q := busyOutElem (.junction j) s
    let out := { junction j s with elem := elem (.junction j) q }
    (¬ Idles j s → junction j q = out ∧ q = { s with net.junctions := q.net.junctions }) ∧
      (Idles j s → junction j q = ({ out with sup := .idle, marked := false } : Junction).settled ∧
        q.orig.queue = s.orig.queue.filter (fun w => decide (w.origin ≠ .junction j)) ∧
        point (2336 + j) q = { point (2336 + j) s with pending := none }) ∧
      (∀ x, x ≠ j → junction x q = junction x s) ∧ (∀ p, p ≠ 2336 + j → point p q = point p s) ∧
      q = { s with
        net.junctions := q.net.junctions, scan.points := q.scan.points
        orig.queue := q.orig.queue, orig.request := q.orig.request } := by
  intro q out
  by_cases hi : Idles j s
  · have hq : q = idleJunction j (modElem (.junction j) (fun r => { r with admin := .busyOut }) s) :=
      busyOutElem_of_idles h hi
    have hu : TablesOk (modElem (.junction j) (fun r => { r with admin := .busyOut }) s) := h.modElem _ _
    refine ⟨fun n => absurd hi n, fun _ => ⟨?_, ?_, ?_⟩, fun x hx => ?_, fun p hp => ?_, ?_⟩
    · have ho : out = junction j (modElem (.junction j) (fun r => { r with admin := .busyOut }) s) := by
        show { junction j s with elem := elem (.junction j) q } = _
        rw [hq, elem_idleJunction hu]
        simp [h.junctions]
      rw [hq, junction_idleJunction hu, if_pos rfl, ho]
    · rw [hq, queue_idleJunction hu, modElem_orig]
    · rw [hq, point_idleJunction hu, if_pos rfl, point_modElem]
    · rw [hq, junction_idleJunction hu, if_neg hx]
      exact junction_modJunction_of_ne hx _
    · rw [hq, point_idleJunction hu, if_neg hp, point_modElem]
    · rw [hq, idleJunction_frame hu]
      rfl
  · obtain g | ⟨g, -⟩ := busyOutElem_eq h (e := .junction j) (fun k e => by cases e; exact hi)
    · have hq : q =
          modJunction j (fun r => { r with elem := { r.elem with admin := (junction j s).elem.busyAdmin } }) s := g
      refine ⟨fun _ => ⟨?_, ?_⟩, fun k => absurd k hi, fun x hx => ?_, fun p _ => ?_, ?_⟩
      · show junction j q = { junction j s with elem := elem (.junction j) q }
        rw [elem_junction, hq]
        simp [h.junctions]
      · rw [hq]; rfl
      · rw [hq, junction_modJunction_of_ne hx]
      · rw [hq]; rfl
      · rw [hq]; rfl
    · have hq : q = s := g
      refine ⟨fun _ => ⟨?_, ?_⟩, fun k => absurd k hi, fun x _ => ?_, fun p _ => ?_, ?_⟩
      · show junction j q = { junction j s with elem := elem (.junction j) q }
        rw [hq]; rfl
      all_goals rw [hq]

/-- BUSY OUT of a frame link or a cord changes its record alone (R7). -/
theorem busyOut_frame (h : TablesOk s) {e : ElemId} (hj : ∀ j, e ≠ .junction j) :
    busyOutElem e s = { s with
      net.fls := (busyOutElem e s).net.fls, net.cords := (busyOutElem e s).net.cords } := by
  obtain g | ⟨g, -⟩ := busyOutElem_eq h (fun j k => absurd k (hj j))
  · rw [g]
    cases e with
    | fl n => rfl
    | cord n => rfl
    | junction j => exact absurd rfl (hj j)
  · rw [g]

/-- The element that a kind code and a number of BUSY OUT and RETURN TO SERVICE name (R7, R172). -/
theorem targetOf_elem {kind : Byte} {n : Nat} {e : ElemId}
    (h : (kind = 1 ∧ n ≤ 383 ∧ e = .fl n) ∨ (kind = 2 ∧ n ≤ 95 ∧ e = .cord n) ∨
      (kind = 3 ∧ n ≤ 47 ∧ e = .junction n)) : targetOf kind n = .ok (.elem e) := by
  obtain ⟨rfl, hn, rfl⟩ | ⟨rfl, hn, rfl⟩ | ⟨rfl, hn, rfl⟩ := h
  · simp [targetOf, Config.frameLinks, Nat.lt_succ_of_le hn]
  · simp [targetOf, Config.cords, Nat.lt_succ_of_le hn]
  · simp [targetOf, Config.junctions, Nat.lt_succ_of_le hn]

/-- A number outside the range of its kind names nothing (R7, R172). -/
theorem targetOf_outside {n : Nat} :
    (2048 ≤ n → targetOf 0 n = .error .noSuch) ∧ (383 < n → targetOf 1 n = .error .noSuch) ∧
      (95 < n → targetOf 2 n = .error .noSuch) ∧ (47 < n → targetOf 3 n = .error .noSuch) := by
  refine ⟨fun h => ?_, fun h => ?_, fun h => ?_, fun h => ?_⟩
  · simp [targetOf, Config.lines, Nat.not_lt.mpr h]
  · simp [targetOf, Config.frameLinks, Nat.not_lt.mpr (Nat.succ_le_of_lt h)]
  · simp [targetOf, Config.cords, Nat.not_lt.mpr (Nat.succ_le_of_lt h)]
  · simp [targetOf, Config.junctions, Nat.not_lt.mpr (Nat.succ_le_of_lt h)]

theorem busyOut_noSuch {s : State} {tag kind : Byte} {n : Word16} (h : MaintTakes s.part)
    (g : targetOf kind n.toNat = .error .noSuch) :
    Replies (.busyOut tag kind n) s .maint { tag := tag, code := .noSuch } s.part :=
  replies_of_reply (f := busyOutRequest tag kind n) rfl h (by simp only [busyOutRequest, g])

theorem return_noSuch {s : State} {tag kind : Byte} {n : Word16} (h : MaintTakes s.part)
    (g : targetOf kind n.toNat = .error .noSuch) :
    Replies (.returnToService tag kind n) s .maint { tag := tag, code := .noSuch } s.part :=
  replies_of_reply (f := returnRequest tag kind n) rfl h (by simp only [returnRequest, g])

/-- Settles O10: the part after the request is `busyOutElem`, whose element table `elem_busyOutElem` gives and whose
further effects on a junction `busyOut_junction` gives. -/
theorem busyOutOfElements : Obligations.BusyOutOfElements := by
  intro s tag n hm ht
  obtain ⟨-, h1, h2, h3⟩ := targetOf_outside (n := n.toNat)
  refine ⟨fun e kind he => ?_, fun k => busyOut_noSuch hm (h1 k), fun k => busyOut_noSuch hm (h2 k),
    fun k => busyOut_noSuch hm (h3 k)⟩
  have hq : TablesOk (busyOutElem e s.part) := (low_busyOutElem (Low.refl s.part)).tablesOk ht
  have hself : elem e (busyOutElem e s.part) = { elem e s.part with admin := (elem e s.part).busyAdmin } := by
    rw [elem_busyOutElem ht, if_pos rfl]
  have hout : (elem e (busyOutElem e s.part)).admin ≠ .inService := by
    rw [hself]
    exact busyAdmin_ne_inService _
  refine ⟨busyOutElem e s.part, ?_, ?_, ?_, avail_of_out hout, elem_becomeFree_of_out hq hout, fun x hx => ?_,
    fun hk => ?_, fun hk => ?_⟩
  · exact replies_of_reply (f := busyOutRequest tag kind n) rfl hm (by simp only [busyOutRequest, targetOf_elem he])
  · rw [hself]
  · rw [hself]
    rfl
  · rw [elem_busyOutElem ht, if_neg hx]
  · refine busyOut_frame ht (fun j hj => hk ?_)
    obtain ⟨-, -, rfl⟩ | ⟨-, -, rfl⟩ | ⟨hk, -, -⟩ := he
    · cases hj
    · cases hj
    · exact hk
  · have hj : e = .junction n.toNat := by
      obtain ⟨rfl, -⟩ | ⟨rfl, -⟩ | ⟨-, -, hj⟩ := he
      · exact absurd hk (by decide)
      · exact absurd hk (by decide)
      · exact hj
    subst hj
    exact busyOut_junction ht n.toNat

end Sys2Proof.Machine
end

section
/-!
PROOFS. RETURN TO SERVICE of elements (R8), BUSY OUT and RETURN TO SERVICE of lines (R11).
-/

namespace Sys2Proof.Machine

variable {s : Part}

/-! ## RETURN TO SERVICE of an element (R8) -/

/-- The request makes an element FREE and IN SERVICE (R6, R8): it was FAULTY, or FREE and BUSY OUT. -/
def Element.made (r : Element) : Prop := r.occ = .faulty ∨ r.occ = .free ∧ r.admin = .busyOut

/-- The record that RETURN TO SERVICE leaves an element (R8). -/
def Element.returned (r : Element) : Element := { occ := if r.occ = .faulty then .free else r.occ, admin := .inService }

/-- RETURN TO SERVICE changes the element's record, and what is made FREE and IN SERVICE is reported (R8). -/
theorem returnElem_eq (e : ElemId) (s : Part) :
    ((elem e s).made → ∃ f, f (elem e s) = (elem e s).returned ∧ returnElem e s = returned e (modElem e f s)) ∧
      (¬ (elem e s).made → (∃ f, f (elem e s) = (elem e s).returned ∧ returnElem e s = modElem e f s) ∨
        returnElem e s = s ∧ (elem e s).returned = elem e s) := by
  refine ⟨fun h => ?_, fun h => ?_⟩
  · obtain h | ⟨h, g⟩ := h
    · exact ⟨fun _ => {}, by simp only [Element.returned, h, if_pos], by simp only [returnElem, h, if_pos]⟩
    · refine ⟨fun r => { r with admin := .inService }, ?_, ?_⟩
      · simp [Element.returned, h]
      · simp [returnElem, h, g]
  · have hf : (elem e s).occ ≠ .faulty := fun k => h (.inl k)
    cases ha : (elem e s).admin with
    | busyOut =>
      have ho : (elem e s).occ ≠ .free := fun k => h (.inr ⟨k, ha⟩)
      refine .inl ⟨fun r => { r with admin := .inService }, ?_, ?_⟩
      · simp [Element.returned, hf]
      · simp [returnElem, hf, ha, ho]
    | busyOutPending =>
      refine .inl ⟨fun r => { r with admin := .inService }, ?_, ?_⟩
      · simp [Element.returned, hf]
      · simp [returnElem, hf, ha]
    | inService =>
      refine .inr ⟨by simp [returnElem, hf, ha], ?_⟩
      simp only [Element.returned, if_neg hf, ← ha]

theorem elem_returned (h : TablesOk s) (e x : ElemId) : elem x (returned e s) = elem x s := by
  cases e with
  | fl n => exact elem_retry x
  | cord n => exact elem_retry x
  | junction j =>
    cases x with
    | fl n => rfl
    | cord n => rfl
    | junction k =>
      by_cases g : k = j <;> simp [returned, resetPoint, settleJunction_eq, h.junctions, g]

/-- The element after RETURN TO SERVICE, and every other element (R8). -/
theorem elem_returnElem (h : TablesOk s) (e x : ElemId) :
    elem x (returnElem e s) = if x = e then (elem e s).returned else elem x s := by
  have changed : ∀ f : Element → Element, f (elem e s) = (elem e s).returned →
      elem x (modElem e f s) = if x = e then (elem e s).returned else elem x s := by
    intro f hf
    split
    · next g => rw [g, elem_modElem h, hf]
    · next g => rw [elem_modElem_of_ne g]
  obtain ⟨hm, hn⟩ := returnElem_eq e s
  by_cases g : (elem e s).made
  · obtain ⟨f, hf, hr⟩ := hm g
    rw [hr, elem_returned (h.modElem _ _), changed f hf]
  · obtain ⟨f, hf, hr⟩ | ⟨hr, hf⟩ := hn g
    · rw [hr, changed f hf]
    · rw [hr, hf]
      split
      · next g => rw [g]
      · rfl

/-- RETURN TO SERVICE of a frame link or a cord changes its record, and may be reported to the server (R6, R8). -/
theorem return_frame {e : ElemId} (hj : ∀ j, e ≠ .junction j) (s : Part) :
    returnElem e s = { s with
      net.fls := (returnElem e s).net.fls, net.cords := (returnElem e s).net.cords
      orig.request := (returnElem e s).orig.request } := by
  obtain ⟨hm, hn⟩ := returnElem_eq e s
  by_cases g : (elem e s).made
  · obtain ⟨f, -, hr⟩ := hm g
    rw [hr]
    cases e with
    | fl n => rfl
    | cord n => rfl
    | junction j => exact absurd rfl (hj j)
  · obtain ⟨f, -, hr⟩ | ⟨hr, -⟩ := hn g
    · rw [hr]
      cases e with
      | fl n => rfl
      | cord n => rfl
      | junction j => exact absurd rfl (hj j)
    · rw [hr]

/-- What RETURN TO SERVICE of a junction brings beside its element record (R8, R15, R38). -/
theorem return_junction (h : TablesOk s) (j : Nat) :
    let q := returnElem (.junction j) s
    let out := { junction j s with elem := elem (.junction j) q }
    ((junction j s).elem.made → junction j q = Junction.settled out ∧ point (2336 + j) q = {}) ∧
      (¬ (junction j s).elem.made → junction j q = out ∧ point (2336 + j) q = point (2336 + j) s) ∧
      (∀ x, x ≠ j → junction x q = junction x s) ∧ (∀ p, p ≠ 2336 + j → point p q = point p s) ∧
      q = { s with net.junctions := q.net.junctions, scan.points := q.scan.points } := by
  intro q out
  have ho : out = { junction j s with elem := (junction j s).elem.returned } := by
    show { junction j s with elem := elem (.junction j) q } = _
    rw [elem_returnElem h, if_pos rfl, elem_junction]
  obtain ⟨hm, hn⟩ := returnElem_eq (.junction j) s
  by_cases g : (junction j s).elem.made
  · obtain ⟨f, hf, hr⟩ := hm g
    have hq : q = resetPoint (2336 + j) (modJunction j Junction.settled (modElem (.junction j) f s)) := by
      show returnElem _ _ = _
      rw [hr, returned, settleJunction_eq]
      rfl
    have hf' : f (junction j s).elem = (junction j s).elem.returned := hf
    refine ⟨fun _ => ⟨?_, ?_⟩, fun k => absurd g k, fun x hx => ?_, fun p hp => ?_, ?_⟩
    · rw [hq, ho]
      simp [resetPoint, h.junctions, hf']
    · rw [hq]
      simp [resetPoint, h.points]
    · rw [hq]
      simp [resetPoint, h.junctions, hx]
    · rw [hq]
      simp [resetPoint, h.points, hp]
    · rw [hq]
      rfl
  · obtain ⟨f, hf, hr⟩ | ⟨hr, hf⟩ := hn g
    · have hq : q = modElem (.junction j) f s := hr
      have hf' : f (junction j s).elem = (junction j s).elem.returned := hf
      refine ⟨fun k => absurd k g, fun _ => ⟨?_, ?_⟩, fun x hx => ?_, fun p _ => ?_, ?_⟩
      · rw [hq, ho]
        simp [h.junctions, hf']
      · rw [hq, point_modElem]
      · rw [hq]
        simp [h.junctions, hx]
      · rw [hq, point_modElem]
      · rw [hq]
        rfl
    · have hq : q = s := hr
      have hf' : (junction j s).elem.returned = (junction j s).elem := hf
      refine ⟨fun k => absurd k g, fun _ => ⟨?_, ?_⟩, fun x _ => ?_, fun p _ => ?_, ?_⟩
      · rw [hq, ho, hf']
      all_goals rw [hq]

/-- Settles O11: a FAULTY element that an order names is refused; otherwise the part is `returnElem`, whose element
table `elem_returnElem` gives and whose further effects on a junction `return_junction` gives. -/
theorem returnOfElements : Obligations.ReturnOfElements := by
  intro s tag n hm ht
  obtain ⟨-, h1, h2, h3⟩ := targetOf_outside (n := n.toNat)
  refine ⟨fun e kind he => ⟨fun hf => ?_, fun hf => ?_⟩, fun k => return_noSuch hm (h1 k),
    fun k => return_noSuch hm (h2 k), fun k => return_noSuch hm (h3 k)⟩
  · exact replies_of_reply (f := returnRequest tag kind n) rfl hm
      (by simp only [returnRequest, targetOf_elem he, if_pos hf])
  · refine ⟨returnElem e s.part, ?_, ?_, fun x hx => ?_, fun hk => ?_, fun hk => ?_⟩
    · exact replies_of_reply (f := returnRequest tag kind n) rfl hm
        (by simp only [returnRequest, targetOf_elem he, if_neg hf])
    · rw [elem_returnElem ht, if_pos rfl]
      rfl
    · rw [elem_returnElem ht, if_neg hx]
    · refine return_frame (fun j hj => hk ?_) s.part
      obtain ⟨-, -, rfl⟩ | ⟨-, -, rfl⟩ | ⟨hk, -, -⟩ := he
      · cases hj
      · cases hj
      · exact hk
    · have hj : e = .junction n.toNat := by
        obtain ⟨rfl, -⟩ | ⟨rfl, -⟩ | ⟨-, -, hj⟩ := he
        · exact absurd hk (by decide)
        · exact absurd hk (by decide)
        · exact hj
      subst hj
      exact return_junction ht n.toNat

/-! ## Lines (R11) -/

/-- A line's record when it is withdrawn (R11): its mark is gone, and it is IDLE unless a call has it. -/
def Line.withdrawn (l : Line) : Line :=
  { l with marked := false, sup := match l.sup with | .inCall id => .inCall id | _ => .idle }

/-- A withdrawal changes the line's record, the wait queue and the event of the line's point (R11, R53). -/
theorem withdrawLine_eq (lt : Nat) (s : Part) :
    withdrawLine lt s = rearm lt (dequeue (.line lt) (modLine lt Line.withdrawn s)) := rfl

theorem line_withdrawLine (h : TablesOk s) (lt x : Nat) :
    line x (withdrawLine lt s) = if x = lt then (line lt s).withdrawn else line x s := by
  simp [withdrawLine_eq, rearm_eq, h.lines]

theorem queue_withdrawLine (lt : Nat) (s : Part) :
    (withdrawLine lt s).orig.queue = s.orig.queue.filter (fun w => decide (w.origin ≠ .line lt)) := by
  rw [withdrawLine_eq]
  exact queue_dequeue _ _

theorem point_withdrawLine (h : TablesOk s) {lt p : Nat} (g : p ≠ lt) :
    point p (withdrawLine lt s) = point p s := by
  simp [withdrawLine_eq, rearm_eq, h.points, g]

/-- Everything a withdrawal does. -/
theorem withdrawLine_frame (lt : Nat) (s : Part) :
    withdrawLine lt s = { s with
      net.lines := (withdrawLine lt s).net.lines, scan.points := (withdrawLine lt s).scan.points
      orig.queue := (withdrawLine lt s).orig.queue, orig.request := (withdrawLine lt s).orig.request } := by
  rw [withdrawLine_eq, dequeue_eq]
  rfl

/-- What BUSY OUT of a line does (R11), by its administrative state and by whether a call has it. -/
theorem busyOut_line (h : TablesOk s) (n : Nat) :
    let q := busyOutLine n s
    (∀ x, x ≠ n → line x q = line x s) ∧ ((line n s).admin = .busyOut → q = s) ∧
      ((line n s).admin ≠ .busyOut → callOf (.line n) s ≠ none →
        line n q = { line n s with admin := .busyOutPending } ∧ q = { s with net.lines := q.net.lines }) ∧
      ((line n s).admin ≠ .busyOut → callOf (.line n) s = none →
        line n q = Line.withdrawn { line n s with admin := .busyOut } ∧
        q.orig.queue = s.orig.queue.filter (fun w => decide (w.origin ≠ .line n)) ∧
        (∀ p, p ≠ n → point p q = point p s) ∧
        q = { s with
          net.lines := q.net.lines, scan.points := q.scan.points
          orig := { s.orig with queue := q.orig.queue, request := q.orig.request } }) := by
  intro q
  by_cases ha : (line n s).admin = .busyOut
  · have hq : q = s := if_pos ha
    exact ⟨fun x _ => by rw [hq], fun _ => hq, fun k => absurd ha k, fun k => absurd ha k⟩
  by_cases hc : callOf (.line n) s = none
  · have hq : q = withdrawLine n (modLine n (fun l => { l with admin := .busyOut }) s) := by
      show busyOutLine n s = _
      simp [busyOutLine, ha, hc]
    have hu : TablesOk (modLine n (fun l => { l with admin := .busyOut }) s) := h.modLine _ _
    refine ⟨fun x hx => ?_, fun k => absurd k ha, fun _ k => absurd hc k, fun _ _ => ⟨?_, ?_, fun p hp => ?_, ?_⟩⟩
    · rw [hq, line_withdrawLine hu, if_neg hx]
      exact line_modLine_of_ne hx _
    · rw [hq, line_withdrawLine hu, if_pos rfl]
      simp [h.lines]
    · rw [hq, queue_withdrawLine, modLine_orig]
    · rw [hq, point_withdrawLine hu hp, point_modLine]
    · rw [hq, withdrawLine_frame]
      rfl
  · have hq : q = modLine n (fun l => { l with admin := .busyOutPending }) s := by
      show busyOutLine n s = _
      simp [busyOutLine, ha, Option.isSome_iff_ne_none, hc]
    refine ⟨fun x hx => ?_, fun k => absurd k ha, fun _ _ => ⟨?_, ?_⟩, fun _ k => absurd k hc⟩
    · rw [hq, line_modLine_of_ne hx]
    · rw [hq, line_modLine h]
    · rw [hq]
      rfl

/-- What RETURN TO SERVICE of a line does (R11). -/
theorem return_line (h : TablesOk s) (n : Nat) :
    let q := returnLine n s
    (∀ x, x ≠ n → line x q = line x s) ∧ line n q = { line n s with admin := .inService } ∧
      point n q = (if (line n s).admin = .busyOut then {} else point n s) ∧
      (∀ p, p ≠ n → point p q = point p s) ∧
      q = { s with net.lines := q.net.lines, scan.points := q.scan.points } := by
  intro q
  cases ha : (line n s).admin with
  | busyOut =>
    have hq : q = resetPoint n (modLine n (fun l => { l with admin := .inService }) s) := by
      show returnLine n s = _
      simp only [returnLine, ha]
    refine ⟨fun x hx => ?_, ?_, ?_, fun p hp => ?_, ?_⟩
    · simp [hq, resetPoint, h.lines, hx]
    · simp [hq, resetPoint, h.lines]
    · simp [hq, resetPoint, h.points]
    · simp [hq, resetPoint, h.points, hp]
    · rw [hq]
      rfl
  | busyOutPending =>
    have hq : q = modLine n (fun l => { l with admin := .inService }) s := by
      show returnLine n s = _
      simp only [returnLine, ha]
    refine ⟨fun x hx => ?_, ?_, ?_, fun p _ => ?_, ?_⟩
    · simp [hq, h.lines, hx]
    · simp [hq, h.lines]
    · simp [hq]
    · simp [hq]
    · rw [hq]
      rfl
  | inService =>
    have hq : q = s := by
      show returnLine n s = _
      simp only [returnLine, ha]
    refine ⟨fun x _ => by rw [hq], ?_, by simp [hq], fun p _ => by rw [hq], by rw [hq]⟩
    rw [hq, ← ha]

/-- Settles O12: `busyOut_line` and `return_line`, each behind its reply. -/
theorem busyOutOfLines : Obligations.BusyOutOfLines := by
  intro s tag n hm ht
  obtain ⟨h0, -⟩ := targetOf_outside (n := n.toNat)
  refine ⟨fun hn => ?_, fun k => ⟨busyOut_noSuch hm (h0 k), return_noSuch hm (h0 k)⟩⟩
  have hk : targetOf 0 n.toNat = .ok (.line n.toNat) := by simp [targetOf, Config.lines, hn]
  refine ⟨⟨busyOutLine n.toNat s.part, ?_, busyOut_line ht n.toNat⟩,
    ⟨returnLine n.toNat s.part, ?_, return_line ht n.toNat⟩⟩
  · exact replies_of_reply (f := busyOutRequest tag 0 n) rfl hm (by simp only [busyOutRequest, hk])
  · exact replies_of_reply (f := returnRequest tag 0 n) rfl hm (by simp only [returnRequest, hk])

end Sys2Proof.Machine
end

section
/-!
PROOFS. READ TABLE and the refusals of WRITE TABLE (R16, R172).
-/

namespace Sys2Proof.Machine

variable {s : Part}

/-! ## The header of a table request (R172) -/

theorem headerRefusal_format {table first count : Nat} (h : count = 0 ∨ 64 < count ∨ 9 < table) :
    headerRefusal table first count = some .format := if_pos h

theorem headerRefusal_noSuch {table first count : Nat} (h1 : 0 < count) (h2 : count ≤ 64) (h3 : table ≤ 9)
    (h : tableLength table < first + count) : headerRefusal table first count = some .noSuch := by
  unfold headerRefusal
  rw [if_neg (by omega), if_pos h]

theorem headerRefusal_none {table first count : Nat} (h1 : 0 < count) (h2 : count ≤ 64) (h3 : table ≤ 9)
    (h : first + count ≤ tableLength table) : headerRefusal table first count = none := by
  unfold headerRefusal
  rw [if_neg (by omega), if_neg (by omega)]

/-! ## READ TABLE (R16) -/

/-- A record has the size of its table (section 10.3). -/
theorem length_tableRecord {table : Nat} (h : table ≤ 9) (i : Nat) (s : Part) :
    some (tableRecord table i s).length = recordSize table := by
  interval_cases table <;> rfl

/-- Settles O26: the header decides the refusals, the records have their sizes by `length_tableRecord`, and each
record is its definition, by what its optional fields hold. -/
theorem readTable : Obligations.ReadTable := by
  intro s tag table count first hm
  refine ⟨fun h => ?_, fun h1 h2 h3 => ⟨fun h => ?_, fun h => ⟨?_, fun i => length_tableRecord h3 i s.part⟩⟩,
    fun i => ?_,
    rfl, rfl, rfl, rfl, rfl⟩
  · exact replies_of_reply (f := readTableRequest tag table first count) rfl hm
      (by simp only [readTableRequest, headerRefusal_format h])
  · exact replies_of_reply (f := readTableRequest tag table first count) rfl hm
      (by simp only [readTableRequest, headerRefusal_noSuch h1 h2 h3 h])
  · exact replies_of_reply (f := readTableRequest tag table first count) rfl hm
      (by simp only [readTableRequest, headerRefusal_none h1 h2 h3 h])
  · refine ⟨?_, ?_, ?_, ?_, rfl, rfl, rfl, rfl, rfl, rfl⟩
    · simp only [tableRecord, lineRecord]
      cases (line i s.part).pendCls <;> rfl
    · simp only [tableRecord, frameRecord]
      rcases (frame i s.part).home with _ | _ | _ <;> rfl
    · simp only [tableRecord, routeRecord]
      rcases (route i s.part).home with _ | _ | _ <;> rfl
    · simp only [tableRecord, junctionRecord]
      cases (junction i s.part).route <;> cases (junction i s.part).pendRoute <;>
        cases (junction i s.part).pendDir <;> rfl

/-! ## The fields of a written record (R16, R172) -/

/-- The bytes of one table's record (section 10.3). -/
def sizeOf (table : Nat) : Nat := [3, 2, 2, 7, 2, 2, 6, 5, 15, 1].getD table 0

/-- The enumerated fields of the `i`-th record of a WRITE TABLE lie in their sets (R16). -/
def InSet (table i : Nat) (records : List Byte) : Prop :=
  let field := fun n => (records.getD (i * sizeOf table + n) 0).toNat
  match table with
  | 0 => field 0 ≤ 3 ∧ field 1 ≤ 2
  | 1 => field 0 = 1 ∨ field 0 = 2
  | 2 => field 0 = 1 ∨ field 0 = 2
  | 3 => field 1 ≤ 2 ∧ field 2 ≤ 1 ∧ field 3 ≤ 2
  | 4 => field 0 ≤ 2
  | 5 => field 0 ≤ 2
  | 7 => field 3 ≤ 3 ∧ field 4 ≤ 1
  | 9 => field 0 ≤ 2
  | _ => True

theorem lineClass_ofCode_isSome (n : Nat) : (LineClass.ofCode n).isSome = true ↔ n ≤ 3 := by
  rcases n with _ | _ | _ | _ | n <;> simp [LineClass.ofCode]
theorem admin_ofCode_isSome (n : Nat) : (Admin.ofCode n).isSome = true ↔ n ≤ 2 := by
  rcases n with _ | _ | _ | n <;> simp [Admin.ofCode]
theorem homeOfCode_isSome (n : Nat) : (homeOfCode n).isSome = true ↔ n = 1 ∨ n = 2 := by
  rcases n with _ | _ | _ | n <;> simp [homeOfCode]
theorem direction_ofCode_isSome (n : Nat) : (Direction.ofCode n).isSome = true ↔ n ≤ 2 := by
  rcases n with _ | _ | _ | n <;> simp [Direction.ofCode]
theorem glare_ofCode_isSome (n : Nat) : (Glare.ofCode n).isSome = true ↔ n ≤ 1 := by
  rcases n with _ | _ | n <;> simp [Glare.ofCode]
theorem period_ofCode_isSome (n : Nat) : (Period.ofCode n).isSome = true ↔ n ≤ 3 := by
  rcases n with _ | _ | _ | _ | n <;> simp [Period.ofCode]
theorem profile_ofCode_isSome (n : Nat) : (Profile.ofCode n).isSome = true ↔ n ≤ 1 := by
  rcases n with _ | _ | n <;> simp [Profile.ofCode]
theorem source_ofCode_isSome (n : Nat) : (Source.ofCode n).isSome = true ↔ n ≤ 2 := by
  rcases n with _ | _ | _ | n <;> simp [Source.ofCode]

/-- A byte of the `i`-th record stands at its place among the bytes of the request. -/
theorem byteAt_recordAt {table k : Nat} (i : Nat) (records : List Byte) (h : k < (recordSize table).getD 0) :
    byteAt (recordAt table i records) k = (records.getD (i * (recordSize table).getD 0 + k) 0).toNat := by
  simp only [byteAt, recordAt, List.getD_eq_getElem?_getD, List.getElem?_take, List.getElem?_drop, if_pos h]

/-- The model's check of the enumerated fields is the one of section 10.3. -/
theorem enumsOk_iff {table : Nat} (h : table ≤ 9) (i : Nat) (records : List Byte) :
    enumsOk table (recordAt table i records) = true ↔ InSet table i records := by
  have byte : ∀ k, k < (recordSize table).getD 0 → byteAt (recordAt table i records) k =
      (records.getD (i * (recordSize table).getD 0 + k) 0).toNat := fun k => byteAt_recordAt i records
  interval_cases table
  · simp only [enumsOk, byte 0 (by decide), byte 1 (by decide), Bool.and_eq_true, lineClass_ofCode_isSome,
      admin_ofCode_isSome]
    rfl
  · simp only [enumsOk, byte 0 (by decide), homeOfCode_isSome]
    rfl
  · simp only [enumsOk, byte 0 (by decide), homeOfCode_isSome]
    rfl
  · simp only [enumsOk, byte 1 (by decide), byte 2 (by decide), byte 3 (by decide), Bool.and_eq_true,
      direction_ofCode_isSome, glare_ofCode_isSome, admin_ofCode_isSome, and_assoc]
    rfl
  · simp only [enumsOk, byte 0 (by decide), admin_ofCode_isSome]
    rfl
  · simp only [enumsOk, byte 0 (by decide), admin_ofCode_isSome]
    rfl
  · simp [enumsOk, InSet]
  · simp only [enumsOk, byte 3 (by decide), byte 4 (by decide), Bool.and_eq_true, period_ofCode_isSome,
      profile_ofCode_isSome]
    rfl
  · simp [enumsOk, InSet]
  · simp only [enumsOk, byte 0 (by decide), source_ofCode_isSome]
    rfl

/-! ## WRITE TABLE refused (R16) -/

/-- A refusal of WRITE TABLE is its reply, and the part is left as it was. -/
theorem writeTable_refused {s : State} {tag table count : Byte} {first : Word16} {records : List Byte} {m : Moment}
    {code : ResultCode} (hm : MaintTakes s.part) (hf : recordsFit table count records = true)
    (h : writeRefusal table.toNat first.toNat count.toNat records s.part = some code) :
    Replies (.writeTable tag table first count records m) s .maint { tag := tag, code := code } s.part := by
  refine replies_of_reply (f := writeTableRequest tag table first count records m) ?_ hm ?_
  · show execWriteTable tag table first count records m s = _
    rw [execWriteTable, if_pos hf]
  · simp only [writeTableRequest, h]

/-- The lengths of the ten tables (section 11.4). -/
theorem tableLength_eq {table : Nat} (h : table ≤ 9) :
    [2048, 32, 8, 48, 384, 96, 64, 16, 1, 1].getD table 0 = tableLength table := by
  interval_cases table <;> rfl

/-- Settles O24: each clause names the refusal of `writeRefusal`, the enumerated fields by `enumsOk_iff`. -/
theorem refusedWriteWritesNothing : Obligations.RefusedWriteWritesNothing := by
  intro s tag table count first records m hm hf
  refine ⟨fun h => writeTable_refused hm hf ?_, fun h1 h2 h3 => ?_⟩
  · simp only [writeRefusal, headerRefusal_format h]
  have hset : ∀ i, enumsOk table.toNat (recordAt table.toNat i records) = true ↔ InSet table.toNat i records :=
    fun i => enumsOk_iff h3 i records
  refine ⟨fun h => writeTable_refused hm hf ?_, fun h hi => writeTable_refused hm hf ?_,
    fun h hi ht hs => writeTable_refused hm hf ?_⟩
  · rw [tableLength_eq h3] at h
    simp only [writeRefusal, headerRefusal_noSuch h1 h2 h3 h]
  · rw [tableLength_eq h3] at h
    obtain ⟨i, hi, hn⟩ := hi
    have hn' : enumsOk table.toNat (recordAt table.toNat i records) = false :=
      Bool.not_eq_true _ ▸ fun g => hn ((hset i).mp g)
    have hany : (List.range count.toNat).any
        (fun i => !enumsOk table.toNat (recordAt table.toNat i records)) = true :=
      List.any_eq_true.mpr ⟨i, List.mem_range.mpr hi, by rw [hn']; rfl⟩
    simp only [writeRefusal, headerRefusal_none h1 h2 h3 h, if_pos hany]
  · rw [tableLength_eq h3] at h
    have hall : ¬ (List.range count.toNat).any
        (fun i => !enumsOk table.toNat (recordAt table.toNat i records)) = true := by
      rw [List.any_eq_true]
      rintro ⟨i, hr, hn⟩
      rw [(hset i).mpr (hi i (List.mem_range.mp hr))] at hn
      cases hn
    simp only [writeRefusal, headerRefusal_none h1 h2 h3 h, if_neg hall, hs, ht, and_self, if_true]

end Sys2Proof.Machine
end

section
/-!
PROOFS. WRITE TABLE of one record (R16, R172), table by table.
-/

namespace Sys2Proof.Machine

variable {s : Part}

/-! ## One record (R16) -/

theorem clamp_eq {lo hi : Nat} (h : lo ≤ hi) (n : Nat) : clamp lo hi n = max lo (min n hi) := by
  unfold clamp
  split
  · omega
  · split <;> omega

theorem clamp_ne_iff {lo hi : Nat} (h : lo ≤ hi) (n : Nat) : clamp lo hi n ≠ n ↔ ¬ (lo ≤ n ∧ n ≤ hi) := by
  rw [clamp_eq h]
  omega

/-- A value that cannot be too small is clamped from above. -/
theorem clamp_zero (hi n : Nat) : clamp 0 hi n = min n hi := by
  rw [clamp_eq (Nat.zero_le hi), Nat.zero_max]

theorem recordAt_zero {table : Nat} {records : List Byte} (h : recordSize table = some records.length) :
    recordAt table 0 records = records := by
  simp [recordAt, h]

/-- The code that answers a write: DONE while `p` holds of its fields, DONE CLAMPED otherwise (R16). -/
theorem writeCode {table : Nat} {r : List Byte} {p : Prop} [Decidable p] (h : clamps table r = true ↔ ¬ p) :
    (if clamps table r then ResultCode.doneClamped else .done) = if p then .done else .doneClamped := by
  by_cases hp : p <;> simp [hp, h]

/-- A WRITE TABLE of one record that is not refused: the record is written, what the table's writes bring about
follows, and the reply names whether a field was clamped (R16). -/
theorem writeTable_one {s : State} {tag table : Byte} {first : Word16} {r : List Byte} {m : Moment}
    {code : ResultCode} {q : Part} (hm : MaintTakes s.part) (hr : recordSize table.toNat = some r.length)
    (hf : first.toNat < tableLength table.toNat) (he : enumsOk table.toNat r = true)
    (hs : ¬ (s.part.supply.inService = true ∧ (table.toNat = 4 ∨ table.toNat = 5)))
    (hc : (if clamps table.toNat r then ResultCode.doneClamped else .done) = code)
    (hq : afterWrite m table.toNat (writeRecord table.toNat first.toNat r s.part) = q) :
    Replies (.writeTable tag table first 1 r m) s .maint { tag := tag, code := code } q := by
  have h9 : table.toNat ≤ 9 := by
    by_contra g
    have : recordSize table.toNat = none := by
      unfold recordSize
      split <;> first | omega | rfl
    rw [this] at hr
    cases hr
  have hw : writeRefusal table.toNat first.toNat (1 : Byte).toNat r s.part = none := by
    simp only [writeRefusal, headerRefusal_none (count := (1 : Byte).toNat) (by decide) (by decide) h9
      (Nat.succ_le_of_lt hf)]
    rw [if_neg (by simp [List.range_succ, recordAt_zero hr, he]), if_neg hs]
  refine replies_of_reply (f := writeTableRequest tag table first 1 r m) ?_ hm ?_
  · show execWriteTable tag table first 1 r m s = _
    rw [execWriteTable, if_pos (by simp [recordsFit, hr])]
  · simp only [writeTableRequest, hw]
    simp [writeRecords, List.range_succ, recordAt_zero hr, hq, hc]

/-! ## Frames, routes and the tariff (R13, R14, R108 to R110) -/

theorem route_retry (r : Nat) (s : Part) : route r (retry s) = route r s := rfl

theorem homeOfCode_of_code {c : Ctl} {n : Nat} (h : ctlCode (some c) = n) : homeOfCode n = some c := by
  subst h
  cases c <;> rfl

/-- A frame entry written (R13). -/
theorem writeTable_frame {s : State} {tag x y : Byte} {first : Word16} {m : Moment} (hm : MaintTakes s.part)
    (ht : TablesOk s.part) (hf : first.toNat < 32) {c : Ctl} (hc : ctlCode (some c) = x.toNat) :
    ∃ q, Replies (.writeTable tag 1 first 1 [x, y] m) s .maint
        { tag := tag, code := if 2 ≤ y.toNat ∧ y.toNat ≤ 15 then .done else .doneClamped } q ∧
      frame first.toNat q =
        { frame first.toNat s.part with home := some c, seize := max 2 (min y.toNat 15) } ∧
      (∀ f, f ≠ first.toNat → frame f q = frame f s.part) ∧
      q = { s.part with net.frames := q.net.frames, orig.request := q.orig.request } := by
  have hh : homeOfCode (byteAt [x, y] 0) = some c := homeOfCode_of_code hc
  refine ⟨retry (modFrame first.toNat
    (fun f => { f with home := homeOfCode (byteAt [x, y] 0), seize := clamp 2 15 (byteAt [x, y] 1) }) s.part),
    writeTable_one hm rfl hf ?_ (by simp) (writeCode ?_) rfl, ?_, fun f hf => ?_, rfl⟩
  · show (homeOfCode (byteAt [x, y] 0)).isSome = true
    rw [hh]
    rfl
  · show decide (clamp 2 15 y.toNat ≠ y.toNat) = true ↔ _
    rw [decide_eq_true_iff, clamp_ne_iff (by decide)]
  · rw [frame_retry, frame_modFrame ht, hh, clamp_eq (by decide)]
    rfl
  · rw [frame_retry, frame_modFrame_of_ne hf]

/-- A route entry written (R14). -/
theorem writeTable_route {s : State} {tag x y : Byte} {first : Word16} {m : Moment} (hm : MaintTakes s.part)
    (ht : TablesOk s.part) (hf : first.toNat < 8) {c : Ctl} (hc : ctlCode (some c) = x.toNat) :
    ∃ q, Replies (.writeTable tag 2 first 1 [x, y] m) s .maint { tag := tag, code := .done } q ∧
      route first.toNat q = { route first.toNat s.part with home := some c } ∧
      (∀ r, r ≠ first.toNat → route r q = route r s.part) ∧
      q = { s.part with net.routes := q.net.routes, orig.request := q.orig.request } := by
  have hh : homeOfCode (byteAt [x, y] 0) = some c := homeOfCode_of_code hc
  refine ⟨retry (modRoute first.toNat (fun r => { r with home := homeOfCode (byteAt [x, y] 0) }) s.part),
    writeTable_one hm rfl hf ?_ (by simp) rfl rfl, ?_, fun r hr => ?_, rfl⟩
  · show (homeOfCode (byteAt [x, y] 0)).isSome = true
    rw [hh]
    rfl
  · rw [route_retry, route_modRoute ht, hh]
  · rw [route_retry, route_modRoute_of_ne hr]

theorem clampPeriod_eq (p : Nat) : clampPeriod p = if p = 0 then 0 else max 10 (min p 6000) := by
  rw [clampPeriod, clamp_eq (by decide)]

theorem takeIncrements_of_noCall (h : s.calls = []) : takeIncrements s = s := by
  simp [takeIncrements, callsWith, h]

/-- A tariff entry written while no call record is in use (R108 to R110). -/
theorem writeTable_tariff {s : State} {tag x y z : Byte} {first : Word16} {m : Moment} (hm : MaintTakes s.part)
    (ht : TablesOk s.part) (hf : first.toNat < 64) (hn : s.part.calls = []) (hl : s.part.charge.incs.length = 16) :
    let p := x.toNat * 256 + y.toNat
    ∃ q, Replies (.writeTable tag 6 first 1 [x, y, z, 0, 0, 0] m) s .maint
        { tag := tag
          code := if (p = 0 ∨ 10 ≤ p ∧ p ≤ 6000) ∧ z.toNat ≤ 15 then .done else .doneClamped } q ∧
      Table.get {} q.charge.tariff first.toNat =
        { unitPeriod := if p = 0 then 0 else max 10 (min p 6000), answerUnits := min z.toNat 15 } ∧
      (∀ i, i ≠ first.toNat →
        Table.get {} q.charge.tariff i = Table.get {} s.part.charge.tariff i) ∧
      (∀ b, b < 16 → q.charge.incs.getD b 0 =
        if b = first.toNat / 4 ∧ first.toNat % 4 = s.part.charge.period.code then
          increment (if p = 0 then 0 else max 10 (min p 6000))
        else s.part.charge.incs.getD b 0) ∧
      q = { s.part with charge := { q.charge with period := s.part.charge.period } } := by
  intro p
  obtain ⟨t, hT⟩ : ∃ t : Tariff, t =
      { unitPeriod := if p = 0 then 0 else max 10 (min p 6000), answerUnits := min z.toNat 15 } := ⟨_, rfl⟩
  obtain ⟨incs, hI⟩ : ∃ l : List Nat, l = if first.toNat % 4 = s.part.charge.period.code then
      s.part.charge.incs.set (first.toNat / 4) (increment t.unitPeriod) else s.part.charge.incs := ⟨_, rfl⟩
  have hw : writeTariff first.toNat [x, y, z, 0, 0, 0] s.part = { s.part with
      charge.tariff := Table.put {} s.part.charge.tariff first.toNat t, charge.incs := incs } := by
    have h1 : clampPeriod (wordAt [x, y, z, 0, 0, 0] 0) = t.unitPeriod := by
      rw [clampPeriod_eq, hT]
      rfl
    have h2 : clamp 0 15 (byteAt [x, y, z, 0, 0, 0] 2) = t.answerUnits := by
      rw [clamp_zero, hT]
      rfl
    simp only [writeTariff, h1, h2, hI]
    split
    · exact takeIncrements_of_noCall hn
    · rfl
  refine ⟨_, writeTable_one hm rfl hf rfl (by simp) (writeCode ?_) hw, ?_, fun i hi => ?_, fun b hb => ?_, rfl⟩
  · have h1 : clampPeriod p ≠ p ↔ ¬ (p = 0 ∨ 10 ≤ p ∧ p ≤ 6000) := by
      rw [clampPeriod_eq]
      split <;> omega
    have h2 := clamp_ne_iff (Nat.zero_le 15) z.toNat
    have h3 : clamps 6 [x, y, z, 0, 0, 0] = decide (clampPeriod p ≠ p ∨ clamp 0 15 z.toNat ≠ z.toNat) := rfl
    show clamps 6 [x, y, z, 0, 0, 0] = true ↔ _
    rw [h3, decide_eq_true_iff, h1, h2]
    omega
  · rw [← hT]
    exact Table.get_put_same ht.tariff
  · exact Table.get_put_ne hi
  · show incs.getD b 0 = _
    rw [hI, hT]
    by_cases h1 : first.toNat % 4 = s.part.charge.period.code
    · by_cases h2 : first.toNat / 4 = b
      · subst h2
        simp [h1, List.getD_eq_getElem?_getD, hl, hb]
      · simp [h1, Ne.symm h2, List.getD_eq_getElem?_getD, List.getElem?_set_ne h2]
    · simp [h1]

end Sys2Proof.Machine
end

section
/-!
PROOFS. WRITE TABLE of one record: the calendar, the timer table, the preferred source, and elements in LOADING.
-/

namespace Sys2Proof.Machine

variable {s : Part}

/-! ## The calendar and the timer table (R163, R165, R45, R50, R59, R88, R127) -/

theorem period_ofCode_code (p : Period) : Period.ofCode p.code = some p := by cases p <;> rfl
theorem profile_ofCode_code (f : Profile) : Profile.ofCode f.code = some f := by cases f <;> rfl

/-- A calendar entry written, with the evaluation that follows (R163, R165). -/
theorem writeTable_calendar {s : State} {tag x y z u v : Byte} {first : Word16} {m : Moment}
    (hm : MaintTakes s.part) (ht : TablesOk s.part) (hf : first.toNat < 16) {p : Period} {f : Profile}
    (hp : p.code = u.toNat) (hv : f.code = v.toNat) :
    let minute := y.toNat * 256 + z.toNat
    ∃ q, Replies (.writeTable tag 7 first 1 [x, y, z, u, v] m) s .maint
        { tag := tag, code := if minute ≤ 1439 then .done else .doneClamped } q ∧
      (∀ i, Table.get {} q.cal.entries i =
        if i = first.toNat then
          { mask := b8 (x.toNat % 128), minute := min minute 1439, period := p, profile := f }
        else Table.get {} s.part.cal.entries i) ∧
      Evaluated { s.part with cal.entries := q.cal.entries } q := by
  intro minute
  have h1 : Period.ofCode (byteAt [x, y, z, u, v] 3) = some p := (congrArg _ hp.symm).trans (period_ofCode_code p)
  have h2 : Profile.ofCode (byteAt [x, y, z, u, v] 4) = some f := (congrArg _ hv.symm).trans (profile_ofCode_code f)
  obtain ⟨e, he⟩ : ∃ e : CalEntry, e =
      { mask := b8 (x.toNat % 128), minute := min minute 1439, period := p, profile := f } := ⟨_, rfl⟩
  have hw : writeCalendar first.toNat [x, y, z, u, v] s.part =
      { s.part with cal.entries := Table.put {} s.part.cal.entries first.toNat e } := by
    simp only [writeCalendar, h1, h2, clamp_zero, he]
    rfl
  have hv : Evaluated (writeCalendar first.toNat [x, y, z, u, v] s.part)
      (evaluate (writeCalendar first.toNat [x, y, z, u, v] s.part)) := by
    refine evaluated_evaluate ?_
    rw [hw]
    exact { ht with calendar := Table.wf_put ht.calendar }
  have hk : (evaluate (writeCalendar first.toNat [x, y, z, u, v] s.part)).cal.entries =
      Table.put {} s.part.cal.entries first.toNat e := by
    rw [hv.1, hw]
  refine ⟨_, writeTable_one hm rfl hf ?_ (by simp) (writeCode ?_) rfl, fun i => ?_, ?_⟩
  · show ((Period.ofCode (byteAt [x, y, z, u, v] 3)).isSome &&
      (Profile.ofCode (byteAt [x, y, z, u, v] 4)).isSome) = true
    rw [h1, h2]
    rfl
  · show decide (clamp 0 1439 minute ≠ minute) = true ↔ _
    rw [decide_eq_true_iff, clamp_ne_iff (by decide)]
    omega
  · show Table.get {} (evaluate (writeCalendar first.toNat [x, y, z, u, v] s.part)).cal.entries i = _
    rw [hk, Table.get_put ht.calendar, he]
  · show Evaluated { s.part with
      cal.entries := (evaluate (writeCalendar first.toNat [x, y, z, u, v] s.part)).cal.entries } _
    rw [hk, ← hw]
    exact hv

theorem max_min_eq_iff {lo hi : Nat} (h : lo ≤ hi) (n : Nat) : max lo (min n hi) = n ↔ lo ≤ n ∧ n ≤ hi := by
  omega

theorem min_eq_iff (hi n : Nat) : min n hi = n ↔ n ≤ hi := by
  omega

/-- The timer table written (R45, R50, R59, R88, R127). -/
theorem writeTable_timers {s : State} {tag : Byte} {first : Word16} {m : Moment} (hm : MaintTakes s.part)
    (hf : first.toNat = 0) (b0 b1 b2 b3 b4 b5 b6 b7 b8 b9 b10 b11 b12 b13 b14 : Byte) :
    let ring := b6.toNat * 256 + b7.toNat
    Replies
      (.writeTable tag 8 first 1 [b0, b1, b2, b3, b4, b5, b6, b7, b8, b9, b10, b11, b12, b13, b14] m) s .maint
      { tag := tag
        code :=
          if (∀ b ∈ [b0, b1, b2, b3], 5 ≤ b.toNat ∧ b.toNat ≤ 60) ∧ b4.toNat ≤ 48 ∧ b5.toNat ≤ 48 ∧
            30 ≤ ring ∧ ring ≤ 300 ∧ 5 ≤ b9.toNat ∧ b9.toNat ≤ 120 ∧ b10.toNat ≤ 60 ∧
            ∀ b ∈ [b11, b12, b13, b14], b.toNat ≤ 3
          then .done else .doneClamped }
      { s.part with
        timers :=
          { firstNormal := max 5 (min b0.toNat 60), firstHeavy := max 5 (min b1.toNat 60)
            interNormal := max 5 (min b2.toNat 60), interHeavy := max 5 (min b3.toNat 60)
            reserveNormal := min b4.toNat 48, reserveHeavy := min b5.toNat 48
            noAnswer := max 30 (min ring 300), hold := b8.toNat
            waitLimit := max 5 (min b9.toNat 120), grace := min b10.toNat 60
            prioServer := min b11.toNat 3, prioA := min b12.toNat 3
            prioB := min b13.toNat 3, prioRelease := min b14.toNat 3 } } := by
  intro ring
  have hT : timersOf [b0, b1, b2, b3, b4, b5, b6, b7, b8, b9, b10, b11, b12, b13, b14] =
      { firstNormal := max 5 (min b0.toNat 60), firstHeavy := max 5 (min b1.toNat 60)
        interNormal := max 5 (min b2.toNat 60), interHeavy := max 5 (min b3.toNat 60)
        reserveNormal := min b4.toNat 48, reserveHeavy := min b5.toNat 48
        noAnswer := max 30 (min ring 300), hold := b8.toNat
        waitLimit := max 5 (min b9.toNat 120), grace := min b10.toNat 60
        prioServer := min b11.toNat 3, prioA := min b12.toNat 3
        prioB := min b13.toNat 3, prioRelease := min b14.toNat 3 } := by
    simp only [timersOf, clamp_zero, clamp_eq (show 5 ≤ 60 by decide), clamp_eq (show 30 ≤ 300 by decide),
      clamp_eq (show 5 ≤ 120 by decide)]
    rfl
  refine writeTable_one hm rfl (by rw [hf]; decide) rfl (by simp) (writeCode ?_) (by
    show ({ s.part with timers := timersOf _ } : Part) = _
    rw [hT])
  show decide (timersOf _ ≠ rawTimers _) = true ↔ _
  rw [decide_eq_true_iff, hT]
  refine not_congr ?_
  have hraw : rawTimers [b0, b1, b2, b3, b4, b5, b6, b7, b8, b9, b10, b11, b12, b13, b14] =
      { firstNormal := b0.toNat, firstHeavy := b1.toNat, interNormal := b2.toNat, interHeavy := b3.toNat
        reserveNormal := b4.toNat, reserveHeavy := b5.toNat, noAnswer := ring, hold := b8.toNat
        waitLimit := b9.toNat, grace := b10.toNat, prioServer := b11.toNat, prioA := b12.toNat
        prioB := b13.toNat, prioRelease := b14.toNat } := rfl
  rw [hraw]
  simp only [TimerTable.mk.injEq, max_min_eq_iff (show 5 ≤ 60 by decide), max_min_eq_iff (show 30 ≤ 300 by decide),
    max_min_eq_iff (show 5 ≤ 120 by decide), min_eq_iff, List.forall_mem_cons, List.not_mem_nil, false_imp_iff,
    implies_true, and_true, true_and, and_assoc]

/-! ## The preferred source (R158) -/

theorem source_ofCode_code (src : Source) : Source.ofCode src.code = some src := by cases src <;> rfl

/-- A maintenance notice raised with room joins what the port has still to send, and nothing else changes (R180). -/
theorem noticed_raiseMaint {k : MaintKind} {d : List Byte} (h : MaintRoom s) : Noticed k d s (raiseMaint k d s) := by
  have hr : room .maint s = true := decide_eq_true h.1
  rw [raiseMaint_of_room s k d hr h.2]
  exact ⟨noticesDue_enter s .maint _, sameBut_enter s .maint _⟩

/-- A source selected gives no tick at once where it is STATION or 100 ms have not passed (R160). -/
theorem selectNow_of_noTick {m : Moment} {src : Source} (h : src = .station ∨ m.sinceTick < 100) (s : Part) :
    selectNow m src s = modTb (fun t =>
      { t with selection := src, fallback := if src = t.preferred then false else t.fallback }) s := by
  unfold selectNow placeTick
  rw [if_neg]
  rintro ⟨g1, g2⟩
  obtain h | h := h
  · exact g1 h
  · exact absurd g2 (Nat.not_le.mpr h)

/-- The preferred source written, with the policy (R158). -/
theorem writeTable_preferred {s : State} {tag x : Byte} {first : Word16} {m : Moment} (hm : MaintTakes s.part)
    (hf : first.toNat = 0) {src : Source} (hs : src.code = x.toNat) {q : Part}
    (hq : policy m { s.part with tb.preferred := src } = q) :
    Replies (.writeTable tag 9 first 1 [x] m) s .maint { tag := tag, code := .done } q := by
  have h1 : Source.ofCode (byteAt [x] 0) = some src := (congrArg _ hs.symm).trans (source_ofCode_code src)
  refine writeTable_one hm rfl (by rw [hf]; decide) ?_ (by simp) rfl ?_
  · show (Source.ofCode (byteAt [x] 0)).isSome = true
    rw [h1]
    rfl
  · show policy m (modTb (fun t => { t with preferred := (Source.ofCode (byteAt [x] 0)).getD t.preferred }) s.part) = q
    rw [h1]
    exact hq

/-- What the policy does with a preferred source that is usable (R158). -/
theorem policy_of_usable {src : Source} (hp : s.tb.preferred = src) (hu : usable src s = true) (m : Moment) :
    (src = s.tb.selection → policy m s = { s with tb.fallback := false }) ∧
      (src ≠ s.tb.selection → src = .station ∨ m.sinceTick < 100 →
        policy m s = if s.tb.fallback then
          raiseMaint .timebaseRestored [b8 src.code, b8 s.tb.selection.code]
            { s with tb.selection := src, tb.fallback := false }
        else { s with tb.selection := src, tb.fallback := false }) := by
  have hc : policyChoice s = some src := by simp [policyChoice, hp, hu]
  refine ⟨fun h => ?_, fun h hk => ?_⟩
  · subst hp
    simp only [policy, hc, if_pos h, if_true]
    rfl
  · simp only [policy, hc, if_neg h, selectNow_of_noTick hk, modTb, hp, if_true]

/-- What the policy does with a preferred source that is not usable (R158): it selects a CRYSTAL that is READY in its
place, and nothing otherwise. -/
theorem policy_of_unusable {src : Source} (hp : s.tb.preferred = src) (hu : usable src s = false) (m : Moment) :
    (s.tb.crystal ≠ .ready ∨ s.tb.selection = .crystal → policy m s = s) ∧
      (s.tb.crystal = .ready → s.tb.selection = .internal → m.sinceTick < 100 →
        policy m s = if s.tb.fallback then
          raiseMaint .timebaseRestored [b8 1, b8 2] { s with tb.selection := .crystal }
        else { s with tb.selection := .crystal }) := by
  have hi : src ≠ .internal := by
    rintro rfl
    cases hu
  refine ⟨fun h => ?_, fun h1 h2 h3 => ?_⟩
  · by_cases hr : s.tb.crystal = .ready
    · have hsel : s.tb.selection = .crystal := h.resolve_left (not_not.mpr hr)
      have hc : src ≠ .crystal := by
        rintro rfl
        rw [usable, hr] at hu
        cases hu
      have hch : policyChoice s = some .crystal := by simp [policyChoice, hp, hu, hi, hr]
      simp only [policy, hch, hsel, if_true, hp, if_neg hc.symm]
    · have hch : policyChoice s = none := by simp [policyChoice, hp, hu, hr]
      simp only [policy, hch]
  · have hc : src ≠ .crystal := by
      rintro rfl
      rw [usable, h1] at hu
      cases hu
    have hch : policyChoice s = some .crystal := by simp [policyChoice, hp, hu, hi, h1]
    simp only [policy, hch, h2, selectNow_of_noTick (.inr h3), modTb, hp, if_neg hc.symm]
    rfl

/-! ## Frame links and cords in LOADING (R16) -/

/-- The administrative state of a FREE frame link or cord written in LOADING (R16). -/
theorem writeTable_elem {s : State} {tag x y table : Byte} {first : Word16} {m : Moment} (hm : MaintTakes s.part)
    (ht : TablesOk s.part) (hl : s.part.supply.inService = false) (hx : x.toNat ≤ 2) {e : ElemId}
    (he : (e = .fl first.toNat ∧ table = 4 ∧ first.toNat < 384) ∨
      (e = .cord first.toNat ∧ table = 5 ∧ first.toNat < 96))
    (ho : (elem e s.part).occ = .free) (ha : (elem e s.part).admin ≠ .busyOutPending) :
    ∃ q, Replies (.writeTable tag table first 1 [x, y] m) s .maint { tag := tag, code := .done } q ∧
      elem e q = { occ := .free, admin := if x.toNat = 0 then .inService else .busyOut } ∧
      (∀ f, f ≠ e → elem f q = elem f s.part) ∧
      q = { s.part with
        net.fls := q.net.fls, net.cords := q.net.cords, orig.request := q.orig.request } := by
  have hj : ∀ j, e ≠ .junction j := by
    obtain ⟨rfl, -⟩ | ⟨rfl, -⟩ := he <;> exact fun j k => by cases k
  have hk : (Admin.ofCode x.toNat).isSome = true := (admin_ofCode_isSome _).mpr hx
  have hw : ∀ q, writeElem e [x, y] s.part = q →
      Replies (.writeTable tag table first 1 [x, y] m) s .maint { tag := tag, code := .done } q := by
    intro q hq
    obtain ⟨rfl, rfl, hn⟩ | ⟨rfl, rfl, hn⟩ := he
    · exact writeTable_one hm rfl hn hk (by simp [hl]) rfl hq
    · exact writeTable_one hm rfl hn hk (by simp [hl]) rfl hq
  by_cases h0 : x.toNat = 0
  · refine ⟨returnElem e s.part, hw _ ?_, ?_, fun f hf => ?_, return_frame hj s.part⟩
    · show loadAdmin x.toNat _ _ _ = _
      rw [h0]
      rfl
    · rw [elem_returnElem ht, if_pos rfl, if_pos h0, Element.returned, ho]
      rfl
    · rw [elem_returnElem ht, if_neg hf]
  · refine ⟨busyOutElem e s.part, hw _ ?_, ?_, fun f hf => ?_, ?_⟩
    · show loadAdmin x.toNat _ _ _ = _
      obtain h1 | h1 : x.toNat = 1 ∨ x.toNat = 2 := by omega
      · rw [h1]
        rfl
      · rw [h1]
        rfl
    · have hb : (elem e s.part).busyAdmin = .busyOut := by
        cases hs : (elem e s.part).admin with
        | inService => simp only [Element.busyAdmin, hs, ho]
        | busyOut => simp only [Element.busyAdmin, hs]
        | busyOutPending => exact absurd hs ha
      rw [elem_busyOutElem ht, if_pos rfl, if_neg h0]
      simp only [ho, hb]
    · rw [elem_busyOutElem ht, if_neg hf]
    · conv_lhs => rw [busyOut_frame ht hj]
      rw [busyOut_frame ht hj]

end Sys2Proof.Machine
end

section
/-!
PROOFS. WRITE TABLE of one record: lines (R12) and junctions (R15, R34) in IN SERVICE, and the ten tables together.
-/

namespace Sys2Proof.Machine

variable {s : Part}

/-- The server's test for candidates changes its request alone (R47). -/
theorem retry_frame {t : Part} {n : Net} {sc : Scanner} {q : List WaitEntry} {r : Option Nat}
    (h : t = { s with net := n, scan := sc, orig.queue := q, orig.request := r }) :
    retry t = { s with net := n, scan := sc, orig.queue := q, orig.request := (retry t).orig.request } := by
  have e : retry t = { t with orig.request := (retry t).orig.request } := rfl
  generalize (retry t).orig.request = w at e ⊢
  rw [e, h]

/-! ## Lines (R12) -/

theorem lineClass_ofCode_code (k : LineClass) : LineClass.ofCode k.code = some k := by cases k <;> rfl

/-- A class that takes effect on a line (R12): one that becomes UNEQUIPPED is withdrawn, and one that was has its point
as at reset. -/
theorem takeClass_spec (h : TablesOk s) (n : Nat) (k : LineClass) :
    let l := line n s
    let goes := k = .unequipped ∧ l.cls ≠ .unequipped
    let q := takeClass n k s
    (goes → line n q = Line.withdrawn { l with cls := k, pendCls := none } ∧
        q.orig.queue = s.orig.queue.filter (fun w => decide (w.origin ≠ .line n))) ∧
      (¬ goes → line n q = { l with cls := k, pendCls := none } ∧ q.orig.queue = s.orig.queue) ∧
      (∀ x, x ≠ n → line x q = line x s) ∧
      (l.cls = .unequipped → k ≠ .unequipped → l.admin = .inService → point n q = {}) ∧
      (∀ p, p ≠ n → point p q = point p s) ∧
      q = { s with
        net.lines := q.net.lines, scan.points := q.scan.points
        orig.queue := q.orig.queue, orig.request := q.orig.request } := by
  intro l goes q
  obtain ⟨u, hu⟩ : ∃ u, u = modLine n (fun l => { l with cls := k, pendCls := none }) s := ⟨_, rfl⟩
  have hut : TablesOk u := hu ▸ h.modLine _ _
  have hul : line n u = { l with cls := k, pendCls := none } := by rw [hu, line_modLine h]
  have hux : ∀ x, x ≠ n → line x u = line x s := fun x hx => by rw [hu, line_modLine_of_ne hx]
  have hup : ∀ p, point p u = point p s := fun p => by rw [hu, point_modLine]
  have huf : u = { s with net.lines := u.net.lines } := by rw [hu]; rfl
  have huq : u.orig = s.orig := by rw [huf]
  by_cases hg : k = .unequipped ∧ l.cls ≠ .unequipped
  · have hq : q = withdrawLine n u := by
      show takeClass n k s = _
      unfold takeClass
      dsimp only
      rw [if_pos hg, hu]
    refine ⟨fun _ => ⟨?_, ?_⟩, fun g => absurd hg g, fun x hx => ?_, fun g => absurd g hg.2, fun p hp => ?_, ?_⟩
    · rw [hq, line_withdrawLine hut, if_pos rfl, hul]
    · rw [hq, queue_withdrawLine, huq]
    · rw [hq, line_withdrawLine hut, if_neg hx, hux x hx]
    · rw [hq, point_withdrawLine hut hp, hup]
    · rw [hq, withdrawLine_frame, huf]
  · by_cases hr : l.cls = .unequipped ∧ k ≠ .unequipped ∧ l.admin = .inService
    · have hq : q = resetPoint n u := by
        show takeClass n k s = _
        have hr' : (line n s).cls = .unequipped ∧ k ≠ .unequipped ∧ (line n u).admin = .inService := by
          rw [hul]
          exact hr
        unfold takeClass
        dsimp only
        rw [if_neg hg, ← hu, if_pos hr']
      refine ⟨fun g => absurd g hg, fun _ => ⟨?_, ?_⟩, fun x hx => ?_, fun _ _ _ => ?_, fun p hp => ?_, ?_⟩
      · rw [hq, resetPoint, line_modPoint, hul]
      · rw [hq, resetPoint, modPoint_orig, huq]
      · rw [hq, resetPoint, line_modPoint, hux x hx]
      · rw [hq, resetPoint, point_modPoint hut]
      · rw [hq, resetPoint, point_modPoint_of_ne hp, hup]
      · rw [hq, huf]
        rfl
    · have hq : q = u := by
        show takeClass n k s = _
        have hr' : ¬ ((line n s).cls = .unequipped ∧ k ≠ .unequipped ∧ (line n u).admin = .inService) := by
          rw [hul]
          exact hr
        unfold takeClass
        dsimp only
        rw [if_neg hg, ← hu, if_neg hr']
      refine ⟨fun g => absurd g hg, fun _ => ⟨?_, ?_⟩, fun x hx => ?_, fun g1 g2 g3 => absurd ⟨g1, g2, g3⟩ hr,
        fun p _ => ?_, ?_⟩
      · rw [hq, hul]
      · rw [hq, huq]
      · rw [hq, hux x hx]
      · rw [hq, hup]
      · rw [hq, huf]

/-- A class written to a line in IN SERVICE (R12). -/
theorem writeTable_line {s : State} {tag x y z : Byte} {first : Word16} {m : Moment} (hm : MaintTakes s.part)
    (ht : TablesOk s.part) (hf : first.toNat < 2048) (hs : s.part.supply.inService = true) {k : LineClass}
    (hk : k.code = x.toNat) (hy : y.toNat ≤ 2) :
    let l := line first.toNat s.part
    let goes := k = .unequipped ∧ l.cls ≠ .unequipped
    (callOf (.line first.toNat) s.part ≠ none →
      ∃ q, Replies (.writeTable tag 0 first 1 [x, y, z] m) s .maint { tag := tag, code := .done } q ∧
        line first.toNat q = { l with pendCls := if k = l.cls then none else some k } ∧
        (∀ lt, lt ≠ first.toNat → line lt q = line lt s.part) ∧
        q = { s.part with net.lines := q.net.lines, orig.request := q.orig.request }) ∧
    (callOf (.line first.toNat) s.part = none →
      ∃ q, Replies (.writeTable tag 0 first 1 [x, y, z] m) s .maint { tag := tag, code := .done } q ∧
        (goes → line first.toNat q =
          { l with
            cls := k, pendCls := none, marked := false
            sup := match l.sup with | .inCall id => .inCall id | _ => .idle }) ∧
        (¬ goes → line first.toNat q = { l with cls := k, pendCls := none }) ∧
        (∀ lt, lt ≠ first.toNat → line lt q = line lt s.part) ∧
        (goes → q.orig.queue =
          s.part.orig.queue.filter (fun w => decide (w.origin ≠ .line first.toNat))) ∧
        (¬ goes → q.orig.queue = s.part.orig.queue) ∧
        (l.cls = .unequipped → k ≠ .unequipped → l.admin = .inService → point first.toNat q = {}) ∧
        (∀ p, p ≠ first.toNat → point p q = point p s.part) ∧
        q = { s.part with
          net.lines := q.net.lines, scan.points := q.scan.points
          orig.queue := q.orig.queue, orig.request := q.orig.request }) := by
  intro l goes
  have h1 : LineClass.ofCode (byteAt [x, y, z] 0) = some k := (congrArg _ hk.symm).trans (lineClass_ofCode_code k)
  have hw : ∀ q, retry (writeClass first.toNat k s.part) = q →
      Replies (.writeTable tag 0 first 1 [x, y, z] m) s .maint { tag := tag, code := .done } q := by
    intro q hq
    refine writeTable_one hm rfl hf ?_ (by simp) rfl ?_
    · have h2 : (Admin.ofCode y.toNat).isSome = true := (admin_ofCode_isSome _).mpr hy
      show ((LineClass.ofCode (byteAt [x, y, z] 0)).isSome && (Admin.ofCode y.toNat).isSome) = true
      rw [h1, h2]
      rfl
    · show retry (writeLine first.toNat [x, y, z] s.part) = q
      rw [← hq]
      simp only [writeLine, hs, if_true, h1]
  refine ⟨fun hc => ?_, fun hc => ?_⟩
  · have e : writeClass first.toNat k s.part =
        modLine first.toNat (fun l => { l with pendCls := if k = l.cls then none else some k }) s.part := by
      simp [writeClass, Option.isSome_iff_ne_none, hc]
    refine ⟨_, hw _ rfl, ?_, fun lt hlt => ?_, ?_⟩
    · rw [e, line_retry, line_modLine ht]
    · rw [e, line_retry, line_modLine_of_ne hlt]
    · rw [e]
      rfl
  · have e : writeClass first.toNat k s.part = takeClass first.toNat k s.part := by simp [writeClass, hc]
    obtain ⟨g1, g2, g3, g4, g5, g6⟩ := takeClass_spec ht first.toNat k
    refine ⟨_, hw _ rfl, ?_⟩
    rw [e]
    refine ⟨fun g => (g1 g).1, fun g => (g2 g).1, g3, fun g => (g1 g).2, fun g => (g2 g).2, g4, g5, ?_⟩
    exact retry_frame g6

/-! ## Junctions (R15, R34) -/

theorem direction_ofCode_code (d : Direction) : Direction.ofCode d.code = some d := by cases d <;> rfl
theorem glare_ofCode_code (g : Glare) : Glare.ofCode g.code = some g := by cases g <;> rfl

/-- A route and direction written to a junction that is FREE and IDLE take effect at once (R15). -/
def Junction.written (r : Junction) (route : Nat) (d : Direction) : Junction :=
  { r with route := some route, dir := d, pendRoute := none, pendDir := none }

/-- A route and direction written to a junction (R15), with the seizure of one whose loop is held (R34). -/
theorem writeUse_spec (h : TablesOk s) (j route : Nat) (d : Direction) :
    let r := junction j s
    let seized := r.elem.admin = .inService ∧ d ≠ .outgoing ∧ (point (2336 + j) s).accepted = .loop
    let q := writeUse j route d s
    (¬ (r.elem.occ = .free ∧ r.sup = .idle) →
        junction j q = { r with pendRoute := some route, pendDir := some d }) ∧
      (r.elem.occ = .free → r.sup = .idle →
        (¬ seized → junction j q = r.written route d) ∧
        (seized → junction j q = { r.written route d with sup := .originating, marked := true })) ∧
      (∀ x, x ≠ j → junction x q = junction x s) ∧ (∀ p, p ≠ 2336 + j → point p q = point p s) ∧
      q = { s with
        net.junctions := q.net.junctions, scan.points := q.scan.points, orig.request := q.orig.request } := by
  intro r seized q
  by_cases hi : r.elem.occ = .free ∧ r.sup = .idle
  · obtain ⟨u, hu⟩ : ∃ u, u = modJunction j (fun r => r.written route d) s := ⟨_, rfl⟩
    have hut : TablesOk u := hu ▸ h.modJunction _ _
    have huj : junction j u = r.written route d := by rw [hu, junction_modJunction h]
    have hux : ∀ x, x ≠ j → junction x u = junction x s := fun x hx => by rw [hu, junction_modJunction_of_ne hx]
    have hup : ∀ p, point p u = point p s := fun p => by rw [hu, point_modJunction]
    have huf : u = { s with net.junctions := u.net.junctions } := by rw [hu]; rfl
    have hq : q = seizeIfLoop j u := by
      show writeUse j route d s = _
      unfold writeUse
      dsimp only
      rw [if_pos hi, hu]
      rfl
    by_cases hs : seized
    · obtain ⟨ha, hd, hl⟩ := hs
      have hz : seizeIfLoop j u = retry (rearm (2336 + j)
          (modJunction j (fun r => { r with sup := .originating, marked := true }) u)) := by
        unfold seizeIfLoop
        dsimp only
        rw [huj, if_pos ⟨hi.1, ha, hi.2, hd, (congrArg _ (hup _)).trans hl⟩]
        rfl
      refine ⟨fun k => absurd hi k, fun _ _ => ⟨fun k => absurd ⟨ha, hd, hl⟩ k, fun _ => ?_⟩, fun x hx => ?_,
        fun p hp => ?_, ?_⟩
      · rw [hq, hz, junction_retry, rearm_eq, junction_modPoint, junction_modJunction hut, huj]
      · rw [hq, hz, junction_retry, rearm_eq, junction_modPoint, junction_modJunction_of_ne hx, hux x hx]
      · rw [hq, hz, point_retry, rearm_eq, point_modPoint_of_ne hp, point_modJunction, hup]
      · rw [hq, hz]
        refine retry_frame (r := s.orig.request) ?_
        rw [huf]
        rfl
    · have hz : seizeIfLoop j u = u := by
        unfold seizeIfLoop
        dsimp only
        rw [huj, if_neg]
        rintro ⟨-, ha, -, hd, hl⟩
        exact hs ⟨ha, hd, (congrArg _ (hup _)).symm.trans hl⟩
      refine ⟨fun k => absurd hi k, fun _ _ => ⟨fun _ => ?_, fun k => absurd k hs⟩, fun x hx => ?_, fun p _ => ?_, ?_⟩
      · rw [hq, hz, huj]
      · rw [hq, hz, hux x hx]
      · rw [hq, hz, hup]
      · rw [hq, hz, huf]
  · have hq : q = modJunction j (fun r => { r with pendRoute := some route, pendDir := some d }) s := by
      show writeUse j route d s = _
      unfold writeUse
      dsimp only
      rw [if_neg hi]
    refine ⟨fun _ => ?_, fun k1 k2 => absurd ⟨k1, k2⟩ hi, fun x hx => ?_, fun p _ => ?_, ?_⟩
    · rw [hq, junction_modJunction h]
    · rw [hq, junction_modJunction_of_ne hx]
    · rw [hq, point_modJunction]
    · rw [hq]
      rfl

/-- A junction written in IN SERVICE (R15, R34). -/
theorem writeTable_junction {s : State} {tag x y z w : Byte} {first : Word16} {m : Moment} (hm : MaintTakes s.part)
    (ht : TablesOk s.part) (hf : first.toNat < 48) (hs : s.part.supply.inService = true) {d : Direction} {g : Glare}
    (hd : d.code = y.toNat) (hg : g.code = z.toNat) (hw : w.toNat ≤ 2) :
    let r := junction first.toNat s.part
    let seized := r.elem.admin = .inService ∧ d ≠ .outgoing ∧
      (point (2336 + first.toNat) s.part).accepted = .loop
    ∃ q, Replies (.writeTable tag 3 first 1 [x, y, z, w, 0, 0, 0] m) s .maint
        { tag := tag, code := if x.toNat ≤ 7 then .done else .doneClamped } q ∧
      (¬ (r.elem.occ = .free ∧ r.sup = .idle) →
        junction first.toNat q =
          { r with glare := g, pendRoute := some (min x.toNat 7), pendDir := some d }) ∧
      (r.elem.occ = .free → r.sup = .idle →
        (¬ seized → junction first.toNat q =
          { r with route := some (min x.toNat 7), dir := d, glare := g, pendRoute := none, pendDir := none }) ∧
        (seized → junction first.toNat q =
          { r with
            route := some (min x.toNat 7), dir := d, glare := g, pendRoute := none, pendDir := none
            sup := .originating, marked := true })) ∧
      (∀ j, j ≠ first.toNat → junction j q = junction j s.part) ∧
      (∀ p, p ≠ 2336 + first.toNat → point p q = point p s.part) ∧
      q = { s.part with
        net.junctions := q.net.junctions, scan.points := q.scan.points, orig.request := q.orig.request } := by
  intro r seized
  have h1 : Direction.ofCode (byteAt [x, y, z, w, 0, 0, 0] 1) = some d :=
    (congrArg _ hd.symm).trans (direction_ofCode_code d)
  have h2 : Glare.ofCode (byteAt [x, y, z, w, 0, 0, 0] 2) = some g := (congrArg _ hg.symm).trans (glare_ofCode_code g)
  obtain ⟨u, hu⟩ : ∃ u, u = modJunction first.toNat (fun x => { x with glare := g }) s.part := ⟨_, rfl⟩
  have hut : TablesOk u := hu ▸ ht.modJunction _ _
  have huj : junction first.toNat u = { r with glare := g } := by rw [hu, junction_modJunction ht]
  have hux : ∀ x, x ≠ first.toNat → junction x u = junction x s.part :=
    fun x hx => by rw [hu, junction_modJunction_of_ne hx]
  have hup : ∀ p, point p u = point p s.part := fun p => by rw [hu, point_modJunction]
  have huf : u = { s.part with net.junctions := u.net.junctions } := by rw [hu]; rfl
  obtain ⟨g1, g2, g3, g4, g5⟩ := writeUse_spec hut first.toNat (min x.toNat 7) d
  rw [huj, hup] at g2
  rw [huj] at g1
  refine ⟨rearm (2336 + first.toNat) (writeUse first.toNat (min x.toNat 7) d u),
    writeTable_one hm rfl hf ?_ (by simp) (writeCode ?_) ?_, fun k => ?_, fun k1 k2 => ⟨fun k => ?_, fun k => ?_⟩,
    fun j hj => ?_, fun p hp => ?_, ?_⟩
  · have h3 : (Admin.ofCode w.toNat).isSome = true := (admin_ofCode_isSome _).mpr hw
    show ((Direction.ofCode (byteAt [x, y, z, w, 0, 0, 0] 1)).isSome &&
      (Glare.ofCode (byteAt [x, y, z, w, 0, 0, 0] 2)).isSome && (Admin.ofCode w.toNat).isSome) = true
    rw [h1, h2, h3]
    rfl
  · show decide (clamp 0 7 x.toNat ≠ x.toNat) = true ↔ _
    rw [decide_eq_true_iff, clamp_ne_iff (by decide)]
    omega
  · show writeJunction first.toNat [x, y, z, w, 0, 0, 0] s.part = _
    simp only [writeJunction, hs, if_true, h1, h2, clamp_zero, ← hu]
    rfl
  · rw [rearm_eq, junction_modPoint]
    exact g1 k
  · rw [rearm_eq, junction_modPoint]
    exact (g2 k1 k2).1 k
  · rw [rearm_eq, junction_modPoint]
    exact (g2 k1 k2).2 k
  · rw [rearm_eq, junction_modPoint, g3 j hj, hux j hj]
  · rw [rearm_eq, point_modPoint_of_ne hp, g4 p hp, hup]
  · generalize writeUse first.toNat (min x.toNat 7) d u = v at g5 ⊢
    rw [huf] at g5
    rw [rearm_eq]
    generalize armed (2336 + first.toNat) v = a
    rw [g5]
    rfl

/-- Settles O25: one theorem per table. -/
theorem writeFrameAndTariff : Obligations.WriteFrameAndTariff := by
  intro s tag x y z first m hm ht
  refine ⟨fun hf c hc => writeTable_frame hm ht hf hc, fun hf hn hl => writeTable_tariff hm ht hf hn hl,
    fun hf hs k hk hy => writeTable_line hm ht hf hs hk hy, fun hf c hc => writeTable_route hm ht hf hc,
    fun hf hs d g w hd hg hw => writeTable_junction hm ht hf hs hd hg hw,
    fun hl hx e table he ho ha => writeTable_elem hm ht hl hx he ho ha,
    fun hf u v p f hp hv => writeTable_calendar hm ht hf hp hv,
    fun hf b0 b1 b2 b3 b4 b5 b6 b7 b8 b9 b10 b11 b12 b13 b14 =>
      writeTable_timers hm hf b0 b1 b2 b3 b4 b5 b6 b7 b8 b9 b10 b11 b12 b13 b14,
    fun hf src hs => ?_⟩
  have hu : usable src { s.part with tb.preferred := src } = usable src s.part := by cases src <;> rfl
  have room : ∀ {t : Part}, MaintRoom s.part → t.m = s.part.m → MaintRoom t := fun g e => by
    obtain ⟨g1, g2⟩ := g
    exact ⟨by rw [show io .maint _ = io .maint s.part from congrArg MaintPort.io e]; exact g1, by rw [e]; exact g2⟩
  refine ⟨fun h1 h2 => ?_, fun h1 h2 h3 => ⟨fun h4 => ?_, fun h4 h5 => ?_⟩, fun h1 => ⟨fun h2 => ?_, fun h2 h3 h4 =>
    ⟨fun h5 => ?_, fun h5 h6 => ?_⟩⟩⟩
  · exact writeTable_preferred hm hf hs
      ((policy_of_usable (s := { s.part with tb.preferred := src }) rfl (hu.trans h1) m).1 h2)
  · refine writeTable_preferred hm hf hs
      (((policy_of_usable (s := { s.part with tb.preferred := src }) rfl (hu.trans h1) m).2 h2 h3).trans ?_)
    rw [if_neg (by simp [h4]), ← h4]
  · refine ⟨_, noticed_raiseMaint (room h5 rfl), writeTable_preferred hm hf hs
      (((policy_of_usable (s := { s.part with tb.preferred := src }) rfl (hu.trans h1) m).2 h2 h3).trans ?_)⟩
    rw [if_pos h4]
  · exact writeTable_preferred hm hf hs
      ((policy_of_unusable (s := { s.part with tb.preferred := src }) rfl (hu.trans h1) m).1 h2)
  · refine writeTable_preferred hm hf hs
      (((policy_of_unusable (s := { s.part with tb.preferred := src }) rfl (hu.trans h1) m).2 h2 h3 h4).trans ?_)
    rw [if_neg (by simp [h5])]
  · refine ⟨_, noticed_raiseMaint (room h6 rfl), writeTable_preferred hm hf hs
      (((policy_of_unusable (s := { s.part with tb.preferred := src }) rfl (hu.trans h1) m).2 h2 h3 h4).trans ?_)⟩
    rw [if_pos h5]

end Sys2Proof.Machine
end

section
/-!
SUPPORT. The search of the Call Table, the changes of one call record put together, and the outcome of an order as a
command makes it.
-/

namespace Sys2Proof.Machine

variable {s t : Part}

/-! ## One record changed twice, or not at all -/

theorem Table.put_put_of_wf {α : Type} [DecidableEq α] {d : α} {t : Table α} {k : Nat} {v w : α}
    (h : Table.wf d t = true) : Table.put d (Table.put d t k v) k w = Table.put d t k w := by
  by_cases hv : v = d
  · induction t with
    | nil => simp [Table.put, hv]
    | cons x t ih =>
      obtain ⟨i, y⟩ := x
      obtain ⟨-, hx, ht⟩ := Table.wf_cons.mp h
      by_cases h1 : k < i
      · simp [Table.put, h1, hv]
      · by_cases h2 : i = k
        · subst h2
          cases t with
          | nil => simp [Table.put, hv]
          | cons z t =>
            have hz : i < z.1 := hx z (by simp)
            simp [Table.put, hv, hz]
        · simp [Table.put, h1, h2, ih ht]
  · exact Table.put_put hv

theorem Table.put_get {α : Type} [DecidableEq α] {d : α} {t : Table α} {k : Nat} (h : Table.wf d t = true) :
    Table.put d t k (Table.get d t k) = t := by
  induction t with
  | nil => simp [Table.put, Table.get]
  | cons x t ih =>
    obtain ⟨i, y⟩ := x
    obtain ⟨hy, hx, ht⟩ := Table.wf_cons.mp h
    by_cases h2 : i = k
    · subst h2
      simp [Table.put, Table.get, hy]
    · by_cases h1 : k < i
      · have hg : Table.get d t k = d := Table.get_of_lt (fun z hz => h1.trans (hx z hz))
        simp [Table.put, Table.get, h1, h2, hg]
      · simp [Table.put, Table.get, h1, h2, ih ht]

@[simp] theorem modCall_modCall (id : Nat) (f g : Call → Call) (h : Table.wf {} s.calls = true) :
    modCall id g (modCall id f s) = modCall id (fun c => g (f c)) s := by
  have e : call id (modCall id f s) = f (call id s) := Table.get_put_same h
  unfold modCall at e ⊢
  dsimp only
  rw [e, Table.put_put_of_wf h]

@[simp] theorem modPoint_modPoint (p : Nat) (f g : ScanEntry → ScanEntry)
    (h : Table.wf {} s.scan.points = true) :
    modPoint p g (modPoint p f s) = modPoint p (fun e => g (f e)) s := by
  have e : point p (modPoint p f s) = f (point p s) := Table.get_put_same h
  unfold modPoint at e ⊢
  dsimp only
  rw [e, Table.put_put_of_wf h]

theorem modElem_self (e : ElemId) (f : Element → Element) (h : TablesOk s) (g : f (elem e s) = elem e s) :
    modElem e f s = s := by
  cases e with
  | fl n =>
    simp only [modElem]
    rw [g, elem, Table.put_get h.fls]
  | cord n =>
    simp only [modElem]
    rw [g, elem, Table.put_get h.cords]
  | junction j =>
    have g' : f (junction j s).elem = (junction j s).elem := g
    rw [modElem_junction, modJunction]
    dsimp only
    rw [g']
    show ({ s with net.junctions := Table.put {} s.net.junctions j (junction j s) } : Part) = s
    rw [junction, Table.put_get h.junctions]

/-! ## A change of one record of the Call Table comes before the changes beside it -/

@[simp] theorem modCall_modLine (id : Nat) (f : Call → Call) (x : Nat) (g : Line → Line) :
    modCall id f (modLine x g s) = modLine x g (modCall id f s) := rfl
@[simp] theorem modCall_modFrame (id : Nat) (f : Call → Call) (x : Nat) (g : Frame → Frame) :
    modCall id f (modFrame x g s) = modFrame x g (modCall id f s) := rfl
@[simp] theorem modCall_modJunction (id : Nat) (f : Call → Call) (x : Nat) (g : Junction → Junction) :
    modCall id f (modJunction x g s) = modJunction x g (modCall id f s) := rfl
@[simp] theorem modCall_modElem (id : Nat) (f : Call → Call) (x : ElemId) (g : Element → Element) :
    modCall id f (modElem x g s) = modElem x g (modCall id f s) := by cases x <;> rfl
@[simp] theorem modCall_modPoint (id : Nat) (f : Call → Call) (x : Nat) (g : ScanEntry → ScanEntry) :
    modCall id f (modPoint x g s) = modPoint x g (modCall id f s) := rfl
@[simp] theorem modCall_place (id : Nat) (f : Call → Call) (x : Nat) (a : Action) :
    modCall id f (place x a s) = place x a (modCall id f s) := rfl
@[simp] theorem modCall_enter (id : Nat) (f : Call → Call) (p : Port) (n : Notice) :
    modCall id f (enter p n s) = enter p n (modCall id f s) := by rcases p with (_ | _) | _ <;> rfl

/-! ## A notice entering a queue leaves the records alone -/

@[simp] theorem line_enter (p : Port) (n : Notice) (k : Nat) : line k (enter p n s) = line k s := line_modIo _ _ _
@[simp] theorem frame_enter (p : Port) (n : Notice) (k : Nat) : frame k (enter p n s) = frame k s := frame_modIo _ _ _
@[simp] theorem junction_enter (p : Port) (n : Notice) (k : Nat) : junction k (enter p n s) = junction k s :=
  junction_modIo _ _ _
@[simp] theorem elem_enter (p : Port) (n : Notice) (k : ElemId) : elem k (enter p n s) = elem k s := elem_modIo _ _ _
@[simp] theorem call_enter (p : Port) (n : Notice) (k : Nat) : call k (enter p n s) = call k s := call_modIo _ _ _
@[simp] theorem point_enter (p : Port) (n : Notice) (k : Nat) : point k (enter p n s) = point k s := point_modIo _ _ _
@[simp] theorem meter_enter (p : Port) (n : Notice) (k : Nat) : meter k (enter p n s) = meter k s := meter_modIo _ _ _
@[simp] theorem scan_enter (p : Port) (n : Notice) : (enter p n s).scan = s.scan := by rcases p with (_ | _) | _ <;> rfl
@[simp] theorem net_enter (p : Port) (n : Notice) : (enter p n s).net = s.net := by rcases p with (_ | _) | _ <;> rfl
@[simp] theorem orig_enter (p : Port) (n : Notice) : (enter p n s).orig = s.orig := by rcases p with (_ | _) | _ <;> rfl
@[simp] theorem calls_enter (p : Port) (n : Notice) : (enter p n s).calls = s.calls := by
  rcases p with (_ | _) | _ <;> rfl
@[simp] theorem orders_enter (p : Port) (n : Notice) : (enter p n s).orders = s.orders := by
  rcases p with (_ | _) | _ <;> rfl
@[simp] theorem serial_enter (p : Port) (n : Notice) : (enter p n s).serial = s.serial := by
  rcases p with (_ | _) | _ <;> rfl
@[simp] theorem timers_enter (p : Port) (n : Notice) : (enter p n s).timers = s.timers := by
  rcases p with (_ | _) | _ <;> rfl
@[simp] theorem cal_enter (p : Port) (n : Notice) : (enter p n s).cal = s.cal := by rcases p with (_ | _) | _ <;> rfl
@[simp] theorem meters_enter_eq (p : Port) (n : Notice) : (enter p n s).meters = s.meters := meters_enter p n s

theorem TablesOk.enter (h : TablesOk s) (p : Port) (n : Notice) : TablesOk (enter p n s) := h.modIo p _

/-! ## What a port has still to send depends on its link alone -/

theorem noticesDue_congr {p : Port} (h : io p t = io p s) : noticesDue p t = noticesDue p s := by
  unfold noticesDue
  rw [h]

theorem repliesDue_congr {p : Port} (h : io p t = io p s) : repliesDue p t = repliesDue p s := by
  unfold repliesDue
  rw [h]

/-! ## The search of the Call Table -/

/-- The lowest record that meets a test which no FREE record meets (R87). -/
theorem findCall_eq_some {p : Call → Bool} {id : Nat} (h : Table.wf {} s.calls = true) (hp : p {} = false) :
    findCall p s = some id ↔ p (call id s) = true ∧ ∀ x < id, p (call x s) = false := by
  have listed : ∀ x, p (call x s) = true → (x, call x s) ∈ s.calls := fun x hx =>
    Table.mem_of_get (fun e => by rw [show call x s = {} from e, hp] at hx; exact absurd hx (by decide))
  have sorted : s.calls.Pairwise (fun x y => x.1 < y.1) := by
    simp only [Table.wf, Bool.and_eq_true, decide_eq_true_eq] at h
    exact h.1
  unfold findCall
  constructor
  · intro e
    obtain ⟨⟨i, c⟩, hf, rfl⟩ := Option.map_eq_some_iff.mp e
    have hc : call i s = c := Table.get_of_mem h (List.mem_of_find?_eq_some hf)
    have hpc : p c = true := List.find?_some (p := fun x : Nat × Call => p x.2) hf
    refine ⟨hc ▸ hpc, fun x hx => ?_⟩
    by_contra hn
    have hn : p (call x s) = true := by simpa using hn
    obtain ⟨-, as, bs, hl, hno⟩ := List.find?_eq_some_iff_append.mp hf
    have hm := listed x hn
    rw [hl] at hm sorted
    rcases List.mem_append.mp hm with ha | hb
    · have := hno _ ha
      simp [hn] at this
    · rcases List.mem_cons.mp hb with he | hb
      · exact absurd (congrArg Prod.fst he) (Nat.ne_of_lt hx)
      · have := (List.pairwise_cons.mp (List.pairwise_append.mp sorted).2.1).1 _ hb
        exact absurd this (Nat.not_lt.mpr (Nat.le_of_lt hx))
  · rintro ⟨h1, h2⟩
    have hm := listed id h1
    cases hf : s.calls.find? (fun x => p x.2) with
    | none => exact absurd h1 (by simpa using List.find?_eq_none.mp hf _ hm)
    | some y =>
      obtain ⟨i, c⟩ := y
      have hc : call i s = c := Table.get_of_mem h (List.mem_of_find?_eq_some hf)
      have hpc : p c = true := List.find?_some (p := fun x : Nat × Call => p x.2) hf
      have hle : ¬ i < id := fun g => by
        have := h2 i g
        rw [hc, hpc] at this
        exact absurd this (by decide)
      have hge : ¬ id < i := fun g => by
        obtain ⟨-, as, bs, hl, hno⟩ := List.find?_eq_some_iff_append.mp hf
        rw [hl] at hm sorted
        rcases List.mem_append.mp hm with ha | hb
        · have := hno _ ha
          simp [h1] at this
        · rcases List.mem_cons.mp hb with he | hb
          · exact absurd (congrArg Prod.fst he) (Nat.ne_of_lt g)
          · have := (List.pairwise_cons.mp (List.pairwise_append.mp sorted).2.1).1 _ hb
            exact absurd this (Nat.not_lt.mpr (Nat.le_of_lt g))
      have : i = id := by omega
      subst this
      rfl

/-- The search finds the same record where the test gives the same for every record. -/
theorem findCall_congr {p : Call → Bool} (h : Table.wf {} s.calls = true) (g : Table.wf {} t.calls = true)
    (hp : p {} = false) (e : ∀ x, p (call x t) = p (call x s)) : findCall p t = findCall p s :=
  Option.ext fun id => by rw [findCall_eq_some g hp, findCall_eq_some h hp]; simp only [e]

theorem callOfElem_congr {e : ElemId} (h : t.calls = s.calls) : callOfElem e t = callOfElem e s := by
  unfold callOfElem findCall
  rw [h]

@[simp] theorem callOfElem_modLine (e : ElemId) (x : Nat) (g : Line → Line) :
    callOfElem e (modLine x g s) = callOfElem e s := rfl
@[simp] theorem callOfElem_modFrame (e : ElemId) (x : Nat) (g : Frame → Frame) :
    callOfElem e (modFrame x g s) = callOfElem e s := rfl
@[simp] theorem callOfElem_modJunction (e : ElemId) (x : Nat) (g : Junction → Junction) :
    callOfElem e (modJunction x g s) = callOfElem e s := rfl
@[simp] theorem callOfElem_modElem (e x : ElemId) (g : Element → Element) :
    callOfElem e (modElem x g s) = callOfElem e s := by cases x <;> rfl
@[simp] theorem callOfElem_modPoint (e : ElemId) (x : Nat) (g : ScanEntry → ScanEntry) :
    callOfElem e (modPoint x g s) = callOfElem e s := rfl
@[simp] theorem callOfElem_place (e : ElemId) (x : Nat) (a : Action) :
    callOfElem e (place x a s) = callOfElem e s := rfl
@[simp] theorem callOfElem_removeOrder (e : ElemId) (x : Nat) : callOfElem e (removeOrder x s) = callOfElem e s := rfl
@[simp] theorem callOfElem_enter (e : ElemId) (p : Port) (n : Notice) :
    callOfElem e (enter p n s) = callOfElem e s := callOfElem_congr (calls_enter p n)

/-- A change of one record that keeps it active, or not, and naming an element, or not. -/
theorem callOfElem_of_call {id : Nat} (h : Table.wf {} s.calls = true) (g : Table.wf {} t.calls = true) (e : ElemId)
    (hx : ∀ x, x ≠ id → call x t = call x s) (ha : (call id t).active = (call id s).active)
    (he : (call id t).elems.contains e = (call id s).elems.contains e) : callOfElem e t = callOfElem e s := by
  refine findCall_congr h g rfl fun x => ?_
  by_cases hxi : x = id
  · subst hxi
    simp only [ha, he]
  · rw [hx x hxi]

/-- The call that names an element is an active one. -/
theorem active_of_callOfElem {e : ElemId} {id : Nat} (h : Table.wf {} s.calls = true)
    (g : callOfElem e s = some id) : (call id s).active = true ∧ e ∈ (call id s).elems := by
  have := ((findCall_eq_some h rfl).mp g).1
  simpa using this

/-! ## The outcome of an order, as a command makes it (R78) -/

theorem unitOutcome_dispatched {o : Order} (r : DriveOutcome) (h : dispatched o.act.unit s = some o) :
    unitOutcome o.act.unit o.id r s = orderOutcome o r s := by
  simp [unitOutcome, h]

/-- DRIVE_CONFIRMATION of the order that a unit has DISPATCHED. -/
theorem exec_done {s : State} {o : Order} (h : dispatched o.act.unit s.part = some o) :
    exec (.driveConfirmation o.act.unit o.id true) s =
      .next { s with part := orderOutcome o .done s.part } :=
  congrArg (fun p : Part => (Host.Outcome.next { s with part := p } : Host.Outcome State Fault Refusal))
    (unitOutcome_dispatched .done h)

/-- A refused confirmation, or a timeout, of the order that a unit has DISPATCHED. -/
theorem exec_failed {s : State} {o : Order} {i : Instr} (h : dispatched o.act.unit s.part = some o)
    (hi : i = .driveConfirmation o.act.unit o.id false ∨ i = .driveTimeout o.act.unit o.id) :
    ∃ r, r ≠ .done ∧ exec i s = .next { s with part := orderOutcome o r s.part } := by
  have e : ∀ r, (Host.Outcome.next { s with part := unitOutcome o.act.unit o.id r s.part } :
      Host.Outcome State Fault Refusal) = .next { s with part := orderOutcome o r s.part } := fun r => by
    rw [unitOutcome_dispatched r h]
  rcases hi with rfl | rfl
  · exact ⟨.refused, by decide, e .refused⟩
  · exact ⟨.timeout, by decide, e .timeout⟩

/-! ## The orders of a call -/

theorem ordersOf_congr {id : Nat} (h : t.orders = s.orders) : ordersOf id t = ordersOf id s := by
  unfold ordersOf
  rw [h]

/-- An order that was alone leaves its call without orders. -/
theorem ordersOf_removeOrder {o : Order} (h : ∀ x ∈ s.orders, x.call = o.call → x.id = o.id) :
    ordersOf o.call (removeOrder o.id s) = [] := by
  unfold ordersOf removeOrder
  simp only [List.filter_filter, List.filter_eq_nil_iff]
  intro x hx g
  simp only [Bool.and_eq_true, decide_eq_true_eq] at g
  exact g.2 (h x hx g.1)

/-- An order that was not alone leaves its call with orders. -/
theorem ordersOf_removeOrder_ne {o : Order}
    (h : ∃ x, x ∈ s.orders.filter (fun x => decide (x.id ≠ o.id)) ∧ x.call = o.call) :
    ordersOf o.call (removeOrder o.id s) ≠ [] := by
  obtain ⟨x, hx, hc⟩ := h
  exact List.ne_nil_of_mem (List.mem_filter.mpr ⟨hx, by simpa using hc⟩)

theorem operating_of_alone {id : Nat} (h : ordersOf id s = []) (e : ElemId) : operating id e s = false := by
  simp [operating, h]

theorem releasingElem_of_alone {id : Nat} (h : ordersOf id s = []) (e : ElemId) : releasingElem id e s = false := by
  simp [releasingElem, h]

/-- While orders of the call are outstanding, its operation takes no step. -/
theorem operationStep_waits {id : Nat} (h : ordersOf id s ≠ []) : operationStep id s = s := by
  simp [operationStep, h]

end Sys2Proof.Machine
end

section
/-!
SUPPORT. The events armed for the points of a call (R22): when none is armed, and what arming them afresh then comes
to.
-/

namespace Sys2Proof.Machine

variable {s t : Part}

/-! ## What the event armed for a point depends on -/

theorem linePointSpeaks_congr (hl : t.net.lines = s.net.lines) (hc : t.calls = s.calls) (lt : Nat) :
    linePointSpeaks lt t = linePointSpeaks lt s := by
  unfold linePointSpeaks
  simp only [line_congr hl, call_congr hc]

/-- The event armed depends on the Network Map, the Call Table, and the point's accepted state and pulse count. -/
theorem armed_congr {p : Nat} (hn : t.net = s.net) (hc : t.calls = s.calls)
    (ha : (point p t).accepted = (point p s).accepted) (hp : (point p t).pulses = (point p s).pulses) :
    armed p t = armed p s := by
  have hl : t.net.lines = s.net.lines := congrArg _ hn
  have hj : t.net.junctions = s.net.junctions := congrArg _ hn
  unfold armed
  simp only [ha, hp, line_congr hl, junction_congr hj, linePointSpeaks_congr hl hc, call_congr hc,
    callOf_congr hc, callOfElem_congr hc]

/-! ## Points with no event armed -/

/-- The O point of a cord that shows LOOP has no event armed unless its call is dialling with pulses counted. -/
theorem armed_oEnd_of_loop {c : Nat} (hc : c < 96) (ha : (point (2048 + c) s).accepted = .loop)
    (hp : (point (2048 + c) s).pulses = 0 ∨
      ∀ id, callOfElem (.cord c) s = some id → (call id s).state ≠ .dialling) :
    armed (2048 + c) s = none := by
  simp only [armed, pointKind_oEnd hc, ha, if_true]
  split
  · rfl
  · next id hid =>
    split
    · rfl
    · refine if_neg fun h => ?_
      rcases hp with hp | hp
      · omega
      · exact hp id hid h.1

/-- The T point of a cord has no event armed unless its call is ANSWERED with a called line. -/
theorem armed_tEnd_of_call {c id : Nat} (hc : c < 96) (ho : callOfElem (.cord c) s = some id)
    (ht : (∀ lt, (call id s).term ≠ some (.line lt)) ∨ (call id s).state ≠ .answered) :
    armed (2144 + c) s = none := by
  simp only [armed, pointKind_tEnd hc, ho]
  split
  · next lt hlt =>
    refine if_neg fun h => ?_
    rcases ht with ht | ht
    · exact ht lt hlt
    · exact ht h.2.1
  · rfl

/-- The point of a line in a call whose origin path is not being moved has no event armed. -/
theorem armed_line_inCall {lt id : Nat} (hl : lt < 2048) (hs : (line lt s).sup = .inCall id)
    (hc : (call id s).lineSpeaks = false) : armed lt s = none := by
  have hk : linePointSpeaks lt s = false := by simp [linePointSpeaks, hs, hc]
  simp only [armed, pointKind_line hl, hs, hk]
  split <;> simp

/-- The point of a line that does not show OPEN has no event armed. -/
theorem armed_line_of_ne {lt : Nat} (hl : lt < 2048) (ha : (point lt s).accepted ≠ .open_) : armed lt s = none := by
  simp only [armed, pointKind_line hl]
  exact if_pos ha

/-- The point of a junction that does not show OPEN has no event armed. -/
theorem armed_junction_of_ne {j : Nat} (ha : (point (2336 + j) s).accepted ≠ .open_) : armed (2336 + j) s = none := by
  simp only [armed, pointKind_junction]
  exact if_pos ha

/-! ## Arming the points of a quiet call afresh -/

/-- The pending events of points become none. -/
def disarm (ps : List Nat) (s : Part) : Part :=
  ps.foldl (fun s p => modPoint p (fun e => { e with pending := none }) s) s

theorem disarm_cons (p : Nat) (ps : List Nat) (s : Part) :
    disarm (p :: ps) s = disarm ps (modPoint p (fun e => { e with pending := none }) s) := rfl

theorem disarm_eq (ps : List Nat) (s : Part) : disarm ps s = { s with scan.points := (disarm ps s).scan.points } :=
  (foldl_points (f := fun s p => modPoint p (fun e => { e with pending := none }) s) (fun _ _ => rfl)
    (fun _ _ _ h => point_modPoint_of_ne h _) ps s).1

theorem TablesOk.disarm (h : TablesOk s) (ps : List Nat) : TablesOk (disarm ps s) := by
  induction ps generalizing s with
  | nil => exact h
  | cons p ps ih => exact ih (h.modPoint _ _)

theorem point_disarm (h : Table.wf {} s.scan.points = true) (ps : List Nat) (p : Nat) :
    point p (disarm ps s) = if p ∈ ps then { point p s with pending := none } else point p s := by
  induction ps generalizing s with
  | nil => simp [disarm]
  | cons q ps ih =>
    rw [disarm_cons, ih (wf_modPoint _ _ h), point_modPoint_eq _ _ _ h]
    by_cases h1 : p = q <;> by_cases h2 : p ∈ ps <;> simp [h1, h2]

@[simp] theorem net_disarm (ps : List Nat) : (disarm ps s).net = s.net := by rw [disarm_eq]
@[simp] theorem calls_disarm (ps : List Nat) : (disarm ps s).calls = s.calls := by rw [disarm_eq]
@[simp] theorem orders_disarm (ps : List Nat) : (disarm ps s).orders = s.orders := by rw [disarm_eq]
@[simp] theorem orig_disarm (ps : List Nat) : (disarm ps s).orig = s.orig := by rw [disarm_eq]
@[simp] theorem scan_pos_disarm (ps : List Nat) : (disarm ps s).scan.pos = s.scan.pos := by rw [disarm_eq]
@[simp] theorem call_disarm (ps : List Nat) (k : Nat) : call k (disarm ps s) = call k s := call_congr (by simp) k
@[simp] theorem line_disarm (ps : List Nat) (k : Nat) : line k (disarm ps s) = line k s := line_congr (by simp) k
@[simp] theorem frame_disarm (ps : List Nat) (k : Nat) : frame k (disarm ps s) = frame k s := frame_congr (by simp) k
@[simp] theorem junction_disarm (ps : List Nat) (k : Nat) : junction k (disarm ps s) = junction k s :=
  junction_congr (by simp) k
@[simp] theorem elem_disarm (ps : List Nat) (k : ElemId) : elem k (disarm ps s) = elem k s := elem_congr (by simp) k
@[simp] theorem io_disarm (ps : List Nat) (k : Port) : io k (disarm ps s) = io k s := by
  rw [disarm_eq]
  rcases k with (_ | _) | _ <;> rfl
@[simp] theorem noticesDue_disarm (ps : List Nat) (k : Port) : noticesDue k (disarm ps s) = noticesDue k s :=
  noticesDue_congr (io_disarm ps k)

/-- Points with no event armed lose the event they had pending, when they are armed afresh. -/
theorem foldl_rearm (h : TablesOk s) (ps : List Nat) (hq : ∀ p ∈ ps, armed p s = none) :
    ps.foldl (fun s p => rearm p s) s = disarm ps s := by
  induction ps generalizing s with
  | nil => rfl
  | cons q ps ih =>
    have e : rearm q s = modPoint q (fun e => { e with pending := none }) s := by
      rw [rearm_eq, hq q (by simp)]
    rw [List.foldl_cons, e, disarm_cons]
    refine ih (h.modPoint _ _) fun p hp => Eq.trans ?_ (hq p (List.mem_cons_of_mem _ hp))
    have hp : point p (modPoint q (fun e => { e with pending := none }) s) =
        if p = q then { point p s with pending := none } else point p s := by
      by_cases e : p = q <;> simp [h.points, e]
    refine armed_congr rfl rfl ?_ ?_ <;>
    · rw [hp]
      split <;> rfl

theorem produce_of_none {p : Nat} (h : (point p s).pending = none) : produce p s = s := by
  simp [produce, eventDue, h]

theorem rearmCall_quiet {id : Nat} (h : TablesOk s) (hq : ∀ p ∈ callPoints (call id s), armed p s = none) :
    rearmCall id s = disarm (callPoints (call id s)) s := foldl_rearm h _ hq

/-- A call with no event armed at any of its points: what was pending there goes, and nothing is produced (R22). -/
theorem watchCall_quiet {id : Nat} (h : TablesOk s) (hq : ∀ p ∈ callPoints (call id s), armed p s = none) :
    watchCall id s = disarm (callPoints (call id s)) s := by
  have quiet : ∀ (ps : List Nat) (t : Part), (∀ p ∈ ps, (point p t).pending = none) →
      ps.foldl (fun s p => produce p s) t = t := by
    intro ps
    induction ps with
    | nil => intro t _; rfl
    | cons p ps ih =>
      intro t ht
      rw [List.foldl_cons, produce_of_none (ht p (by simp))]
      exact ih t fun q hq => ht q (List.mem_cons_of_mem _ hq)
  unfold watchCall produceCall
  rw [rearmCall_quiet h hq, call_disarm]
  refine quiet _ _ fun p hp => ?_
  rw [point_disarm h.points, if_pos hp]

/-- A point with no event armed is watched without effect but on what was pending. -/
theorem watch_quiet {p : Nat} (h : TablesOk s) (hq : armed p s = none) :
    watch p s = modPoint p (fun e => { e with pending := none }) s := by
  have e : rearm p s = modPoint p (fun e => { e with pending := none }) s := by rw [rearm_eq, hq]
  unfold watch
  rw [e, produce_of_none (by simp [h.points])]

/-! ## Hand-overs outside a scan (R24) -/

/-- A hand-over outside a scan to a point with no event armed for what it is loaded with. -/
theorem handOver_quiet {src dst : Nat} (h : Table.wf {} s.scan.points = true) (hs : s.scan.pos = none)
    (hq : armed dst (modPoint dst (fun _ => { point src s with pulses := 0, pending := none }) s) = none) :
    handOver src dst s = modPoint dst (fun _ => { point src s with pulses := 0, pending := none }) s := by
  have e : loadPoint (point src s) dst s =
      modPoint dst (fun _ => { point src s with pulses := 0, pending := none }) s := by
    unfold loadPoint
    rw [rearm_eq, hq]
    simp [h]
  unfold handOver
  rw [e]
  simp [hs]

/-- The hand-over of a point that shows LOOP to the O point of a cord. -/
theorem handOver_oEnd {src c : Nat} (hc : c < 96) (h : Table.wf {} s.scan.points = true) (hs : s.scan.pos = none)
    (ha : (point src s).accepted = .loop) :
    handOver src (2048 + c) s =
      modPoint (2048 + c) (fun _ => { point src s with pulses := 0, pending := none }) s := by
  refine handOver_quiet h hs (armed_oEnd_of_loop hc ?_ (.inl ?_))
  · rw [point_modPoint_eq _ _ _ h, if_pos rfl]
    exact ha
  · rw [point_modPoint_eq _ _ _ h, if_pos rfl]

/-! ## A notice to the owner, and the points of its call watched -/

/-- A notice for the owner of a call enters the owner's queue at once (R178). -/
structure OwnerTakes (id : Nat) (c : Ctl) (s : Part) : Prop where
  owner : (call id s).owner = some c
  pend : (call id s).pend = []
  room : (io (.ctl c) s).queue.length < 64

theorem raiseCall_enters {id : Nat} {c : Ctl} {k : CallKind} {d : List Byte} (g : OwnerTakes id c s)
    (hk : k ≠ .cleared) : raiseCall id k d s = enter (.ctl c) (.call k id (noticeData id k d s)) s := by
  have room : room (.ctl c) s = true := decide_eq_true g.room
  rw [raiseCall_of_room s k d g.owner room g.pend]
  simp [enterCall, hk]

/-- With nothing armed at a call's points, watching them after a notice has entered a queue only drops what was
pending. -/
theorem watchCall_enter {id : Nat} {p : Port} {n : Notice} (h : TablesOk s)
    (hq : ∀ p ∈ callPoints (call id s), armed p s = none) :
    watchCall id (enter p n s) = disarm (callPoints (call id s)) (enter p n s) := by
  rw [watchCall_quiet (h.enter _ _), call_enter]
  rw [call_enter]
  exact fun p hp => (armed_congr (net_enter _ _) (calls_enter _ _) (by simp) (by simp)).trans (hq p hp)

theorem watchCall_raiseCall {id : Nat} {c : Ctl} {k : CallKind} {d : List Byte} (h : TablesOk s)
    (g : OwnerTakes id c s) (hk : k ≠ .cleared) (hq : ∀ p ∈ callPoints (call id s), armed p s = none) :
    watchCall id (raiseCall id k d s) =
      disarm (callPoints (call id s)) (enter (.ctl c) (.call k id (noticeData id k d s)) s) := by
  rw [raiseCall_enters g hk, watchCall_enter h hq]

/-- What the owner has still to see when a notice has entered its queue and the points are watched. -/
theorem noticesDue_announced {t : Part} {p : Port} {n : Notice} (ps : List Nat) (h : io p t = io p s) :
    noticesDue p (disarm ps (enter p n t)) = noticesDue p s ++ [n] := by
  rw [noticesDue_disarm, noticesDue_enter, noticesDue_congr h]

/-- A call whose cord's O point shows the loop with no pulse counted that could end a digit, and which is not ANSWERED:
nothing is armed at its cord's points, nor at its origin's. -/
structure CallQuiet (id cord : Nat) (o : Party) (s : Part) : Prop where
  origin : (call id s).origin = some o
  originQuiet : armed (partyPoint o) s = none
  joined : (call id s).set.cord = some cord
  cordRange : cord < 96
  new : (call id s).new = {}
  named : callOfElem (.cord cord) s = some id
  loop : (point (2048 + cord) s).accepted = .loop
  still : (point (2048 + cord) s).pulses = 0 ∨ (call id s).state ≠ .dialling
  state : (call id s).state ≠ .answered

/-- The points of a call with one cord: of the cord, of the origin, and of the terminating side. -/
theorem CallQuiet.callPoints_eq {id cord : Nat} {o : Party} (q : CallQuiet id cord o s) :
    callPoints (call id s) =
      [2048 + cord, 2144 + cord, partyPoint o] ++ ((call id s).term.map partyPoint).toList := by
  simp [callPoints, q.joined, q.new, q.origin, oPoint, tPoint]

theorem CallQuiet.armed_none {id cord : Nat} {o : Party} (q : CallQuiet id cord o s)
    (ht : ∀ x, (call id s).term = some x → armed (partyPoint x) s = none) :
    ∀ p ∈ callPoints (call id s), armed p s = none := by
  intro p hp
  rw [q.callPoints_eq] at hp
  simp only [List.mem_append, List.mem_cons, List.not_mem_nil, or_false, Option.mem_toList, Option.map_eq_some_iff]
    at hp
  rcases hp with (rfl | rfl | rfl) | ⟨x, hx, rfl⟩
  · refine armed_oEnd_of_loop q.cordRange q.loop (q.still.imp_right fun hs i hi => ?_)
    rw [q.named] at hi
    exact Option.some.inj hi ▸ hs
  · exact armed_tEnd_of_call q.cordRange q.named (.inr q.state)
  · exact q.originQuiet
  · exact ht x hx

end Sys2Proof.Machine
end

section
/-!
PROOFS. Orders that are DONE (R62, R78): an OPERATE, and the end of an origin search (R65).
-/

namespace Sys2Proof.Machine

variable {s : Part}

/-! ## An OPERATE is DONE (R4) -/

/-- A RESERVED element becomes HELD unless an OPERATE of the call still names it (R4). -/
theorem holdElem_eq (h : TablesOk s) (id : Nat) (e : ElemId) :
    holdElem id e s =
      modElem e
        (fun r => { r with occ := if r.occ = .reserved ∧ operating id e s = false then .held else r.occ }) s := by
  unfold holdElem
  split
  · next hr =>
    have e1 : ∀ f g : Element → Element, f (elem e s) = g (elem e s) → modElem e f s = modElem e g s := by
      intro f g hfg
      cases e <;> simp_all [modElem, modJunction]
    exact e1 _ _ (by simp [hr])
  · next hr =>
    refine (modElem_self e _ h ?_).symm
    simp only [if_neg hr]

/-- An element that is not RESERVED is left as it is. -/
theorem holdElem_of_ne {id : Nat} {e : ElemId} (h : (elem e s).occ ≠ .reserved) : holdElem id e s = s := by
  simp [holdElem, h]

/-- A RESERVED element that no OPERATE of the call names becomes HELD. -/
theorem holdElem_of_alone {id : Nat} {e : ElemId} (h : (elem e s).occ = .reserved) (g : ordersOf id s = []) :
    holdElem id e s = setOcc e .held s := by
  simp [holdElem, h, operating_of_alone g]

/-- An OPERATE of a frame's crosspoint is DONE. -/
theorem operateDone_line {id lt n : Nat} (hf : (elem (.fl n) s).occ ≠ .faulty) :
    operateDone id (.line lt n) s =
      holdElem id (.fl n) (modCall id (fun c => { c with xps := setXp (.line lt n) .operated c.xps }) s) := by
  simp [operateDone, onlyFaulty, Xp.elems, hf]

/-- An OPERATE of a line's crosspoint is DONE while other orders of its call are outstanding (R4). -/
theorem operate_line_outstanding (h : TablesOk s) {o : Order} {lt n : Nat} (ho : o.act = .operate (.line lt n))
    (hf : (elem (.fl n) s).occ ≠ .faulty)
    (hx : ∃ x, x ∈ s.orders.filter (fun x => decide (x.id ≠ o.id)) ∧ x.call = o.call) :
    orderOutcome o .done s =
      modElem (.fl n)
        (fun r => { r with
          occ := if r.occ = .reserved ∧ operating o.call (.fl n) (removeOrder o.id s) = false then .held else r.occ })
        (modCall o.call (fun c => { c with xps := setXp (.line lt n) .operated c.xps }) (removeOrder o.id s)) := by
  have hu := h.removeOrder o.id
  have e : applyOutcome o .done (removeOrder o.id s) = operateDone o.call (.line lt n) (removeOrder o.id s) := by
    simp [applyOutcome, ho]
  unfold orderOutcome
  rw [e, operateDone_line (by simpa using hf), holdElem_eq (hu.modCall _ _), operationStep_waits]
  · rfl
  · exact ordersOf_removeOrder_ne hx

/-- The first clause of O54. -/
theorem operateIsDone_outstanding (s : State) (o : Order) (lt n : Nat) (h : TablesOk s.part)
    (ho : o.act = .operate (.line lt n)) (hd : dispatched o.act.unit s.part = some o)
    (hf : (elem (.fl n) s.part).occ ≠ .faulty)
    (hx : ∃ x, x ∈ s.part.orders.filter (fun x => decide (x.id ≠ o.id)) ∧ x.call = o.call) :
    let orders := s.part.orders.filter (fun x => decide (x.id ≠ o.id))
    ∃ t, exec (.driveConfirmation o.act.unit o.id true) s = .next t ∧ t.pending = s.pending ∧
      t.part.orders = orders ∧
      call o.call t.part =
        { call o.call s.part with xps := setXp (.line lt n) .operated (call o.call s.part).xps } ∧
      (∀ x, x ≠ o.call → call x t.part = call x s.part) ∧
      elem (.fl n) t.part =
        { elem (.fl n) s.part with
          occ :=
            if (elem (.fl n) s.part).occ = .reserved ∧
                operating o.call (.fl n) { s.part with orders := orders } = false then .held
            else (elem (.fl n) s.part).occ } ∧
      (∀ e, e ≠ .fl n → elem e t.part = elem e s.part) ∧
      t.part = { s.part with
        orders := t.part.orders, calls := t.part.calls, net.fls := t.part.net.fls } := by
  intro orders
  refine ⟨_, exec_done hd, rfl, ?_⟩
  simp only [operate_line_outstanding h ho hf hx]
  refine ⟨rfl, ?_, fun x hx => ?_, ?_, fun e he => ?_, rfl⟩
  · simp [h.calls]
  · simp [h.calls, hx]
  · simp [h.fls]
    rfl
  · simp [h.fls, he]

/-! ## The end of an origin search (R65, R90) -/

/-- The record of a call that enters DIALLING from its origin search. -/
def Call.dialling (limit : Nat) (r : Call) : Call :=
  { r with
    op := .idle, opFailed := false, yielded := false, claim := 0, state := .dialling
    timer := some { kind := .firstDigit, limit := limit } }

theorem enterDialling_line (h : TablesOk s) {id lt cord : Nat} {c : Ctl} (g : OwnerTakes id c s)
    (ho : (call id s).origin = some (.line lt)) (hl : lt < 2048) (hk : (call id s).set.cord = some cord)
    (hc : cord < 96) (hn : (call id s).new = {}) (ht : (call id s).term = none) (hs : (call id s).lineSpeaks = false)
    (hq : s.scan.pos = none) (hx : callOfElem (.cord cord) s = some id) (hz : (point lt s).accepted = .loop) :
    enterDialling id s =
      disarm [2048 + cord, 2144 + cord, lt]
        (enter (.ctl c) (.call .originReady id ([b8 id] ++ b16 lt ++ [b8 (line lt s).cls.code, b8 cord]))
          (modPoint (2048 + cord) (fun _ => { point lt s with pulses := 0, pending := none })
            (modLine lt (fun l => { l with sup := .inCall id })
              (modCall id (Call.dialling (firstDigitLimit s)) s)))) := by
  have ha := (active_of_callOfElem h.calls hx).1
  obtain ⟨w, hv⟩ : ∃ w, w = modPoint (2048 + cord) (fun _ => { point lt s with pulses := 0, pending := none })
      (modLine lt (fun l => { l with sup := .inCall id }) (modCall id (Call.dialling (firstDigitLimit s)) s)) :=
    ⟨_, rfl⟩
  have e : enterDialling id s = watchCall id (raiseCall id .originReady
      ([b8 id] ++ b16 lt ++ [b8 (line lt s).cls.code, b8 cord]) w) := by
    unfold enterDialling
    simp [beginOp, setClaim, startTimer, h.calls, ho, hk, handOver_oEnd, oPoint, hc, hq, hz, h.points, h.lines, hv]
    rfl
  have hcall : call id w = Call.dialling (firstDigitLimit s) (call id s) := by simp [hv, h.calls]
  have hother : ∀ x, x ≠ id → call x w = call x s := fun x hx => by simp [hv, h.calls, hx]
  have hw : TablesOk w := by
    rw [hv]
    exact ((h.modCall _ _).modLine _ _).modPoint _ _
  have q : CallQuiet id cord (.line lt) w := {
    origin := by rw [hcall]; exact ho
    originQuiet := armed_line_inCall (lt := lt) (id := id) hl (by simp [hv, h.lines]) (by rw [hcall]; exact hs)
    joined := by rw [hcall]; exact hk
    cordRange := hc
    new := by rw [hcall]; exact hn
    named := (callOfElem_of_call h.calls hw.calls _ hother (by rw [hcall]; exact ha.symm) (by rw [hcall]; rfl)).trans hx
    loop := by simp [hv, h.points, hz]
    still := .inl (by simp [hv, h.points])
    state := by rw [hcall]; exact CallState.noConfusion }
  have hterm : (call id w).term = none := by rw [hcall]; exact ht
  have gw : OwnerTakes id c w :=
    ⟨by rw [hcall]; exact g.owner, by rw [hcall]; exact g.pend, by simpa [hv] using g.room⟩
  rw [e, watchCall_raiseCall hw gw (by decide)
    (q.armed_none (by simp [hterm])), q.callPoints_eq, hterm, hv]
  rfl

theorem enterDialling_junction (h : TablesOk s) {id j rt cord : Nat} {c : Ctl} (g : OwnerTakes id c s)
    (ho : (call id s).origin = some (.junction j)) (hk : (call id s).set.cord = some cord)
    (hc : cord < 96) (hn : (call id s).new = {}) (ht : (call id s).term = none) (hr : (junction j s).route = some rt)
    (hq : s.scan.pos = none) (hx : callOfElem (.cord cord) s = some id) (hz : (point (2336 + j) s).accepted = .loop) :
    enterDialling id s =
      disarm [2048 + cord, 2144 + cord, 2336 + j]
        (enter (.ctl c) (.call .incomingReady id [b8 id, b8 j, b8 rt, b8 cord])
          (modPoint (2048 + cord) (fun _ => { point (2336 + j) s with pulses := 0, pending := none })
            (modJunction j (fun r => { r with sup := .inCall .incoming id, marked := false })
              (modCall id (Call.dialling (firstDigitLimit s)) s)))) := by
  have ha := (active_of_callOfElem h.calls hx).1
  have hj : 2336 + j ≠ 2048 + cord := by omega
  obtain ⟨w, hv⟩ : ∃ w, w = modPoint (2048 + cord) (fun _ => { point (2336 + j) s with pulses := 0, pending := none })
      (modJunction j (fun r => { r with sup := .inCall .incoming id, marked := false })
        (modCall id (Call.dialling (firstDigitLimit s)) s)) := ⟨_, rfl⟩
  have e : enterDialling id s = watchCall id (raiseCall id .incomingReady [b8 id, b8 j, b8 rt, b8 cord] w) := by
    unfold enterDialling
    simp [beginOp, setClaim, startTimer, h.calls, ho, hk, handOver_oEnd, oPoint, junctionPoint, hc, hq, hz, h.points,
      h.junctions, hv, hr, o8]
    rfl
  have hcall : call id w = Call.dialling (firstDigitLimit s) (call id s) := by simp [hv, h.calls]
  have hother : ∀ x, x ≠ id → call x w = call x s := fun x hx => by simp [hv, h.calls, hx]
  have hw : TablesOk w := by
    rw [hv]
    exact ((h.modCall _ _).modJunction _ _).modPoint _ _
  have q : CallQuiet id cord (.junction j) w := {
    origin := by rw [hcall]; exact ho
    originQuiet := armed_junction_of_ne (by simp [hv, h.points, hj, hz])
    joined := by rw [hcall]; exact hk
    cordRange := hc
    new := by rw [hcall]; exact hn
    named := (callOfElem_of_call h.calls hw.calls _ hother (by rw [hcall]; exact ha.symm) (by rw [hcall]; rfl)).trans hx
    loop := by simp [hv, h.points, hz]
    still := .inl (by simp [hv, h.points])
    state := by rw [hcall]; exact CallState.noConfusion }
  have hterm : (call id w).term = none := by rw [hcall]; exact ht
  have gw : OwnerTakes id c w :=
    ⟨by rw [hcall]; exact g.owner, by rw [hcall]; exact g.pend, by simpa [hv] using g.room⟩
  rw [e, watchCall_raiseCall hw gw (by decide)
    (q.armed_none (by simp [hterm])), q.callPoints_eq, hterm, hv]
  rfl

/-- The last OPERATE of a call's frame link and cord is DONE, its frame link HELD before it: the cord is HELD. -/
theorem operateDone_plane {id n cord : Nat} {z : CordEnd} (h : (elem (.fl n) s).occ = .held)
    (g : (elem (.cord cord) s).occ = .reserved) (ha : ordersOf id s = []) :
    operateDone id (.plane n cord z) s =
      setOcc (.cord cord) .held
        (modCall id (fun c => { c with xps := setXp (.plane n cord z) .operated c.xps }) s) := by
  have e : ∀ f, ordersOf id (modCall id f s) = [] := fun f => ha
  simp [operateDone, onlyFaulty, Xp.elems, h, holdElem_of_ne, holdElem_of_alone, g, e]

/-- An order that a unit has DISPATCHED, the last of its call, with no release waiting for it. -/
structure LastOrder (o : Order) (s : Part) : Prop where
  tables : TablesOk s
  sent : dispatched o.act.unit s = some o
  alone : ∀ x ∈ s.orders, x.call = o.call → x.id = o.id
  kept : (call o.call s).relPending = false

/-- The clause of O54 on a line's origin search. -/
theorem done_lineOrigin {s : State} {o : Order} {c : Ctl} (b : LastOrder o s.part) (g : OwnerTakes o.call c s.part)
    (hpos : s.part.scan.pos = none) {lt n cord : Nat} {again : Bool}
    (hop : (call o.call s.part).op = .origin again) (hfail : (call o.call s.part).opFailed = false)
    (horigin : (call o.call s.part).origin = some (.line lt)) (hlt : lt < 2048)
    (hterm : (call o.call s.part).term = none) (hsilent : (call o.call s.part).lineSpeaks = false) (hcord : cord < 96)
    (hset : (call o.call s.part).set = { fl := some n, cord := some cord }) (hnew : (call o.call s.part).new = {})
    (hact : o.act = .operate (.plane n cord .o))
    (hxps : (call o.call s.part).xps = [(.line lt n, .operated), (.plane n cord .o, .operating)])
    (hfl : (elem (.fl n) s.part).occ = .held) (hres : (elem (.cord cord) s.part).occ = .reserved)
    (hnamed : callOfElem (.cord cord) s.part = some o.call) (hloop : (point lt s.part).accepted = .loop) :
    ∃ t, exec (.driveConfirmation o.act.unit o.id true) s = .next t ∧ t.pending = s.pending ∧
      t.part.orders = s.part.orders.filter (fun x => decide (x.id ≠ o.id)) ∧
      call o.call t.part =
        { call o.call s.part with
          op := .idle, opFailed := false, yielded := false, state := .dialling, claim := 0
          xps := [(.line lt n, .operated), (.plane n cord .o, .operated)]
          timer := some { kind := .firstDigit, limit := firstDigitLimit s.part } } ∧
      (∀ x, x ≠ o.call → call x t.part = call x s.part) ∧
      line lt t.part = { line lt s.part with sup := .inCall o.call } ∧
      (∀ x, x ≠ lt → line x t.part = line x s.part) ∧
      elem (.cord cord) t.part = { elem (.cord cord) s.part with occ := .held } ∧
      (∀ e, e ≠ .cord cord → elem e t.part = elem e s.part) ∧
      point (2048 + cord) t.part = { point lt s.part with pulses := 0, pending := none } ∧
      noticesDue (.ctl c) t.part = noticesDue (.ctl c) s.part ++
        [.call .originReady o.call ([b8 o.call] ++ b16 lt ++ [b8 (line lt s.part).cls.code, b8 cord])] ∧
      t.part = { s.part with
        orders := s.part.orders.filter (fun x => decide (x.id ≠ o.id)), calls := t.part.calls
        net.lines := t.part.net.lines, net.cords := t.part.net.cords, scan.points := t.part.scan.points
        a := t.part.a, b := t.part.b } := by
  have h := b.tables
  obtain ⟨u, hu⟩ : ∃ u, u = setOcc (.cord cord) .held
      (modCall o.call (fun c => { c with xps := setXp (.plane n cord .o) .operated c.xps })
        (removeOrder o.id s.part)) := ⟨_, rfl⟩
  have hut : TablesOk u := hu ▸ ((h.removeOrder _).modCall _ _).modElem _ _
  have hcall : call o.call u =
      { call o.call s.part with xps := [(.line lt n, .operated), (.plane n cord .o, .operated)] } := by
    simp [hu, setOcc, h.calls, hxps, setXp]
  have e : orderOutcome o .done s.part = enterDialling o.call u := by
    have e1 : applyOutcome o .done (removeOrder o.id s.part) = u := by
      simp [applyOutcome, hact, operateDone_plane, hfl, hres, ordersOf_removeOrder b.alone, hu]
    have e2 : ordersOf o.call u = [] := by
      rw [hu]
      exact (ordersOf_congr rfl).trans (ordersOf_removeOrder b.alone)
    unfold orderOutcome
    rw [e1]
    simp [operationStep, e2, hcall, b.kept, hop, originEnd, hfail]
  have hpoint : ∀ p, point p u = point p s.part := fun p => by simp [hu, setOcc]
  have hline : ∀ x, line x u = line x s.part := fun x => by simp [hu, setOcc]
  have hio : io (.ctl c) u = io (.ctl c) s.part := by simp [hu, setOcc]
  have hx : callOfElem (.cord cord) u = some o.call := by
    refine (callOfElem_of_call (id := o.call) h.calls hut.calls _ (fun x hx => ?_) ?_ ?_).trans hnamed
    · simp [hu, setOcc, h.calls, hx]
    · rw [hcall]; rfl
    · rw [hcall]; rfl
  have gu : OwnerTakes o.call c u :=
    ⟨by rw [hcall]; exact g.owner, by rw [hcall]; exact g.pend, by rw [hio]; exact g.room⟩
  have hcord' : (call o.call u).set.cord = some cord := by rw [hcall]; simp [hset]
  have hpos' : u.scan.pos = none := by simp [hu, setOcc, hpos]
  have horigin' : (call o.call u).origin = some (.line lt) := by rw [hcall]; exact horigin
  have hnew' : (call o.call u).new = {} := by rw [hcall]; exact hnew
  have hterm' : (call o.call u).term = none := by rw [hcall]; exact hterm
  have hsil' : (call o.call u).lineSpeaks = false := by rw [hcall]; exact hsilent
  have e3 := enterDialling_line hut gu horigin' hlt hcord' hcord hnew' hterm' hsil' hpos' hx
    ((congrArg _ (hpoint lt)).trans hloop)
  rw [e3, hpoint, hline] at e
  refine ⟨_, exec_done b.sent, rfl, ?_⟩
  simp only [e]
  refine ⟨?_, ?_, fun x hx => ?_, ?_, fun x hx => ?_, ?_, fun e he => ?_, ?_, ?_, ?_⟩
  · simp [hu, setOcc]
  · have ef : firstDigitLimit u = firstDigitLimit s.part := by rw [hu]; rfl
    simp [hut.calls, hcall, Call.dialling, ef]
  · simp [hu, setOcc, h.calls, hx]
  · simp [hu, h.lines, setOcc]
  · simp [hu, h.lines, setOcc, hx]
  · simp [hu, h.cords, setOcc]
  · simp [hu, h.cords, setOcc, he]
  · rw [point_disarm (by simp [hut.points]), if_pos (by simp)]
    simp [hut.points]
  · exact noticesDue_announced _ (by simpa using hio)
  · rw [disarm_eq, hu]
    cases c <;> rfl
/-- The OPERATE of a junction origin's junctor crosspoint is DONE: the junction and the cord are HELD. -/
theorem operateDone_junctor {id j cord : Nat} (hj : (junction j s).elem.occ = .reserved)
    (hc : (elem (.cord cord) s).occ = .reserved) (ha : ordersOf id s = []) :
    operateDone id (.junctor j cord .o) s =
      setOcc (.cord cord) .held (setOcc (.junction j) .held
        (modCall id (fun c => { c with xps := setXp (.junctor j cord .o) .operated c.xps }) s)) := by
  have e : ∀ f g, ordersOf id (modJunction j g (modCall id f s)) = [] := fun f g => ha
  have e0 : ∀ f, ordersOf id (modCall id f s) = [] := fun f => ha
  simp [operateDone, onlyFaulty, Xp.elems, hj, hc, holdElem_of_alone, e, e0, setOcc]

/-- The clause of O54 on a junction's origin search. -/
theorem done_junctionOrigin {s : State} {o : Order} {c : Ctl} (b : LastOrder o s.part)
    (g : OwnerTakes o.call c s.part) (hpos : s.part.scan.pos = none) {j cord rt : Nat} {again : Bool}
    (hop : (call o.call s.part).op = .origin again) (hfail : (call o.call s.part).opFailed = false)
    (horigin : (call o.call s.part).origin = some (.junction j))
    (hterm : (call o.call s.part).term = none) (hcord : cord < 96)
    (hset : (call o.call s.part).set = { junction := some j, cord := some cord })
    (hnew : (call o.call s.part).new = {}) (hact : o.act = .operate (.junctor j cord .o))
    (hxps : (call o.call s.part).xps = [(.junctor j cord .o, .operating)])
    (hj : (junction j s.part).elem.occ = .reserved) (hres : (elem (.cord cord) s.part).occ = .reserved)
    (hroute : (junction j s.part).route = some rt)
    (hnamed : callOfElem (.cord cord) s.part = some o.call) (hloop : (point (2336 + j) s.part).accepted = .loop) :
    ∃ t, exec (.driveConfirmation o.act.unit o.id true) s = .next t ∧ t.pending = s.pending ∧
      t.part.orders = s.part.orders.filter (fun x => decide (x.id ≠ o.id)) ∧
      call o.call t.part =
        { call o.call s.part with
          op := .idle, opFailed := false, yielded := false, state := .dialling, claim := 0
          xps := [(.junctor j cord .o, .operated)]
          timer := some { kind := .firstDigit, limit := firstDigitLimit s.part } } ∧
      (∀ x, x ≠ o.call → call x t.part = call x s.part) ∧
      junction j t.part =
        { junction j s.part with
          sup := .inCall .incoming o.call, marked := false
          elem := { (junction j s.part).elem with occ := .held } } ∧
      (∀ x, x ≠ j → junction x t.part = junction x s.part) ∧
      elem (.cord cord) t.part = { elem (.cord cord) s.part with occ := .held } ∧
      (∀ x, x ≠ cord → elem (.cord x) t.part = elem (.cord x) s.part) ∧
      point (2048 + cord) t.part = { point (2336 + j) s.part with pulses := 0, pending := none } ∧
      noticesDue (.ctl c) t.part = noticesDue (.ctl c) s.part ++
        [.call .incomingReady o.call [b8 o.call, b8 j, b8 rt, b8 cord]] ∧
      t.part = { s.part with
        orders := s.part.orders.filter (fun x => decide (x.id ≠ o.id)), calls := t.part.calls
        net.junctions := t.part.net.junctions, net.cords := t.part.net.cords
        scan.points := t.part.scan.points, a := t.part.a, b := t.part.b } := by
  have h := b.tables
  obtain ⟨u, hu⟩ : ∃ u, u = setOcc (.cord cord) .held (setOcc (.junction j) .held
      (modCall o.call (fun c => { c with xps := setXp (.junctor j cord .o) .operated c.xps })
        (removeOrder o.id s.part))) := ⟨_, rfl⟩
  have hut : TablesOk u := hu ▸ (((h.removeOrder _).modCall _ _).modElem _ _).modElem _ _
  have hcall : call o.call u = { call o.call s.part with xps := [(.junctor j cord .o, .operated)] } := by
    simp [hu, setOcc, h.calls, hxps, setXp]
  have hother : ∀ x, x ≠ o.call → call x u = call x s.part := fun x hx => by simp [hu, setOcc, h.calls, hx]
  have e : orderOutcome o .done s.part = enterDialling o.call u := by
    have e1 : applyOutcome o .done (removeOrder o.id s.part) = u := by
      simp [applyOutcome, hact, operateDone_junctor, hj, hres, ordersOf_removeOrder b.alone, hu]
    have e2 : ordersOf o.call u = [] := by
      rw [hu]
      exact (ordersOf_congr rfl).trans (ordersOf_removeOrder b.alone)
    unfold orderOutcome
    rw [e1]
    simp [operationStep, e2, hcall, b.kept, hop, originEnd, hfail]
  have hpoint : ∀ p, point p u = point p s.part := fun p => by simp [hu, setOcc]
  have hio : io (.ctl c) u = io (.ctl c) s.part := by simp [hu, setOcc]
  have hx : callOfElem (.cord cord) u = some o.call :=
    (callOfElem_of_call h.calls hut.calls _ hother (by rw [hcall]; rfl) (by rw [hcall]; rfl)).trans hnamed
  have gu : OwnerTakes o.call c u :=
    ⟨by rw [hcall]; exact g.owner, by rw [hcall]; exact g.pend, by rw [hio]; exact g.room⟩
  have e3 := enterDialling_junction (rt := rt) hut gu (by rw [hcall]; exact horigin) (by rw [hcall]; simp [hset]) hcord
    (by rw [hcall]; exact hnew) (by rw [hcall]; exact hterm) (by simp [hu, setOcc, h.junctions, hroute])
    (by simp [hu, setOcc, hpos]) hx ((congrArg _ (hpoint _)).trans hloop)
  rw [e3, hpoint] at e
  refine ⟨_, exec_done b.sent, rfl, ?_⟩
  simp only [e]
  refine ⟨?_, ?_, fun x hx => ?_, ?_, fun x hx => ?_, ?_, fun x hx => ?_, ?_, ?_, ?_⟩
  · simp [hu, setOcc]
  · have ef : firstDigitLimit u = firstDigitLimit s.part := by rw [hu]; rfl
    simp [hut.calls, hcall, Call.dialling, ef]
  · simp [hut.calls, hx, hother]
  · simp [hu, h.junctions, setOcc]
  · simp [hu, h.junctions, setOcc, hx]
  · simp [hu, h.cords, setOcc]
  · simp [hu, h.cords, setOcc, hx]
  · rw [point_disarm (by simp [hut.points]), if_pos (by simp)]
    simp [hut.points]
  · exact noticesDue_announced _ (by simpa using hio)
  · rw [disarm_eq, hu]
    cases c <;> rfl

end Sys2Proof.Machine
end

section
/-!
PROOFS. The end of an extension (R69, R93).
-/

namespace Sys2Proof.Machine

variable {s : Part}

/-- A call from a line with one cord, whose extension ends: the line is IN CALL and holds its loop at the cord. -/
structure Extending (id lo cord : Nat) (s : Part) : Prop where
  origin : (call id s).origin = some (.line lo)
  lineRange : lo < 2048
  joined : (call id s).set.cord = some cord
  cordRange : cord < 96
  new : (call id s).new = {}
  silent : (call id s).lineSpeaks = false
  sup : (line lo s).sup = .inCall id
  named : callOfElem (.cord cord) s = some id
  loop : (point (2048 + cord) s).accepted = .loop

/-- The record of a call that leaves SETTING TERM with its terminating side reached. -/
def Call.extended (st : CallState) (claim limit : Nat) (r : Call) : Call :=
  { r with
    op := .idle, opFailed := false, yielded := false, state := st, claim := claim, dest := none
    timer := some { kind := .noAnswer, limit := limit } }

/-- The notice of an extension's end: with nothing armed at the terminating side's point, nothing is armed at the
call's. -/
theorem watchCall_extended (h : TablesOk s) {id lo cord limit : Nat} {c : Ctl} {x : Party} {st : CallState}
    {k : CallKind} {d : List Byte} (g : OwnerTakes id c s) (b : Extending id lo cord s)
    (hst : st = .ringing ∨ st = .awaitingAnswer) (hk : k ≠ .cleared) (ht : (call id s).term = some x) (n : Nat)
    (hx : armed (partyPoint x) (modCall id (Call.extended st n limit) s) = none) :
    watchCall id (raiseCall id k d (modCall id (Call.extended st n limit) s)) =
      disarm [2048 + cord, 2144 + cord, lo, partyPoint x]
        (enter (.ctl c) (.call k id (noticeData id k d (modCall id (Call.extended st n limit) s)))
          (modCall id (Call.extended st n limit) s)) := by
  have ha := (active_of_callOfElem h.calls b.named).1
  obtain ⟨w, hv⟩ : ∃ w, w = modCall id (Call.extended st n limit) s := ⟨_, rfl⟩
  rw [← hv] at hx ⊢
  have hw : TablesOk w := hv ▸ h.modCall _ _
  have hcall : call id w = Call.extended st n limit (call id s) := by simp [hv, h.calls]
  have hother : ∀ x, x ≠ id → call x w = call x s := fun x hx => by simp [hv, h.calls, hx]
  have hact : (Call.extended st n limit (call id s)).active = true := by rcases hst with rfl | rfl <;> rfl
  have q : CallQuiet id cord (.line lo) w := {
    origin := by rw [hcall]; exact b.origin
    originQuiet :=
      armed_line_inCall (lt := lo) (id := id) b.lineRange (by simp [hv, b.sup]) (by rw [hcall]; exact b.silent)
    joined := by rw [hcall]; exact b.joined
    cordRange := b.cordRange
    new := by rw [hcall]; exact b.new
    named :=
      (callOfElem_of_call h.calls hw.calls _ hother (by rw [hcall, ha]; exact hact) (by rw [hcall]; rfl)).trans b.named
    loop := by simp [hv, b.loop]
    still := .inr (by rw [hcall]; rcases hst with rfl | rfl <;> exact CallState.noConfusion)
    state := by rw [hcall]; rcases hst with rfl | rfl <;> exact CallState.noConfusion }
  have hterm : (call id w).term = some x := by rw [hcall]; exact ht
  have gw : OwnerTakes id c w :=
    ⟨by rw [hcall]; exact g.owner, by rw [hcall]; exact g.pend, by simpa [hv] using g.room⟩
  rw [watchCall_raiseCall hw gw hk (q.armed_none fun y hy => ?_), q.callPoints_eq, hterm]
  · rfl
  · rw [hterm] at hy
    exact Option.some.inj hy ▸ hx

/-- An extension to a line is done (R69): the call is RINGING with NO ANSWER, and RINGING is queued. -/
theorem extensionDone_line (h : TablesOk s) {id lt lo cord : Nat} {c : Ctl} (g : OwnerTakes id c s)
    (b : Extending id lo cord s) (ht : (call id s).term = some (.line lt)) (hlt : lt < 2048)
    (hre : s.orig.rehunts.any (fun x => decide (x.call = id)) = false) (hl : (line lt s).sup = .inCall id)
    (hy : (point (2144 + cord) s).accepted = .open_) :
    extensionDone id s =
      disarm [2048 + cord, 2144 + cord, lo, lt]
        (enter (.ctl c) (.call .ringing id ([b8 id] ++ b16 lt ++ [b8 cord]))
          (modCall id (Call.extended .ringing 1 (10 * s.timers.noAnswer)) s)) := by
  obtain ⟨w, hv⟩ : ∃ w, w = modCall id (Call.extended .ringing 1 (10 * s.timers.noAnswer)) s := ⟨_, rfl⟩
  have hd : dropRehunt id (beginOp id .idle s) = beginOp id .idle s := dropRehunt_of_none hre
  have hq : armed lt w = none :=
    armed_line_inCall (lt := lt) (id := id) hlt (by simp [hv, hl]) (by simp [hv, h.calls, Call.extended, b.silent])
  obtain ⟨v, he⟩ : ∃ v, v = watchCall id (raiseCall id .ringing ([b8 id] ++ b16 lt ++ [b8 cord]) w) := ⟨_, rfl⟩
  have e1 : v = _ := he.trans (hv ▸ watchCall_extended h g b (.inl rfl) (by decide) ht 1 (hv ▸ hq))
  have e2 : (point (tPoint cord) v).accepted ≠ .loop := by
    rw [e1, point_disarm (by simpa [hv] using h.points), tPoint]
    split <;> simp [hv, hy]
  have e : extensionDone id s = if (point (tPoint cord) v).accepted = .loop then answer id v else v := by
    unfold extensionDone
    rw [hd]
    simp [beginOp, startTimer, h.calls, ht, b.joined, Call.answerPlaces, b.origin, he, hv]
    rfl
  rw [e, if_neg e2, e1, hv]
  rfl

/-- An extension to a junction is done (R69, R93): the call is AWAITING ANSWER with NO ANSWER, and AWAITING ANSWER is
queued. -/
theorem extensionDone_junction (h : TablesOk s) {id j lo cord : Nat} {c : Ctl} (g : OwnerTakes id c s)
    (b : Extending id lo cord s) (ht : (call id s).term = some (.junction j))
    (hre : s.orig.rehunts.any (fun x => decide (x.call = id)) = false)
    (hy : (point (2336 + j) s).accepted = .normal) :
    extensionDone id s =
      disarm [2048 + cord, 2144 + cord, lo, 2336 + j]
        (enter (.ctl c) (.call .awaitingAnswer id [b8 id, b8 j, b8 cord])
          (modCall id (Call.extended .awaitingAnswer 0 (10 * s.timers.noAnswer)) s)) := by
  obtain ⟨w, hv⟩ : ∃ w, w = modCall id (Call.extended .awaitingAnswer 0 (10 * s.timers.noAnswer)) s := ⟨_, rfl⟩
  have hd : dropRehunt id (beginOp id .idle s) = beginOp id .idle s := dropRehunt_of_none hre
  have hq : armed (2336 + j) w = none := armed_junction_of_ne (by simp [hv, hy])
  obtain ⟨v, he⟩ : ∃ v, v = watchCall id (raiseCall id .awaitingAnswer [b8 id, b8 j, b8 cord] w) := ⟨_, rfl⟩
  have e1 : v = _ := he.trans (hv ▸ watchCall_extended h g b (.inr rfl) (by decide) ht 0 (hv ▸ hq))
  have e2 : (point (junctionPoint j) v).accepted ≠ .reversed := by
    rw [e1, point_disarm (by simpa [hv] using h.points), junctionPoint]
    split <;> simp [hv, hy]
  have e : extensionDone id s = if (point (junctionPoint j) v).accepted = .reversed then answer id v else v := by
    unfold extensionDone
    rw [hd]
    simp [beginOp, startTimer, h.calls, ht, b.joined, Call.answerPlaces, b.origin, he, hv]
    rfl
  rw [e, if_neg e2, e1, hv]
  rfl

/-- The OPERATE of the terminating junctor crosspoint is DONE, its cord HELD before it (R37): the junction is HELD and
in outgoing use. -/
theorem operateDone_outgoing {id j cord : Nat} (h : TablesOk s) (hj : (junction j s).elem.occ = .reserved)
    (hc : (elem (.cord cord) s).occ = .held) (hy : (call id s).yielded = false) (ha : ordersOf id s = []) :
    operateDone id (.junctor j cord .t) s =
      enterOutgoing id j (setOcc (.junction j) .held
        (modCall id (fun c => { c with xps := setXp (.junctor j cord .t) .operated c.xps }) s)) := by
  have e0 : ∀ f, ordersOf id (modCall id f s) = [] := fun f => ha
  simp [operateDone, onlyFaulty, Xp.elems, hj, hc, hy, holdElem_of_alone, holdElem_of_ne, e0, setOcc, h.calls,
    h.junctions]

/-- The clause of O54 on the end of an extension to a junction. -/
theorem done_junctionExtension {s : State} {o : Order} {c : Ctl} (b : LastOrder o s.part)
    (g : OwnerTakes o.call c s.part) {j lo cord : Nat} (q : Extending o.call lo cord s.part)
    (hop : (call o.call s.part).op = .extension) (hfail : (call o.call s.part).opFailed = false)
    (hy : (call o.call s.part).yielded = false) (hterm : (call o.call s.part).term = some (.junction j))
    (hre : s.part.orig.rehunts.any (fun x => decide (x.call = o.call)) = false)
    (hact : o.act = .operate (.junctor j cord .t)) (hj : (junction j s.part).elem.occ = .reserved)
    (hc : (elem (.cord cord) s.part).occ = .held) :
    ∃ t, exec (.driveConfirmation o.act.unit o.id true) s = .next t ∧ t.pending = s.pending ∧
      t.part.orders = s.part.orders.filter (fun x => decide (x.id ≠ o.id)) ∧
      call o.call t.part =
        { call o.call s.part with
          op := .idle, opFailed := false, yielded := false, state := .awaitingAnswer, claim := 0, dest := none
          xps := setXp (.junctor j cord .t) .operated (call o.call s.part).xps
          timer := some { kind := .noAnswer, limit := 10 * s.part.timers.noAnswer } } ∧
      (∀ x, x ≠ o.call → call x t.part = call x s.part) ∧
      junction j t.part =
        { junction j s.part with
          sup := .inCall .outgoing o.call, elem := { (junction j s.part).elem with occ := .held } } ∧
      (∀ x, x ≠ j → junction x t.part = junction x s.part) ∧
      (point (2336 + j) t.part).accepted = .normal ∧ (point (2336 + j) t.part).run = 0 ∧
      (point (2336 + j) t.part).duration = 0 ∧ (point (2336 + j) t.part).pending = none ∧
      noticesDue (.ctl c) t.part = noticesDue (.ctl c) s.part ++
        [.call .awaitingAnswer o.call [b8 o.call, b8 j, b8 cord]] ∧
      t.part = { s.part with
        orders := s.part.orders.filter (fun x => decide (x.id ≠ o.id)), calls := t.part.calls
        net.junctions := t.part.net.junctions, scan.points := t.part.scan.points
        a := t.part.a, b := t.part.b } := by
  have h := b.tables
  obtain ⟨u, hu⟩ : ∃ u, u = enterOutgoing o.call j (setOcc (.junction j) .held
      (modCall o.call (fun c => { c with xps := setXp (.junctor j cord .t) .operated c.xps })
        (removeOrder o.id s.part))) := ⟨_, rfl⟩
  have hut : TablesOk u := by
    rw [hu, enterOutgoing]
    have hb := ((h.removeOrder o.id).modCall o.call
      (fun c => { c with xps := setXp (.junctor j cord .t) .operated c.xps }))
    exact ((hb.modElem _ _).modJunction j _).modPoint _ _
  have hcall : call o.call u =
      { call o.call s.part with xps := setXp (.junctor j cord .t) .operated (call o.call s.part).xps } := by
    simp [hu, enterOutgoing, setOcc, h.calls]
  have hother : ∀ x, x ≠ o.call → call x u = call x s.part := fun x hx => by
    simp [hu, enterOutgoing, setOcc, h.calls, hx]
  have hterm' : (call o.call u).term = some (.junction j) := by rw [hcall]; exact hterm
  have e : orderOutcome o .done s.part = extensionDone o.call u := by
    have e1 : applyOutcome o .done (removeOrder o.id s.part) = u := by
      simp [applyOutcome, hact, operateDone_outgoing, h.removeOrder, hj, hc, hy, ordersOf_removeOrder b.alone, hu]
    have e2 : ordersOf o.call u = [] := by
      rw [hu]
      exact (ordersOf_congr rfl).trans (ordersOf_removeOrder b.alone)
    unfold orderOutcome
    rw [e1]
    simp [operationStep, e2, hcall, b.kept, hop, extensionEnd, hfail, hterm]
  have hpoint : ∀ p, p ≠ 2336 + j → point p u = point p s.part := fun p hp => by
    simp [hu, enterOutgoing, setOcc, h.points, junctionPoint, hp]
  have hpj : point (2336 + j) u = { accepted := .normal, candidate := .reversed } := by
    simp [hu, enterOutgoing, setOcc, h.points, junctionPoint]
  have hio : io (.ctl c) u = io (.ctl c) s.part := by simp [hu, enterOutgoing, setOcc]
  have gu : OwnerTakes o.call c u :=
    ⟨by rw [hcall]; exact g.owner, by rw [hcall]; exact g.pend, by rw [hio]; exact g.room⟩
  have qu : Extending o.call lo cord u := {
    origin := by rw [hcall]; exact q.origin
    lineRange := q.lineRange
    joined := by rw [hcall]; exact q.joined
    cordRange := q.cordRange
    new := by rw [hcall]; exact q.new
    silent := by rw [hcall]; exact q.silent
    sup := by simpa [hu, enterOutgoing, setOcc] using q.sup
    named :=
      (callOfElem_of_call h.calls hut.calls _ hother (by rw [hcall]; rfl) (by rw [hcall]; rfl)).trans q.named
    loop := by
      have := q.cordRange
      rw [hpoint _ (by omega)]
      exact q.loop }
  rw [extensionDone_junction hut gu qu hterm' (by simpa [hu, enterOutgoing, setOcc] using hre) (by rw [hpj])] at e
  refine ⟨_, exec_done b.sent, rfl, ?_⟩
  simp only [e]
  have hpt : ∀ ps n f, 2336 + j ∈ ps → point (2336 + j) (disarm ps (enter (.ctl c) n (modCall o.call f u))) =
      { accepted := .normal, candidate := .reversed } := fun ps n f hm => by
    rw [point_disarm (by simp [hut.points]), if_pos hm]
    simp [hpj]
  refine ⟨?_, ?_, fun x hx => ?_, ?_, fun x hx => ?_, ?_, ?_, ?_, ?_, ?_, ?_⟩
  · simp [hu, enterOutgoing, setOcc]
  · have et : u.timers = s.part.timers := by rw [hu]; rfl
    simp [hut.calls, hcall, Call.extended, et]
  · simp [hut.calls, hx, hother]
  · simp [hu, h.junctions, setOcc, enterOutgoing]
  · simp [hu, h.junctions, setOcc, hx, enterOutgoing]
  · rw [hpt _ _ _ (by simp)]
  · rw [hpt _ _ _ (by simp)]
  · rw [hpt _ _ _ (by simp)]
  · rw [hpt _ _ _ (by simp)]
  · exact noticesDue_announced _ (by simpa using hio)
  · rw [disarm_eq, hu]
    cases c <;> rfl

/-- The clause of O54 on the last order of an extension to a line, here RING ON. -/
theorem done_lineExtension {s : State} {o : Order} {c : Ctl} (b : LastOrder o s.part)
    (g : OwnerTakes o.call c s.part) {lt lo cord : Nat} (q : Extending o.call lo cord s.part)
    (hop : (call o.call s.part).op = .extension) (hfail : (call o.call s.part).opFailed = false)
    (hterm : (call o.call s.part).term = some (.line lt)) (hlt : lt < 2048)
    (hre : s.part.orig.rehunts.any (fun x => decide (x.call = o.call)) = false)
    (hl : (line lt s.part).sup = .inCall o.call) (hy : (point (2144 + cord) s.part).accepted = .open_)
    (hact : o.act = .ringOn cord) :
    ∃ t, exec (.driveConfirmation o.act.unit o.id true) s = .next t ∧ t.pending = s.pending ∧
      t.part.orders = s.part.orders.filter (fun x => decide (x.id ≠ o.id)) ∧
      call o.call t.part =
        { call o.call s.part with
          op := .idle, opFailed := false, yielded := false, state := .ringing, claim := 1, dest := none
          timer := some { kind := .noAnswer, limit := 10 * s.part.timers.noAnswer } } ∧
      (∀ x, x ≠ o.call → call x t.part = call x s.part) ∧
      noticesDue (.ctl c) t.part = noticesDue (.ctl c) s.part ++
        [.call .ringing o.call ([b8 o.call] ++ b16 lt ++ [b8 cord])] ∧
      t.part = { s.part with
        orders := s.part.orders.filter (fun x => decide (x.id ≠ o.id)), calls := t.part.calls
        scan.points := t.part.scan.points, a := t.part.a, b := t.part.b } := by
  have h := b.tables
  have e : orderOutcome o .done s.part = extensionDone o.call (removeOrder o.id s.part) := by
    unfold orderOutcome
    simp [applyOutcome, hact, ringFault, operationStep, ordersOf_removeOrder b.alone, b.kept, hop, extensionEnd, hfail,
      hterm]
  have gu : OwnerTakes o.call c (removeOrder o.id s.part) := ⟨g.owner, g.pend, by simpa using g.room⟩
  rw [extensionDone_line (h.removeOrder _) gu { q with } hterm hlt hre hl hy] at e
  refine ⟨_, exec_done b.sent, rfl, ?_⟩
  simp only [e]
  refine ⟨?_, ?_, fun x hx => ?_, ?_, ?_⟩
  · simp
  · simp [h.calls, Call.extended]
  · simp [h.calls, hx]
  · exact noticesDue_announced _ (by simp)
  · rw [disarm_eq]
    cases c <;> rfl

end Sys2Proof.Machine
end

section
/-!
PROOFS. A called line leaves its call (R25), and a failed extension has been reversed (R70, R92).
-/

namespace Sys2Proof.Machine

variable {s v : Part}

/-! ## A called line leaves its call (R25) -/

theorem modLine_congr {x : Nat} {f g : Line → Line} (h : f (line x s) = g (line x s)) :
    modLine x f s = modLine x g s := by
  unfold modLine
  rw [h]

theorem modPoint_modLine (p : Nat) (f : ScanEntry → ScanEntry) (x : Nat) (g : Line → Line) :
    modPoint p f (modLine x g s) = modLine x g (modPoint p f s) := rfl

/-- The record of a line as it leaves its call, by what the point that spoke for it last shows. -/
def Line.left (e : ScanEntry) (l : Line) : Line :=
  { l with sup := if e.accepted = .loop then .parked else .idle, marked := false }

/-- A line that has left its call has no event armed unless it shows OPEN while PARKED, which cannot be. -/
theorem armed_left {lt : Nat} {e : ScanEntry} (hl : lt < 2048)
    (hs : line lt s = (line lt v).left e) (hp : (point lt s).accepted = e.accepted) : armed lt s = none := by
  by_cases he : e.accepted = .loop
  · exact armed_line_of_ne hl (by rw [hp, he]; decide)
  · exact armed_line_idle hl (by rw [hs]; simp [Line.left, he])

/-- The called line of a call, IN SERVICE and with no class pending, is given the entry of its cord's T point. -/
theorem leaveLine_called (h : TablesOk s) {id lt cord : Nat} (hl : lt < 2048) (hs : (line lt s).sup = .inCall id)
    (hc : (call id s).lineSpeaks = false) (hr : (call id s).reswitch = false)
    (ht : (call id s).term = some (.line lt)) (hk : (call id s).set.cord = some cord)
    (ha : (line lt s).admin = .inService) (hp : (line lt s).pendCls = none) :
    leaveLine id lt s =
      modLine lt (Line.left (point (2144 + cord) s))
        (modPoint lt (fun _ => { point (2144 + cord) s with pulses := 0, pending := none }) s) := by
  have hq : linePointSpeaks lt s = false := by simp [linePointSpeaks, hs, hc]
  have he : lastEntry id lt s = point (2144 + cord) s := by
    simp [lastEntry, hq, ht, hr, hk, tPoint]
  obtain ⟨u, hu⟩ : ∃ u, u = modPoint lt (fun _ => { point (2144 + cord) s with pulses := 0, pending := none }) s :=
    ⟨_, rfl⟩
  have hload : loadPoint (point (2144 + cord) s) lt s = u := by
    unfold loadPoint
    rw [rearm_eq, armed_line_inCall (lt := lt) (id := id) hl (by simpa using hs) (by simpa using hc), hu]
    simp [h.points]
  have hul : line lt u = line lt s := by simp [hu]
  have hut : TablesOk u := hu ▸ h.modPoint _ _
  have hleft : modLine lt (fun l =>
      if l.admin = .busyOutPending then { l with admin := .busyOut, sup := .idle, marked := false }
      else { l with sup := if (point (2144 + cord) s).accepted = .loop then .parked else .idle, marked := false }) u =
      modLine lt (Line.left (point (2144 + cord) s)) u := modLine_congr (by simp [hul, ha, Line.left])
  unfold leaveLine
  simp only [he, hq, Bool.false_eq_true, if_false, hload, hleft]
  have hset : settleClass lt (modLine lt (Line.left (point (2144 + cord) s)) u) =
      modLine lt (Line.left (point (2144 + cord) s)) u := by
    have : (line lt (modLine lt (Line.left (point (2144 + cord) s)) u)).pendCls = none := by
      simp [hut.lines, hul, Line.left, hp]
    simp [settleClass, this]
  rw [hset, rearm_eq, armed_left (v := u) (e := point (2144 + cord) s) hl (by simp [hut.lines])
    (by simp [hu, h.points]), hu, modPoint_modLine, modPoint_modPoint _ _ _ h.points]

/-- The terminating side of a call is its called line: it leaves the call and the record (R25, R22). -/
theorem leaveTerm_called (h : TablesOk s) {id lt cord : Nat} (hl : lt < 2048) (hs : (line lt s).sup = .inCall id)
    (hc : (call id s).lineSpeaks = false) (hr : (call id s).reswitch = false)
    (ht : (call id s).term = some (.line lt)) (hk : (call id s).set.cord = some cord) (hcord : cord < 96)
    (hn : callOfElem (.cord cord) s = some id)
    (ha : (line lt s).admin = .inService) (hp : (line lt s).pendCls = none) :
    leaveTerm id s =
      modPoint (2144 + cord) (fun e => { e with pending := none })
        (modLine lt (Line.left (point (2144 + cord) s))
          (modPoint lt (fun _ => { point (2144 + cord) s with pulses := 0, pending := none })
            (modCall id (fun c => { c with term := none }) s))) := by
  obtain ⟨u, hu⟩ : ∃ u, u = modLine lt (Line.left (point (2144 + cord) s))
      (modPoint lt (fun _ => { point (2144 + cord) s with pulses := 0, pending := none })
        (modCall id (fun c => { c with term := none }) s)) := ⟨_, rfl⟩
  have hcall : call id u = { call id s with term := none } := by simp [hu, h.calls]
  have hut : TablesOk u := by
    rw [hu]
    exact ((h.modCall _ _).modPoint _ _).modLine _ _
  have hnu : callOfElem (.cord cord) u = some id :=
    (callOfElem_of_call (id := id) h.calls hut.calls _ (fun x hx => by simp [hu, h.calls, hx]) (by rw [hcall]; rfl)
      (by rw [hcall]; rfl)).trans hn
  have hk' : (call id u).set.cord = some cord := by rw [hcall]; exact hk
  have e : leaveTerm id s = rearmCalled id u := by
    simp only [leaveTerm, ht, leaveParty]
    rw [leaveLine_called h hl hs hc hr ht hk ha hp, hu]
    rfl
  rw [e]
  simp only [rearmCalled, hk', tPoint]
  rw [rearm_eq, armed_tEnd_of_call hcord hnu (.inl fun x => by rw [hcall]; exact Option.some_ne_none _ |>.symm), ← hu]

/-! ## SET FAILED (R92) -/

/-- The record of a call whose failed extension has been reversed. -/
def Call.failedBack (limit : Nat) (r : Call) : Call :=
  { r with
    state := .dialling, band := none, dest := none, claim := 0
    timer := some { kind := .interdigit, limit := limit } }

/-- A failed extension of a call from a line has been reversed, and `v` is the part once the terminating side has
left. -/
theorem setFailed_quiet {id lo cord : Nat} {c : Ctl} (h : TablesOk v) (hv : leaveTerm id (beginOp id .idle s) = v)
    (hre : v.orig.rehunts.any (fun x => decide (x.call = id)) = false) (g : OwnerTakes id c v)
    (b : Extending id lo cord v) (ht : (call id v).term = none) (hp : (point (2048 + cord) v).pulses = 0) :
    setFailed id s =
      disarm [2048 + cord, 2144 + cord, lo]
        (enter (.ctl c) (.call .setFailed id ([b8 id] ++ destFields (call id v).dest))
          (modCall id (Call.failedBack (interdigitLimit v)) v)) := by
  have ha := (active_of_callOfElem h.calls b.named).1
  obtain ⟨w, hw⟩ : ∃ w, w = modCall id (Call.failedBack (interdigitLimit v)) v := ⟨_, rfl⟩
  have hwt : TablesOk w := hw ▸ h.modCall _ _
  have hcall : call id w = Call.failedBack (interdigitLimit v) (call id v) := by simp [hw, h.calls]
  have hother : ∀ x, x ≠ id → call x w = call x v := fun x hx => by simp [hw, h.calls, hx]
  have q : CallQuiet id cord (.line lo) w := {
    origin := by rw [hcall]; exact b.origin
    originQuiet :=
      armed_line_inCall (lt := lo) (id := id) b.lineRange (by simp [hw, b.sup]) (by rw [hcall]; exact b.silent)
    joined := by rw [hcall]; exact b.joined
    cordRange := b.cordRange
    new := by rw [hcall]; exact b.new
    named := (callOfElem_of_call h.calls hwt.calls _ hother (by rw [hcall, ha]; rfl) (by rw [hcall]; rfl)).trans b.named
    loop := by simp [hw, b.loop]
    still := .inl (by simp [hw, hp])
    state := by rw [hcall]; exact CallState.noConfusion }
  have hterm : (call id w).term = none := by rw [hcall]; exact ht
  have e : setFailed id s = watchCall id
      (enter (.ctl c) (.call .setFailed id ([b8 id] ++ destFields (call id v).dest)) w) := by
    have hd : dropRehunt id (leaveTerm id (beginOp id .idle s)) = v := by rw [hv]; exact dropRehunt_of_none hre
    obtain ⟨x, hx⟩ : ∃ x,
      x = modCall id (fun c => { c with state := .dialling, band := none, dest := none, claim := 0 }) v :=
      ⟨_, rfl⟩
    have hxr : call id x = { call id v with state := .dialling, band := none, dest := none, claim := 0 } := by
      simp [hx, h.calls]
    have gx : OwnerTakes id c x :=
      ⟨by rw [hxr]; exact g.owner, by rw [hxr]; exact g.pend, by simpa [hx] using g.room⟩
    have hraise := raiseCall_enters (k := .setFailed) (d := [b8 id] ++ destFields (call id v).dest) gx (by decide)
    unfold setFailed
    simp only [hd, ← hx]
    rw [hraise, startInterdigit, startTimer, modCall_enter, hx, modCall_modCall _ _ _ h.calls, hw]
    cases c <;> rfl
  rw [e, watchCall_enter hwt (q.armed_none (by simp [hterm])), q.callPoints_eq, hterm, hw]
  rfl

/-- The clause of O54 on the last order of a reversal, here RING OFF. -/
theorem done_reversal {s : State} {o : Order} {c : Ctl} (b : LastOrder o s.part)
    (g : OwnerTakes o.call c s.part) {lt lo cord : Nat} (q : Extending o.call lo cord s.part)
    (hop : (call o.call s.part).op = .reversal) (hr : (call o.call s.part).reswitch = false)
    (hterm : (call o.call s.part).term = some (.line lt)) (hlt : lt < 2048) (hne : lt ≠ lo)
    (hre : s.part.orig.rehunts.any (fun x => decide (x.call = o.call)) = false)
    (hl : (line lt s.part).sup = .inCall o.call) (hp : (point (2048 + cord) s.part).pulses = 0)
    (hy : (point (2144 + cord) s.part).accepted = .open_) (hact : o.act = .ringOff cord)
    (hdest : (call o.call s.part).dest = some (.line lt)) (ha : (line lt s.part).admin = .inService)
    (hk : (line lt s.part).pendCls = none) :
    ∃ t, exec (.driveConfirmation o.act.unit o.id true) s = .next t ∧ t.pending = s.pending ∧
      t.part.orders = s.part.orders.filter (fun x => decide (x.id ≠ o.id)) ∧
      call o.call t.part =
        { call o.call s.part with
          op := .idle, opFailed := false, yielded := false, state := .dialling, claim := 0, dest := none, band := none
          term := none, timer := some { kind := .interdigit, limit := interdigitLimit s.part } } ∧
      (∀ x, x ≠ o.call → call x t.part = call x s.part) ∧
      line lt t.part = { line lt s.part with sup := .idle, marked := false } ∧
      (∀ x, x ≠ lt → line x t.part = line x s.part) ∧
      noticesDue (.ctl c) t.part = noticesDue (.ctl c) s.part ++
        [.call .setFailed o.call ([b8 o.call] ++ [0] ++ b16 lt)] ∧
      t.part = { s.part with
        orders := s.part.orders.filter (fun x => decide (x.id ≠ o.id)), calls := t.part.calls
        scan.points := t.part.scan.points, net.lines := t.part.net.lines
        a := t.part.a, b := t.part.b } := by
  have h := b.tables
  have hc := q.cordRange
  obtain ⟨v, hv⟩ : ∃ v, v = modPoint (2144 + cord) (fun e => { e with pending := none })
      (modLine lt (Line.left (point (2144 + cord) s.part))
        (modPoint lt (fun _ => { point (2144 + cord) s.part with pulses := 0, pending := none })
          (modCall o.call (fun c => { c with op := .idle, opFailed := false, yielded := false, term := none })
            (removeOrder o.id s.part)))) := ⟨_, rfl⟩
  have hvt : TablesOk v := by
    rw [hv]
    exact ((((h.removeOrder _).modCall _ _).modPoint _ _).modLine _ _).modPoint _ _
  have hcall : call o.call v =
      { call o.call s.part with op := .idle, opFailed := false, yielded := false, term := none } := by
    simp [hv, h.calls]
  have hother : ∀ x, x ≠ o.call → call x v = call x s.part := fun x hx => by simp [hv, h.calls, hx]
  have e : orderOutcome o .done s.part = setFailed o.call (removeOrder o.id s.part) := by
    unfold orderOutcome
    simp [applyOutcome, hact, ringFault, operationStep, ordersOf_removeOrder b.alone, b.kept, hop]
  have e1 : leaveTerm o.call (beginOp o.call .idle (removeOrder o.id s.part)) = v := by
    have hb : TablesOk (beginOp o.call .idle (removeOrder o.id s.part)) := (h.removeOrder _).modCall _ _
    have hn : callOfElem (.cord cord) (beginOp o.call .idle (removeOrder o.id s.part)) = some o.call :=
      (callOfElem_of_call (id := o.call) h.calls hb.calls _ (fun x hx => by simp [beginOp, h.calls, hx])
        (by simp [beginOp, h.calls, Call.active]) (by simp [beginOp, h.calls, Call.elems])).trans q.named
    rw [leaveTerm_called (cord := cord) hb hlt (by simpa [beginOp] using hl) (by simp [beginOp, h.calls, q.silent])
      (by simp [beginOp, h.calls, hr]) (by simp [beginOp, h.calls, hterm]) (by simp [beginOp, h.calls, q.joined]) hc hn
      (by simpa [beginOp] using ha) (by simpa [beginOp] using hk), hv]
    simp [beginOp, h.calls]
  have gv : OwnerTakes o.call c v :=
    ⟨by rw [hcall]; exact g.owner, by rw [hcall]; exact g.pend, by simpa [hv] using g.room⟩
  have hpoint : point (2048 + cord) v = point (2048 + cord) s.part := by
    have h1 : 2048 + cord ≠ lt := by omega
    have h2 : 2048 + cord ≠ 2144 + cord := by omega
    simp [hv, h.points, h1]
  have qv : Extending o.call lo cord v := {
    origin := by rw [hcall]; exact q.origin
    lineRange := q.lineRange
    joined := by rw [hcall]; exact q.joined
    cordRange := hc
    new := by rw [hcall]; exact q.new
    silent := by rw [hcall]; exact q.silent
    sup := by simpa [hv, h.lines, hne.symm] using q.sup
    named := (callOfElem_of_call h.calls hvt.calls _ hother (by rw [hcall]; rfl) (by rw [hcall]; rfl)).trans q.named
    loop := by rw [hpoint]; exact q.loop }
  rw [setFailed_quiet hvt e1 (by simpa [hv] using hre) gv qv (by rw [hcall]) (by rw [hpoint]; exact hp)] at e
  refine ⟨_, exec_done b.sent, rfl, ?_⟩
  simp only [e]
  refine ⟨?_, ?_, fun x hx => ?_, ?_, fun x hx => ?_, ?_, ?_⟩
  · simp [hv]
  · have et : interdigitLimit v = interdigitLimit s.part := by rw [hv]; rfl
    simp [hvt.calls, hcall, Call.failedBack, et]
  · simp [hvt.calls, hx, hother]
  · simp [hv, h.lines, Line.left, hy]
  · simp [hv, h.lines, hx]
  · rw [hcall, hdest]
    exact noticesDue_announced _ (by simp [hv])
  · rw [disarm_eq, hv]
    cases c <;> rfl

end Sys2Proof.Machine
end

section
/-!
SUPPORT. How far a release reaches: parties that leave a call change lines, junctions, scan points and the server alone,
and elements that leave it change the Network Map and what its own record says of the network.
-/

namespace Sys2Proof.Machine

variable {r s t : Part} {id : Nat}

/-! ## Parties leave (R25) -/

/-- Only lines, junctions, scan points and the Origination Server differ. -/
def PartiesMoved (s t : Part) : Prop :=
  t = { s with net.lines := t.net.lines, net.junctions := t.net.junctions, scan := t.scan, orig := t.orig }

theorem PartiesMoved.refl (s : Part) : PartiesMoved s s := rfl

theorem PartiesMoved.trans (h : PartiesMoved r s) (g : PartiesMoved s t) : PartiesMoved r t := by
  unfold PartiesMoved at *
  rw [g, h]

theorem PartiesMoved.call_eq (h : PartiesMoved s t) (k : Nat) : call k t = call k s := call_congr (by rw [h]) k

theorem parties_modLine (h : PartiesMoved r s) (lt : Nat) (f : Line → Line) : PartiesMoved r (modLine lt f s) :=
  h.trans rfl
theorem parties_modJunction (h : PartiesMoved r s) (j : Nat) (f : Junction → Junction) :
    PartiesMoved r (modJunction j f s) := h.trans rfl
theorem parties_modPoint (h : PartiesMoved r s) (p : Nat) (f : ScanEntry → ScanEntry) :
    PartiesMoved r (modPoint p f s) := h.trans rfl
theorem parties_rearm (h : PartiesMoved r s) (p : Nat) : PartiesMoved r (rearm p s) := h.trans rfl
theorem parties_loadPoint (h : PartiesMoved r s) (e : ScanEntry) (p : Nat) : PartiesMoved r (loadPoint e p s) :=
  h.trans rfl
theorem parties_retry (h : PartiesMoved r s) : PartiesMoved r (retry s) := h.trans rfl

theorem parties_dequeue (h : PartiesMoved r s) (o : Party) : PartiesMoved r (dequeue o s) := by
  refine h.trans ?_
  unfold dequeue
  split <;> rfl

theorem parties_settleJunction (h : PartiesMoved r s) (j : Nat) : PartiesMoved r (settleJunction j s) := h.trans rfl

theorem parties_leaveJunction (h : PartiesMoved r s) (j : Nat) : PartiesMoved r (leaveJunction j s) := by
  unfold leaveJunction
  refine parties_rearm (parties_settleJunction ?_ _) _
  split
  · exact parties_modPoint (parties_modJunction h _ _) _ _
  · exact h
  · exact parties_modJunction h _ _

theorem parties_takeClass (h : PartiesMoved r s) (lt : Nat) (k : LineClass) : PartiesMoved r (takeClass lt k s) := by
  have h1 := parties_modLine h lt (fun l => { l with cls := k, pendCls := none })
  unfold takeClass
  dsimp only
  split
  · exact parties_rearm (parties_dequeue (parties_modLine h1 _ _) _) _
  · split
    · exact parties_modPoint h1 _ _
    · exact h1

theorem parties_settleClass (h : PartiesMoved r s) (lt : Nat) : PartiesMoved r (settleClass lt s) := by
  unfold settleClass
  split
  · exact h
  · exact parties_takeClass h lt _

theorem parties_leaveLine (h : PartiesMoved r s) (id lt : Nat) : PartiesMoved r (leaveLine id lt s) := by
  unfold leaveLine
  refine parties_rearm (parties_settleClass (parties_modLine ?_ _ _) _) _
  split
  · exact h
  · exact parties_loadPoint h _ _

theorem parties_leaveParty (h : PartiesMoved r s) (id : Nat) (x : Party) : PartiesMoved r (leaveParty id x s) := by
  cases x with
  | line lt => exact parties_leaveLine h id lt
  | junction j => exact parties_leaveJunction h j

theorem parties_rearmCalled (h : PartiesMoved r s) (id : Nat) : PartiesMoved r (rearmCalled id s) := by
  unfold rearmCalled
  split
  · exact h
  · exact parties_rearm h _

theorem parties_leaveOrigin (h : PartiesMoved r s) (id : Nat) : PartiesMoved r (leaveOrigin id s) := by
  unfold leaveOrigin
  split
  · exact h
  · split
    · exact parties_leaveParty h id _
    · exact h

theorem parties_seizeIfLoop (h : PartiesMoved r s) (j : Nat) : PartiesMoved r (seizeIfLoop j s) := by
  unfold seizeIfLoop
  dsimp only
  split
  · exact parties_retry (parties_rearm (parties_modJunction h _ _) _)
  · exact h

/-! ## What a record keeps through its release -/

/-- A record but for what it says of the network. -/
def Call.told (c : Call) : Call :=
  { c with
    term := none, originHeld := false, set := {}, old := {}, new := {}, xps := [], opFailed := false
    lastO := none, lastT := none }

/-- The Network Map, the scan points, the server, and what the record of one call says of the network. -/
structure Inside (id : Nat) (s t : Part) : Prop where
  frame : t = { s with net := t.net, scan := t.scan, orig := t.orig, calls := t.calls }
  told : (call id t).told = (call id s).told
  others : ∀ x, x ≠ id → call x t = call x s
  tables : TablesOk t

theorem Inside.refl (h : TablesOk s) : Inside id s s := ⟨rfl, rfl, fun _ _ => rfl, h⟩

theorem Inside.trans (h : Inside id r s) (g : Inside id s t) : Inside id r t :=
  ⟨by rw [g.frame, h.frame], g.told.trans h.told, fun x hx => (g.others x hx).trans (h.others x hx), g.tables⟩

theorem Inside.of_parties (h : Inside id r s) (g : PartiesMoved s t) (ht : TablesOk t) : Inside id r t :=
  h.trans ⟨by rw [g], by rw [g.call_eq], fun x _ => g.call_eq x, ht⟩

theorem inside_modCall (h : Inside id r s) {f : Call → Call} (hf : ∀ c, (f c).told = c.told) :
    Inside id r (modCall id f s) :=
  h.trans ⟨rfl, by rw [call_modCall h.tables, hf], fun x hx => call_modCall_of_ne hx f, h.tables.modCall _ _⟩

theorem inside_modElem (h : Inside id r s) (e : ElemId) (f : Element → Element) : Inside id r (modElem e f s) :=
  h.trans ⟨by cases e <;> rfl, by simp, fun x _ => by simp, h.tables.modElem _ _⟩

theorem inside_retry (h : Inside id r s) : Inside id r (retry s) :=
  h.of_parties (parties_retry (.refl s)) h.tables.retry

theorem inside_leaveTerm (h : Inside id r s) : Inside id r (leaveTerm id s) := by
  unfold leaveTerm
  split
  · exact h
  · next x _ =>
    have h1 := h.of_parties (parties_leaveParty (.refl s) id x) ((low_leaveParty (Low.refl s)).tablesOk h.tables)
    have h2 := inside_modCall h1 (f := fun c => { c with term := none }) fun _ => rfl
    exact h2.of_parties (parties_rearmCalled (.refl _) id) ((low_rearmCalled (Low.refl _)).tablesOk h2.tables)

theorem inside_becomeFree (h : Inside id r s) (e : ElemId) : Inside id r (becomeFree e s) := by
  unfold becomeFree
  have h1 := inside_modElem h e
    (fun r => { r with occ := .free, admin := if r.admin = .busyOutPending then .busyOut else r.admin })
  generalize modElem e _ s = u at h1
  dsimp only
  split
  · next j =>
    exact h1.of_parties (parties_seizeIfLoop (parties_settleJunction (.refl _) j) j)
      ((low_seizeIfLoop (low_settleJunction (Low.refl _))).tablesOk h1.tables)
  · split
    · exact inside_retry h1
    · exact h1

theorem inside_unnameTerm (h : Inside id r s) (e : ElemId) : Inside id r (unnameTerm id e s) := by
  unfold unnameTerm
  split
  · split
    · exact h
    · exact inside_modCall h fun _ => rfl
  · exact h

theorem inside_keepEntries (h : Inside id r s) (e : ElemId) : Inside id r (keepEntries id e s) := by
  unfold keepEntries
  split
  · split
    · exact inside_modCall h fun _ => rfl
    · exact h
  · exact h

theorem inside_freeElem (h : Inside id r s) (e : ElemId) : Inside id r (freeElem id e s) :=
  inside_becomeFree (inside_unnameTerm (inside_modCall (f := Call.without e) (inside_keepEntries h e) fun _ => rfl) e) e

theorem inside_freeReleased (h : Inside id r s) (e : ElemId) : Inside id r (freeReleased id e s) := by
  unfold freeReleased
  split
  · exact inside_freeElem h e
  · exact h

theorem inside_foldl {f : Part → ElemId → Part} (hf : ∀ s e, Inside id r s → Inside id r (f s e)) (l : List ElemId)
    (h : Inside id r s) : Inside id r (l.foldl f s) := by
  induction l generalizing s with
  | nil => exact h
  | cons e l ih => exact ih (hf s e h)

theorem inside_dropXp (h : Inside id r s) (x : Xp) : Inside id r (dropXp id x s) := inside_modCall h fun _ => rfl

theorem inside_dropFaulty (h : Inside id r s) : Inside id r (dropFaulty id s) := inside_modCall h fun _ => rfl

theorem inside_leaveFaulty (h : Inside id r s) (n : Nat) : Inside id r (leaveFaulty id (.fl n) s) := by
  unfold leaveFaulty
  dsimp only
  split
  · exact inside_leaveTerm h
  · exact h

theorem inside_leaveOrigin (h : Inside id r s) : Inside id r (leaveOrigin id s) :=
  h.of_parties (parties_leaveOrigin (.refl s) id) ((low_leaveOrigin (Low.refl s)).tablesOk h.tables)

end Sys2Proof.Machine
end

section
/-!
PROOFS. The two steps of a reswitch (R74).
-/

namespace Sys2Proof.Machine

variable {s : Part}

/-- An element that a set does not name is not taken from it. -/
theorem without_of_not_mem {e : ElemId} {x : ElemSet} (h : e ∉ x.elems) : x.without e = x := by
  obtain ⟨fl, junction, cord, ring, reversed, tfl, tjunction⟩ := x
  cases e <;> simp [ElemSet.elems] at h <;> simp [ElemSet.without, h]

theorem calls_becomeFree (e : ElemId) (s : Part) : (becomeFree e s).calls = s.calls := by
  unfold becomeFree
  cases e with
  | junction j =>
    dsimp only
    rw [parties_seizeIfLoop (parties_settleJunction (.refl _) j) j]
    rfl
  | fl n => dsimp only; split <;> rfl
  | cord n => dsimp only; split <;> rfl

/-- An element that the new set does not name, given up by a call to a line, leaves the new set and the line alone. -/
theorem freeElem_kept {id lt : Nat} {e : ElemId} (h : TablesOk s) (he : e ∉ (call id s).new.elems)
    (ht : (call id s).term = some (.line lt)) :
    (call id (freeElem id e s)).new = (call id s).new ∧ (call id (freeElem id e s)).term = some (.line lt) := by
  have hk : ∃ a b, call id (keepEntries id e s) = { call id s with lastO := a, lastT := b } := by
    unfold keepEntries
    split
    · split
      · exact ⟨_, _, call_modCall h _ _⟩
      · exact ⟨_, _, rfl⟩
    · exact ⟨_, _, rfl⟩
  obtain ⟨a, b, hk⟩ := hk
  obtain ⟨u, hu⟩ : ∃ u, u = modCall id (Call.without e) (keepEntries id e s) := ⟨_, rfl⟩
  have hkt : TablesOk (keepEntries id e s) := (low_keepEntries (Low.refl s)).tablesOk h
  have hcall : call id u = Call.without e { call id s with lastO := a, lastT := b } := by
    rw [hu, call_modCall hkt, hk]
  have hnew : (call id u).new = (call id s).new := by rw [hcall]; exact without_of_not_mem he
  have hterm : (call id u).term = some (.line lt) := by rw [hcall]; exact ht
  have hut : TablesOk u := hu ▸ hkt.modCall _ _
  have e1 : call id (freeElem id e s) = call id (unnameTerm id e u) := by
    rw [freeElem, call_congr (calls_becomeFree _ _), hu]
  rw [e1]
  unfold unnameTerm
  split
  · split
    · exact ⟨hnew, hterm⟩
    · rw [call_modCall hut]
      exact ⟨hnew, by simp [hterm]⟩
  · exact ⟨hnew, hterm⟩

/-- What is left of a reswitch's new set when a release of its first step is done. -/
def NewKept (id lt : Nat) (x : ElemSet) (s t : Part) : Prop :=
  Inside id s t ∧ (call id t).new = x ∧ (call id t).term = some (.line lt)

theorem newKept_freeReleased {id lt : Nat} {x : ElemSet} {e : ElemId} {t : Part} (he : e ∉ x.elems)
    (h : NewKept id lt x s t) : NewKept id lt x s (freeReleased id e t) := by
  obtain ⟨hi, hn, ht⟩ := h
  refine ⟨inside_freeReleased hi e, ?_⟩
  unfold freeReleased
  split
  · obtain ⟨h1, h2⟩ := freeElem_kept hi.tables (hn ▸ he) ht
    exact ⟨h1.trans hn, h2⟩
  · exact ⟨hn, ht⟩

theorem newKept_releaseOutcome {id lt : Nat} {x : Xp} (h : TablesOk s) (he : ∀ e ∈ x.elems, e ∉ (call id s).new.elems)
    (ht : (call id s).term = some (.line lt)) :
    NewKept id lt (call id s).new s (releaseOutcome id x .done s) := by
  have base : NewKept id lt (call id s).new s (dropXp id x s) :=
    ⟨inside_dropXp (.refl h) x, by simp [dropXp, h.calls], by simp [dropXp, h.calls, ht]⟩
  have each : ∀ (l : List ElemId) (t : Part), (∀ e ∈ l, e ∉ (call id s).new.elems) →
      NewKept id lt (call id s).new s t →
      NewKept id lt (call id s).new s (l.foldl (fun s e => freeReleased id e s) t) := by
    intro l
    induction l with
    | nil => intro t _ h; exact h
    | cons e l ih =>
      intro t hl h
      exact ih _ (fun y hy => hl y (List.mem_cons_of_mem _ hy)) (newKept_freeReleased (hl e (by simp)) h)
  simp only [releaseOutcome, if_true]
  exact each _ _ he base

/-- The clause of O54 on the last release of a reswitch's first step. -/
theorem done_reswitch1 {s : State} {o : Order} (b : LastOrder o s.part) {lo lt n m cord : Nat} {x : Xp}
    (horigin : (call o.call s.part).origin = some (.line lo)) (hterm : (call o.call s.part).term = some (.line lt))
    (hfl : (call o.call s.part).new.fl = some n) (hcord : (call o.call s.part).new.cord = some cord)
    (htfl : (call o.call s.part).new.tfl = some m) (hop : (call o.call s.part).op = .reswitch1)
    (hact : o.act = .release x) (hx : ∀ e ∈ x.elems, e ∉ (call o.call s.part).new.elems) :
    ∃ t, exec (.driveConfirmation o.act.unit o.id true) s = .next t ∧ t.pending = s.pending ∧
      (call o.call t.part).op = .reswitch2 ∧ (call o.call t.part).new.ring = true ∧
      t.part.orders = s.part.orders.filter (fun x => decide (x.id ≠ o.id)) ++
        [{ id := s.part.serial, call := o.call, act := .operate (.line lo n) },
          { id := s.part.serial + 1, call := o.call, act := .operate (.plane n cord .o) },
          { id := s.part.serial + 2, call := o.call, act := .operate (.plane m cord .t) },
          { id := s.part.serial + 3, call := o.call, act := .operate (.line lt m) },
          { id := s.part.serial + 4, call := o.call, act := .ringOn cord }] := by
  have h := b.tables
  obtain ⟨u, hu⟩ : ∃ u, u = releaseOutcome o.call x .done (removeOrder o.id s.part) := ⟨_, rfl⟩
  obtain ⟨hi, hn, ht⟩ : NewKept o.call lt (call o.call s.part).new (removeOrder o.id s.part) u :=
    hu ▸ newKept_releaseOutcome (h.removeOrder _) hx hterm
  have hut := hi.tables
  have htold : (call o.call u).told = (call o.call s.part).told := hi.told
  have hop' : (call o.call u).op = .reswitch1 := (congrArg Call.op htold).trans hop
  have hrel : (call o.call u).relPending = false := (congrArg Call.relPending htold).trans b.kept
  have ho : (call o.call u).origin = some (.line lo) := (congrArg Call.origin htold).trans horigin
  have horders : u.orders = s.part.orders.filter (fun x => decide (x.id ≠ o.id)) := by rw [hi.frame]; rfl
  have hserial : u.serial = s.part.serial := by rw [hi.frame]; rfl
  have e : orderOutcome o .done s.part = reswitchStep2 o.call u := by
    have e1 : applyOutcome o .done (removeOrder o.id s.part) = u := by simp [applyOutcome, hact, hu]
    have e2 : ordersOf o.call u = [] := (ordersOf_congr horders).trans (ordersOf_removeOrder b.alone)
    unfold orderOutcome
    rw [e1]
    simp [operationStep, e2, hrel, hop']
  have e3 : reswitchStep2 o.call u =
      place o.call (.ringOn cord)
        (place o.call (.operate (.line lt m))
          (place o.call (.operate (.plane m cord .t))
            (place o.call (.operate (.plane n cord .o))
              (place o.call (.operate (.line lo n))
                (modCall o.call
                  (fun c => { c with
                    op := .reswitch2, opFailed := false, yielded := false, new.ring := true
                    xps := setXp (.line lt m) .operating (setXp (.plane m cord .t) .operating
                      (setXp (.plane n cord .o) .operating (setXp (.line lo n) .operating c.xps))) }) u))))) := by
    unfold reswitchStep2
    simp [hn, hfl, hcord, htfl, ht, ho, Call.lineOrigin, placeOperate, beginOp, hut.calls]
  refine ⟨_, exec_done b.sent, rfl, ?_⟩
  simp only [e, e3]
  refine ⟨?_, ?_, ?_⟩
  · simp [hut.calls]
  · simp [hut.calls]
  · simp [place, horders, hserial]

/-- The clause of O54 on the last order of a reswitch's second step, here RING ON. -/
theorem done_reswitch2 {s : State} {o : Order} {c : Ctl} (b : LastOrder o s.part) (g : OwnerTakes o.call c s.part)
    (hpos : s.part.scan.pos = none) {lo lt cord : Nat}
    (horigin : (call o.call s.part).origin = some (.line lo)) (hlo : lo < 2048)
    (hterm : (call o.call s.part).term = some (.line lt)) (hlt : lt < 2048) (hc : cord < 96)
    (hcord : (call o.call s.part).new.cord = some cord) (hop : (call o.call s.part).op = .reswitch2)
    (hact : o.act = .ringOn cord)
    (hre : s.part.orig.rehunts.any (fun x => decide (x.call = o.call)) = false)
    (h1 : (line lo s.part).sup = .inCall o.call) (h2 : (line lt s.part).sup = .inCall o.call)
    (hx : callOfElem (.cord cord) s.part = some o.call) (hz : (point lo s.part).accepted = .loop)
    (hy : (point (2144 + cord) s.part).accepted = .open_) :
    ∃ t, exec (.driveConfirmation o.act.unit o.id true) s = .next t ∧ t.pending = s.pending ∧
      t.part.orders = s.part.orders.filter (fun x => decide (x.id ≠ o.id)) ∧
      call o.call t.part =
        { call o.call s.part with
          op := .idle, opFailed := false, yielded := false, state := .ringing, claim := 1, dest := none
          set := (call o.call s.part).new, old := {}, new := {}, reswitch := false, lineSpeaks := false
          timer := some { kind := .noAnswer, limit := 10 * s.part.timers.noAnswer } } ∧
      point (2048 + cord) t.part = { point lo s.part with pulses := 0, pending := none } ∧
      noticesDue (.ctl c) t.part = noticesDue (.ctl c) s.part ++
        [.call .ringing o.call ([b8 o.call] ++ b16 lt ++ [b8 cord])] := by
  have h := b.tables
  obtain ⟨v, hv⟩ : ∃ v, v = modPoint (2048 + cord) (fun _ => { point lo s.part with pulses := 0, pending := none })
      (modCall o.call
        (fun c => { c with set := c.new, old := {}, new := {}, reswitch := false, lineSpeaks := false })
        (removeOrder o.id s.part)) := ⟨_, rfl⟩
  have hvt : TablesOk v := by
    rw [hv]
    exact ((h.removeOrder _).modCall _ _).modPoint _ _
  have hcall : call o.call v =
      { call o.call s.part with
        set := (call o.call s.part).new, old := {}, new := {}, reswitch := false, lineSpeaks := false } := by
    simp [hv, h.calls]
  have hother : ∀ x, x ≠ o.call → call x v = call x s.part := fun x hx => by simp [hv, h.calls, hx]
  obtain ⟨u, hu⟩ : ∃ u, u = modPoint lo (fun e => { e with pending := none }) v := ⟨_, rfl⟩
  have hut : TablesOk u := hu ▸ hvt.modPoint _ _
  have hcu : call o.call u = call o.call v := by simp [hu]
  have e : orderOutcome o .done s.part = extensionDone o.call u := by
    have e1 : rearm lo v = u := by
      rw [rearm_eq, armed_line_inCall (lt := lo) (id := o.call) hlo (by simpa [hv] using h1) (by rw [hcall]), hu]
    unfold orderOutcome
    simp only [applyOutcome, hact, ringFault, if_true, operationStep, ordersOf_removeOrder b.alone]
    simp [b.kept, hop, reswitchEnd, hterm, h.calls, horigin, Call.lineOrigin, hcord, handOver_oEnd, oPoint, hc, hpos,
      h.points, hz, ← e1, hv]
  have hne : 2048 + cord ≠ lo := by omega
  have hne2 : 2144 + cord ≠ lo := by omega
  have hpo : point (2048 + cord) u = { point lo s.part with pulses := 0, pending := none } := by
    simp [hu, hvt.points, hne]
    simp [hv, h.points]
  have gu : OwnerTakes o.call c u :=
    ⟨by rw [hcu, hcall]; exact g.owner, by rw [hcu, hcall]; exact g.pend, by simpa [hu, hv] using g.room⟩
  have qu : Extending o.call lo cord u := {
    origin := by rw [hcu, hcall]; exact horigin
    lineRange := hlo
    joined := by rw [hcu, hcall]; exact hcord
    cordRange := hc
    new := by rw [hcu, hcall]
    silent := by rw [hcu, hcall]
    sup := by simpa [hu, hv] using h1
    named := by
      refine (callOfElem_of_call h.calls hut.calls _ (fun x hx => ?_) (by rw [hcu, hcall]; rfl) ?_).trans hx
      · rw [hu, call_modPoint, hother x hx]
      · have hm := (active_of_callOfElem h.calls hx).2
        rw [hcu, hcall, List.contains_iff_mem.mpr hm]
        simp [Call.elems, ElemSet.elems, hcord]
    loop := by rw [hpo]; exact hz }
  have hterm' : (call o.call u).term = some (.line lt) := by rw [hcu, hcall]; exact hterm
  rw [extensionDone_line hut gu qu hterm' hlt (by simpa [hu, hv] using hre) (by simpa [hu, hv] using h2)
    (by simpa [hu, hvt.points, hv, h.points, hne2] using hy)] at e
  refine ⟨_, exec_done b.sent, rfl, ?_⟩
  simp only [e]
  refine ⟨?_, ?_, ?_, ?_⟩
  · simp [hu, hv]
  · have et : u.timers = s.part.timers := by rw [hu, hv]; rfl
    simp [hut.calls, hcu, hcall, Call.extended, et]
  · rw [point_disarm (by simp [hut.points]), if_pos (by simp)]
    simp [hpo]
  · exact noticesDue_announced _ (by simp [hu, hv])

end Sys2Proof.Machine
end

section
/-!
PROOFS. The end of a release (R83, R102, R192).
-/

namespace Sys2Proof.Machine

variable {s t : Part} {id : Nat}

/-- What a record tells in CLEARED (R102), with whom it is told to. -/
def Call.story (c : Call) : Call :=
  { owner := c.owner, pend := c.pend, origin := c.origin, reason := c.reason, units := c.units, band := c.band
    degraded := c.degraded, coin := c.coin, digits := c.digits }

theorem story_of_told {b c : Call} (h : b.told = c.told) : b.story = c.story :=
  (congrArg Call.story h : b.told.story = c.told.story)

theorem noticeData_cleared (h : (call id t).story = (call id s).story) :
    noticeData id .cleared [] t = noticeData id .cleared [] s := by
  have f : ∀ {α : Type} (p : Call → α), p (call id t).story = p (call id s).story := fun p => congrArg p h
  have h1 : (call id t).origin = (call id s).origin := f Call.origin
  have h2 : (call id t).reason = (call id s).reason := f Call.reason
  have h3 : (call id t).units = (call id s).units := f Call.units
  have h4 : (call id t).band = (call id s).band := f Call.band
  have h5 : (call id t).degraded = (call id s).degraded := f Call.degraded
  have h6 : (call id t).coin = (call id s).coin := f Call.coin
  have h7 : (call id t).digits = (call id s).digits := f Call.digits
  simp only [noticeData, h1, h2, h3, h4, h5, h6, h7]

/-! ## A RESTART in flight (R192) -/

theorem restartClosed_frame (id : Nat) (s : Part) : restartClosed id s = { s with m := (restartClosed id s).m } := by
  unfold restartClosed
  split
  · rfl
  · split
    · dsimp only
      split <;> rfl
    · rfl

theorem noticesDue_reply (p : Port) (tag : Byte) (code : ResultCode) (data : List Byte) (s : Part) :
    noticesDue p (reply p tag code data s) = noticesDue p s := by
  simp only [noticesDue, reply, io_modIo]
  obtain ⟨sending, replies, queue⟩ := io p s
  cases sending with
  | some f => rfl
  | none => cases replies <;> rfl

theorem noticesDue_restartClosed (id : Nat) (s : Part) :
    noticesDue .maint (restartClosed id s) = noticesDue .maint s := by
  unfold restartClosed
  split
  · rfl
  · split
    · dsimp only
      split
      · rw [noticesDue_reply]
        rfl
      · rfl
    · rfl

/-- A RESTART that waited for this call alone is answered. -/
theorem restartClosed_last {w : Byte} (h : s.m.restart = some { tag := w, waiting := [id] }) :
    (restartClosed id s).m.restart = none ∧
      repliesDue .maint (restartClosed id s) = repliesDue .maint s ++ [{ tag := w, code := .done }] := by
  have e : restartClosed id s = reply .maint w .done [] (modMaint (fun m => { m with restart := none }) s) := by
    simp [restartClosed, h]
  rw [e]
  exact ⟨rfl, (answered_reply _ _ _ _ _).1⟩

/-! ## CLEARED enters, and the record is FREE (R83, R102) -/

theorem leaveTerm_fls (id : Nat) (s : Part) : (leaveTerm id s).net.fls = s.net.fls := by
  unfold leaveTerm
  split
  · rfl
  · rw [parties_rearmCalled (.refl _) id]
    show (leaveParty id _ s).net.fls = _
    rw [parties_leaveParty (.refl s) id]

theorem leaveOrigin_fls (id : Nat) (s : Part) : (leaveOrigin id s).net.fls = s.net.fls := by
  rw [parties_leaveOrigin (.refl s) id]

/-- What the last step of a release comes to for a call whose owner's queue has room. -/
structure Closed (id : Nat) (c : Ctl) (s t : Part) : Prop where
  record : call id t = {}
  cleared : noticesDue (.ctl c) t = noticesDue (.ctl c) s ++ [.call .cleared id (noticeData id .cleared [] s)]
  orders : t.orders = s.orders
  fls : t.net.fls = s.net.fls
  maint : noticesDue .maint t = noticesDue .maint s
  restart : ∀ w, s.m.restart = some { tag := w, waiting := [id] } →
    t.m.restart = none ∧ repliesDue .maint t = repliesDue .maint s ++ [{ tag := w, code := .done }]

theorem closed_closeCall {c : Ctl} (h : TablesOk s) (g : OwnerTakes id c s) : Closed id c s (closeCall id s) := by
  obtain ⟨u, hu⟩ : ∃ u, u = leaveTerm id (leaveOrigin id s) := ⟨_, rfl⟩
  have hi : Inside id s u := hu ▸ inside_leaveTerm (inside_leaveOrigin (.refl h))
  have hfls : u.net.fls = s.net.fls := by rw [hu, leaveTerm_fls, leaveOrigin_fls]
  obtain ⟨w, hw⟩ : ∃ w, w = modCall id
      (fun c => { c with
        state := .closed, originHeld := false, claim := 0, xps := [], set := {}, old := {}, new := {}
        reswitch := false, lineSpeaks := false, relPending := false, op := .idle, opFailed := false
        yielded := false, dest := none, lastO := none, lastT := none }) u := ⟨_, rfl⟩
  have hws : (call id w).story = (call id s).story := by
    have hs : (call id u).story = (call id s).story := story_of_told hi.told
    rw [hw, call_modCall hi.tables]
    exact hs
  have hwf : w = { s with net := w.net, scan := w.scan, orig := w.orig, calls := w.calls } := by
    rw [hw, hi.frame]
    rfl
  have hwn : w.net.fls = s.net.fls := by
    rw [hw]
    exact hfls
  have hwt : TablesOk w := hw ▸ hi.tables.modCall _ _
  obtain ⟨v, hv⟩ : ∃ v, v = restartClosed id w := ⟨_, rfl⟩
  have hvf : v = { w with m := v.m } := by rw [hv]; exact restartClosed_frame id w
  have hvc : call id v = call id w := call_congr (by rw [hvf]) id
  have hvo : (call id v).owner = some c := by
    rw [hvc]
    exact (congrArg (fun c : Call => c.owner) hws).trans g.owner
  have hvp : (call id v).pend = [] := by
    rw [hvc]
    exact (congrArg (fun c : Call => c.pend) hws).trans g.pend
  have hio : io (.ctl c) v = io (.ctl c) s := by
    rw [hvf, hwf]
    cases c <;> rfl
  have hdata : noticeData id .cleared [] v = noticeData id .cleared [] s := noticeData_cleared (by rw [hvc, hws])
  have e : closeCall id s = freeRecord id (enter (.ctl c) (.call .cleared id (noticeData id .cleared [] s)) v) := by
    have hroom : room (.ctl c) v = true := decide_eq_true (by rw [hio]; exact g.room)
    have e1 : raiseCleared id v = enterCall (.ctl c) id .cleared [] v := by
      simp only [raiseCleared, hvo]
      exact raiseCall_of_room v .cleared [] hvo hroom hvp
    have e2 : closeCall id s = raiseCleared id v := by rw [hv, hw, hu]; rfl
    rw [e2, e1, enterCall, if_pos rfl, hdata]
  have hvt : Table.wf {} v.calls = true := by rw [hvf]; exact hwt.calls
  have hmaint : io .maint (closeCall id s) = io .maint v := by
    rw [e]
    cases c <;> rfl
  have hm : (closeCall id s).m = v.m := by
    rw [e]
    cases c <;> rfl
  exact {
    record := by
      rw [e]
      simp [freeRecord, hvt]
    cleared := by
      have e1 : io (.ctl c) (closeCall id s) =
          io (.ctl c) (enter (.ctl c) (.call .cleared id (noticeData id .cleared [] s)) v) := by
        rw [e]
        cases c <;> rfl
      rw [noticesDue_congr e1, noticesDue_enter, noticesDue_congr hio]
    orders := by
      have e1 : (closeCall id s).orders = v.orders := by
        rw [e]
        cases c <;> rfl
      rw [e1, hvf, hwf]
    fls := by
      have e1 : (closeCall id s).net.fls = v.net.fls := by
        rw [e]
        cases c <;> rfl
      rw [e1, hvf]
      exact hwn
    maint := by
      rw [noticesDue_congr hmaint, hv, noticesDue_restartClosed]
      exact noticesDue_congr (by rw [hwf]; rfl)
    restart := fun x hx => by
      have hr : w.m.restart = some { tag := x, waiting := [id] } := by rw [hwf]; exact hx
      obtain ⟨h1, h2⟩ := restartClosed_last hr
      rw [hm, repliesDue_congr hmaint, hv]
      refine ⟨h1, h2.trans ?_⟩
      rw [repliesDue_congr (s := s) (by rw [hwf]; rfl)] }

/-- The clause of O54 on the last release of a release. -/
theorem done_release {s : State} {o : Order} {c : Ctl} (b : LastOrder o s.part) (g : OwnerTakes o.call c s.part)
    {x : Xp} (hop : (call o.call s.part).op = .release2) (hact : o.act = .release x) :
    ∃ t, exec (.driveConfirmation o.act.unit o.id true) s = .next t ∧ t.pending = s.pending ∧
      t.part.orders = s.part.orders.filter (fun x => decide (x.id ≠ o.id)) ∧ call o.call t.part = {} ∧
      noticesDue (.ctl c) t.part = noticesDue (.ctl c) s.part ++
        [.call .cleared o.call (noticeData o.call .cleared [] s.part)] ∧
      (∀ w, s.part.m.restart = some { tag := w, waiting := [o.call] } →
        t.part.m.restart = none ∧
          repliesDue .maint t.part = repliesDue .maint s.part ++ [{ tag := w, code := .done }]) := by
  obtain ⟨u, hu⟩ : ∃ u, u = releaseOutcome o.call x .done (removeOrder o.id s.part) := ⟨_, rfl⟩
  have hi : Inside o.call (removeOrder o.id s.part) u := by
    rw [hu]
    simp only [releaseOutcome, if_true]
    exact inside_foldl (fun s e h => inside_freeReleased h e) _ (inside_dropXp (.refl (b.tables.removeOrder _)) x)
  have hf : u = _ := hi.frame
  have htold : (call o.call u).told = (call o.call s.part).told := hi.told
  have horders : u.orders = s.part.orders.filter (fun x => decide (x.id ≠ o.id)) := by rw [hf]; rfl
  have hio : ∀ p, io p u = io p s.part := fun p => by
    rw [hf]
    rcases p with (_ | _) | _ <;> rfl
  have e : orderOutcome o .done s.part = closeCall o.call u := by
    have e1 : applyOutcome o .done (removeOrder o.id s.part) = u := by simp [applyOutcome, hact, hu]
    have e2 : ordersOf o.call u = [] := (ordersOf_congr horders).trans (ordersOf_removeOrder b.alone)
    have e3 : (call o.call u).op = .release2 := (congrArg Call.op htold).trans hop
    have e4 : (call o.call u).relPending = false := (congrArg Call.relPending htold).trans b.kept
    unfold orderOutcome
    rw [e1]
    simp [operationStep, e2, e3, e4]
  have gu : OwnerTakes o.call c u :=
    ⟨(congrArg Call.owner htold).trans g.owner, (congrArg Call.pend htold).trans g.pend, by rw [hio]; exact g.room⟩
  have hc := closed_closeCall hi.tables gu
  refine ⟨_, exec_done b.sent, rfl, ?_⟩
  simp only [e]
  refine ⟨hc.orders.trans horders, hc.record, ?_, fun w hw => ?_⟩
  · rw [hc.cleared, noticesDue_congr (hio _), noticeData_cleared (story_of_told htold)]
  · rw [← repliesDue_congr (hio .maint)]
    exact hc.restart w (by rw [hf]; exact hw)

end Sys2Proof.Machine
end

section
/-!
PROOFS. The outcomes of orders that are DONE, together.
-/

namespace Sys2Proof.Machine

/-- Settles O54: one theorem per operation. -/
theorem operateIsDone : Obligations.OperateIsDone := by
  refine ⟨fun s o lt n h ho hd _ hf hx => operateIsDone_outstanding s o lt n h ho hd hf hx, ?_⟩
  intro s o c h hd halone hkept howner hpend hroom hpos
  have b : LastOrder o s.part := ⟨h, hd, halone, hkept⟩
  have g : OwnerTakes o.call c s.part := ⟨howner, hpend, hroom⟩
  refine ⟨?_, ?_, ?_, ?_, ?_, ?_⟩
  · intro lt n cord again _ hop hfail horigin hlt hterm hs hc hset hnew hact hxps hfl hres hx hz
    exact done_lineOrigin b g hpos hop hfail horigin hlt hterm hs hc hset hnew hact hxps hfl hres hx hz
  · intro j cord rt again _ hop hfail horigin _ hterm _ hc hset hnew hact hxps hj hres hrt hx hz
    exact done_junctionOrigin b g hpos hop hfail horigin hterm hc hset hnew hact hxps hj hres hrt hx hz
  · intro lo j cord _ hop hfail hy horigin hlo hterm _ hc hcord _ hs hnew hre hact hj hres hsup hx hz _
    exact done_junctionExtension b g ⟨horigin, hlo, hcord, hc, hnew, hs, hsup, hx, hz⟩ hop hfail hy hterm hre hact hj
      hres
  · intro lt lo cord _ hfail horigin hterm hne hlo hlt hcord hc hr hs hnew hre hsup hl hx hz hp hy
    have q : Extending o.call lo cord s.part := ⟨horigin, hlo, hcord, hc, hnew, hs, hsup, hx, hz⟩
    refine ⟨fun hop hact => ?_, fun hop hact hdest ha hk => ?_⟩
    · exact done_lineExtension b g q hop hfail hterm hlt hre hl hy hact
    · exact done_reversal b g q hop hr hterm hlt hne hre hl hp hy hact hdest ha hk
  · intro lo lt n m cord x _ _ _ horigin hterm _ hlo hlt hc hfl hcord htfl _
    refine ⟨fun hop hact hx => ?_, fun hop hact _ hre h1 h2 hx hz hy => ?_⟩
    · exact done_reswitch1 b horigin hterm hfl hcord htfl hop hact hx
    · exact done_reswitch2 b g hpos horigin hlo hterm hlt hc hcord hop hact hre h1 h2 hx hz hy
  · intro x hop _ hact
    exact done_release b g hop hact

end Sys2Proof.Machine
end

section
/-!
SUPPORT. What a failed order leaves behind: a FAULTY element and the crosspoints dropped with it (R5, R62), a cord given
up (R4), and what the server's request depends on (R47).
-/

namespace Sys2Proof.Machine

variable {s t : Part} {id : Nat}

/-! ## The server's request (R47, R48) -/

/-- What the server's choice of work reads of the part: all but the fields of call records that no test reads. -/
structure SameWork (s t : Part) : Prop where
  net : t.net = s.net
  rehunts : t.orig.rehunts = s.orig.rehunts
  queue : t.orig.queue = s.orig.queue
  pointer : t.orig.pointer = s.orig.pointer
  timers : t.timers = s.timers
  cal : t.cal = s.cal
  present : ∀ c, (ctl c t).present = (ctl c s).present
  term : ∀ x, (call x t).term = (call x s).term
  tjunction : ∀ x, (call x t).set.tjunction = (call x s).set.tjunction
  origin : ∀ x, (call x t).origin = (call x s).origin
  state : ∀ x, (call x t).state = (call x s).state

theorem avail_congr (h : t.net = s.net) (e : ElemId) : avail e t = avail e s := by
  have hj : t.net.junctions = s.net.junctions := congrArg _ h
  unfold avail
  simp only [elem_congr h, junction_congr hj]

theorem lowestCord_congr (h : t.net = s.net) (k : Nat) : lowestCord k t = lowestCord k s := by
  unfold lowestCord
  simp only [avail_congr h]

theorem findOriginPath_congr (h : t.net = s.net) (f : Nat) : findOriginPath f t = findOriginPath f s := by
  have hf : t.net.frames = s.net.frames := congrArg _ h
  unfold findOriginPath
  simp only [frame_congr hf, avail_congr h, lowestCord_congr h]

theorem SameWork.canServe (g : SameWork s t) (o : Party) : canServe o t = canServe o s := by
  have hf : t.net.frames = s.net.frames := congrArg _ g.net
  have hr : t.net.routes = s.net.routes := congrArg _ g.net
  have hj : t.net.junctions = s.net.junctions := congrArg _ g.net
  have hl : t.net.lines = s.net.lines := congrArg _ g.net
  have h1 : homeOf o t = homeOf o s := by
    unfold homeOf
    simp only [frame_congr hf, route_congr hr, junction_congr hj]
  have h2 : handling o t = handling o s := by
    unfold handling
    simp only [h1, g.present]
  have h3 : admitted o t = admitted o s := by
    unfold admitted reserveInForce cordCount
    simp only [line_congr hl, g.cal, g.timers, avail_congr g.net]
  have h4 : lowestFree t = lowestFree s := by
    unfold lowestFree
    simp only [g.state]
  have h5 : pathExists o t = pathExists o s := by
    unfold pathExists
    simp only [avail_congr g.net, lowestCord_congr g.net]
  unfold Machine.canServe
  rw [h2, h3, h4, h5]

theorem SameWork.chooseWork (g : SameWork s t) : chooseWork t = chooseWork s := by
  have hf : t.net.frames = s.net.frames := congrArg _ g.net
  have hr : t.net.routes = s.net.routes := congrArg _ g.net
  have hj : t.net.junctions = s.net.junctions := congrArg _ g.net
  have h1 : ∀ e, rehuntReady e t = rehuntReady e s := fun e => by
    unfold rehuntReady
    rw [g.term, g.tjunction]
  have h2 : markedOrigins t = markedOrigins s := by
    unfold markedOrigins
    rw [g.net, g.pointer]
  have h3 : ∀ o, markedCandidate o t = markedCandidate o s := fun o => by
    unfold markedCandidate handling homeOf
    simp only [g.canServe, g.queue, g.present, frame_congr hf, route_congr hr, junction_congr hj]
  unfold Machine.chooseWork
  simp only [h1, h2, h3, g.canServe, g.rehunts, g.queue]

/-- The server's request, told from what the choice reads. -/
theorem SameWork.request (g : SameWork s t) :
    (Machine.chooseWork t).map (Work.worst t) = (Machine.chooseWork s).map (Work.worst s) := by
  have h : Work.worst t = Work.worst s := funext fun w => by
    cases w with
    | rehunt e =>
      unfold Work.worst Call.answerPlaces
      dsimp only
      rw [g.origin]
    | serve o => rfl
    | enqueue o => rfl
  rw [g.chooseWork, h]

theorem sameWork_retry (s : Part) : SameWork s (retry s) :=
  ⟨rfl, rfl, rfl, rfl, rfl, rfl, fun c => by cases c <;> rfl, fun _ => rfl, fun _ => rfl, fun _ => rfl, fun _ => rfl⟩

/-- The request that a retry trigger places is the one the part still calls for. -/
theorem retry_request (s : Part) :
    (retry s).orig.request = (chooseWork (retry s)).map (Work.worst (retry s)) := (sameWork_retry s).request.symm

/-! ## A change of one record, by its value -/

theorem modCall_congr {f g : Call → Call} (h : f (call id s) = g (call id s)) : modCall id f s = modCall id g s := by
  unfold modCall
  rw [h]

/-- No call is found where no record meets the test. -/
theorem findCall_eq_none {p : Call → Bool} (h : Table.wf {} s.calls = true) (hp : p {} = false)
    (hx : ∀ x, p (call x s) = false) : findCall p s = none := by
  cases hf : findCall p s with
  | none => rfl
  | some i =>
    have := ((findCall_eq_some h hp).mp hf).1
    rw [hx i] at this
    exact absurd this (by decide)

/-! ## A FAULTY element (R5, R62) -/

/-- An element that a failed order marks. -/
def Element.spoilt (x : Element) : Element :=
  { occ := .faulty, admin := if x.admin = .busyOutPending then .busyOut else x.admin }

theorem onlyFaulty_congr (h : ∀ e, elem e t = elem e s) (x : Xp) : onlyFaulty x t = onlyFaulty x s := by
  unfold onlyFaulty
  simp only [h]

/-- A crosspoint with an element that is not FAULTY can be released. -/
theorem onlyFaulty_of_elem {x : Xp} {e : ElemId} (he : e ∈ x.elems) (h : (elem e s).occ ≠ .faulty) :
    onlyFaulty x s = false := by
  refine Bool.eq_false_iff.mpr fun g => h ?_
  simpa using List.all_eq_true.mp g e he

/-- A crosspoint stays listed: it is not an operated one that joins only FAULTY elements (R62). -/
def listed (s : Part) (y : Xp × XpState) : Bool := !(decide (y.2 = .operated) && onlyFaulty y.1 s)

theorem listed_of_ne {y : Xp × XpState} (h : y.2 ≠ .operated) : listed s y = true := by simp [listed, h]

theorem listed_of_elem {y : Xp × XpState} {e : ElemId} (he : e ∈ y.1.elems) (h : (elem e s).occ ≠ .faulty) :
    listed s y = true := by simp [listed, onlyFaulty_of_elem he h]

theorem dropFaulty_modCall (h : Table.wf {} s.calls = true) (f : Call → Call) :
    dropFaulty id (modCall id f s) = modCall id (fun c => { f c with xps := (f c).xps.filter (listed s) }) s := by
  have e : ∀ x, onlyFaulty x (modCall id f s) = onlyFaulty x s := onlyFaulty_congr fun e => by simp
  unfold dropFaulty listed
  rw [modCall_modCall _ _ _ h]
  simp only [e]

theorem raiseMaint_enters {k : MaintKind} {d : List Byte} (h : MaintRoom s) :
    raiseMaint k d s = enter .maint (.maint k 0 d) s := by
  obtain ⟨h1, h2⟩ := h
  exact raiseMaint_of_room s k d (decide_eq_true h1) h2

theorem maintRoom_congr (h : t.m = s.m) : MaintRoom s → MaintRoom t := by
  unfold MaintRoom io
  rw [h]
  exact fun h => h

/-- A frame link becomes FAULTY, and it is not the terminating one of the call that names it, if one does; the
crosspoints that stay listed are those of `l`. -/
theorem markFaulty_fl {n : Nat} {l : List (Xp × XpState)} (h : TablesOk s) (hm : MaintRoom s)
    (hc : callOfElem (.fl n) s = some id ∨
      callOfElem (.fl n) s = none ∧ Call.without (.fl n) (call id s) = call id s)
    (h1 : (call id s).set.tfl ≠ some n) (h2 : (call id s).new.tfl ≠ some n)
    (hk : (call id s).xps.filter (listed (modElem (.fl n) Element.spoilt s)) = l) :
    markFaulty id (.fl n) s =
      enter .maint (.maint .elementFaulty 0 ([b8 0] ++ b16 n ++ [b8 id]))
        (modCall id (fun c => { c.without (.fl n) with xps := l }) (modElem (.fl n) Element.spoilt s)) := by
  obtain ⟨u, hu⟩ : ∃ u, u = modElem (.fl n) Element.spoilt s := ⟨_, rfl⟩
  have hut : TablesOk u := hu ▸ h.modElem _ _
  have hcall : call id u = call id s := by simp [hu]
  have hcu : callOfElem (.fl n) u = callOfElem (.fl n) s := by simp [hu]
  have hmu : MaintRoom (modCall id (fun c => { c.without (.fl n) with xps := l }) u) :=
    maintRoom_congr (by rw [hu]; rfl) hm
  have e : markFaulty id (.fl n) s = raiseMaint .elementFaulty ([b8 0] ++ b16 n ++ [b8 id])
      (modCall id (fun c => { c.without (.fl n) with xps := l }) u) := by
    have e0 : markFaulty id (.fl n) s = raiseMaint .elementFaulty ([b8 0] ++ b16 n ++ [b8 id])
        (dropFaulty id (match callOfElem (.fl n) u with
          | none => u
          | some holder =>
            dropFaulty holder (modCall holder (Call.without (.fl n)) (leaveFaulty holder (.fl n) u)))) := by
      rw [hu]
      rfl
    rw [e0, hcu]
    congr 1
    rcases hc with hc | ⟨hc, hw⟩
    · have hl : leaveFaulty id (.fl n) u = u := by simp [leaveFaulty, hcall, h1, h2]
      simp only [hc, hl, dropFaulty_modCall hut.calls]
      refine modCall_congr ?_
      rw [hcall, ← hk, ← hu, List.filter_filter]
      simp only [Bool.and_self]
      rfl
    · simp only [hc]
      refine modCall_congr ?_
      rw [hcall, hw, ← hk, ← hu]
      rfl
  rw [e, raiseMaint_enters hmu, hu]

/-- A crosspoint order whose frame link is blamed has failed (R5, R79): what the record is left with. -/
theorem crosspointFailed_fl {n : Nat} {x : Xp} {l : List (Xp × XpState)} (h : TablesOk s) (hm : MaintRoom s)
    (hb : x.blame = .fl n)
    (hc : callOfElem (.fl n) s = some id ∨
      callOfElem (.fl n) s = none ∧ Call.without (.fl n) (call id s) = call id s)
    (h1 : (call id s).set.tfl ≠ some n) (h2 : (call id s).new.tfl ≠ some n)
    (hk : ((call id s).xps.filter (fun y => decide (y.1 ≠ x))).filter (listed (modElem (.fl n) Element.spoilt s)) = l) :
    crosspointFailed id x s =
      enter .maint (.maint .elementFaulty 0 ([b8 0] ++ b16 n ++ [b8 id]))
        (modCall id (fun c => { c.without (.fl n) with xps := l, opFailed := true })
          (modElem (.fl n) Element.spoilt s)) := by
  obtain ⟨u, hu⟩ : ∃ u, u = dropXp id x s := ⟨_, rfl⟩
  have hut : TablesOk u := hu ▸ h.modCall _ _
  have hcall : call id u = { call id s with xps := (call id s).xps.filter (fun y => decide (y.1 ≠ x)) } := by
    simp [hu, dropXp, h.calls]
  have hcu : callOfElem (.fl n) u = callOfElem (.fl n) s :=
    callOfElem_of_call (id := id) h.calls hut.calls _ (fun y hy => by simp [hu, dropXp, h.calls, hy])
      (by rw [hcall]; rfl) (by rw [hcall]; rfl)
  have hl : listed (modElem (.fl n) Element.spoilt u) = listed (modElem (.fl n) Element.spoilt s) := by
    have he : ∀ y, onlyFaulty y (modElem (.fl n) Element.spoilt u) = onlyFaulty y (modElem (.fl n) Element.spoilt s) :=
      onlyFaulty_congr fun e => by simp [hu, dropXp, h.fls]
    funext y
    unfold listed
    rw [he]
  have e := markFaulty_fl (n := n) (l := l) (id := id) hut (maintRoom_congr (by rw [hu]; rfl) hm)
    (by
      rw [hcu, hcall]
      refine hc.imp_right fun ⟨hn, hw⟩ => ⟨hn, ?_⟩
      rw [show Call.without (.fl n) { call id s with xps := (call id s).xps.filter (fun y => decide (y.1 ≠ x)) } =
        { Call.without (.fl n) (call id s) with xps := (call id s).xps.filter (fun y => decide (y.1 ≠ x)) } from rfl,
        hw])
    (by rw [hcall]; exact h1) (by rw [hcall]; exact h2) (by rw [hl, hcall]; exact hk)
  unfold crosspointFailed
  rw [hb, ← hu, e, modCall_enter, hu]
  simp only [dropXp, modCall_modElem, modCall_modCall _ _ _ h.calls]
  rfl

/-! ## A cord given up (R4, R25) -/

/-- An element that has become FREE. -/
def Element.freed (x : Element) : Element :=
  { occ := .free, admin := if x.admin = .busyOutPending then .busyOut else x.admin }

/-- A cord of the call's set leaves the record with the entries of its points, and becomes FREE. -/
theorem freeElem_cord {cord : Nat} (h : TablesOk s) (hk : (call id s).set.cord = some cord) :
    ∃ w, w = modElem (.cord cord) Element.freed (modCall id
        (fun c => { c.without (.cord cord) with
          lastO := some (point (2048 + cord) s), lastT := some (point (2144 + cord) s) }) s) ∧
      freeElem id (.cord cord) s = if avail (.cord cord) w then retry w else w := by
  refine ⟨_, rfl, ?_⟩
  have e : freeElem id (.cord cord) s = becomeFree (.cord cord) (modCall id
      (fun c => { c.without (.cord cord) with
        lastO := some (point (2048 + cord) s), lastT := some (point (2144 + cord) s) }) s) := by
    simp only [freeElem, unnameTerm, keepEntries, hk, if_true, oPoint, tPoint, modCall_modCall _ _ _ h.calls]
    rfl
  rw [e]
  rfl

end Sys2Proof.Machine
end

section
/-!
PROOFS. Orders that fail while others of their call are outstanding (R5, R79).
-/

namespace Sys2Proof.Machine

variable {s : Part}

theorem failReswitch_of_false {id : Nat} (h : (call id s).reswitch = false) : failReswitch id s = s := by
  simp [failReswitch, h]

/-- An OPERATE that fails is its crosspoint's failure, for a call not in a reswitch. -/
theorem applyOutcome_operate {o : Order} {x : Xp} {r : DriveOutcome} (hr : r ≠ .done) (ha : o.act = .operate x)
    (hs : (call o.call (crosspointFailed o.call x s)).reswitch = false) :
    applyOutcome o r s = crosspointFailed o.call x s := by
  simp [applyOutcome, ha, hr, failReswitch_of_false hs]

/-- The crosspoints other than one, none of them operated, all stay listed. -/
theorem filter_listed_of_none {l : List (Xp × XpState)} {x : Xp} {t : Part} (h : ∀ y ∈ l, y.2 ≠ .operated) :
    (l.filter (fun y => decide (y.1 ≠ x))).filter (listed t) = l.filter (fun y => decide (y.1 ≠ x)) :=
  List.filter_eq_self.mpr fun y hy => listed_of_ne (h y (List.mem_filter.mp hy).1)

/-- The clause of O55 on the OPERATE of the origin's line crosspoint. -/
theorem failed_operate_line {s : State} {o : Order} {lt n : Nat} {i : Instr} (h : TablesOk s.part)
    (ha : o.act = .operate (.line lt n)) (hd : dispatched o.act.unit s.part = some o)
    (hi : i = .driveConfirmation o.act.unit o.id false ∨ i = .driveTimeout o.act.unit o.id)
    (hr : (call o.call s.part).reswitch = false) (hc : callOfElem (.fl n) s.part = some o.call)
    (h1 : (call o.call s.part).set.tfl ≠ some n) (h2 : (call o.call s.part).new.tfl ≠ some n)
    (hx : ∀ y, y ∈ (call o.call s.part).xps → y.2 ≠ .operated) (hm : MaintRoom s.part)
    (hw : ∃ x, x ∈ s.part.orders.filter (fun x => decide (x.id ≠ o.id)) ∧ x.call = o.call) :
    ∃ t, exec i s = .next t ∧ t.pending = s.pending ∧
      t.part.orders = s.part.orders.filter (fun x => decide (x.id ≠ o.id)) ∧
      call o.call t.part =
        { (call o.call s.part).without (.fl n) with
          xps := (call o.call s.part).xps.filter (fun y => decide (y.1 ≠ .line lt n))
          opFailed := true } ∧
      (∀ x, x ≠ o.call → call x t.part = call x s.part) ∧
      elem (.fl n) t.part =
        { occ := .faulty
          admin := if (elem (.fl n) s.part).admin = .busyOutPending then .busyOut
            else (elem (.fl n) s.part).admin } ∧
      (∀ e, e ≠ .fl n → elem e t.part = elem e s.part) ∧
      noticesDue .maint t.part = noticesDue .maint s.part ++
        [.maint .elementFaulty 0 ([b8 0] ++ b16 n ++ [b8 o.call])] ∧
      t.part = { s.part with
        orders := t.part.orders, calls := t.part.calls, net.fls := t.part.net.fls
        m.io := t.part.m.io } := by
  obtain ⟨r, hr', hexec⟩ := exec_failed hd hi
  obtain ⟨v, hv⟩ : ∃ v, v = crosspointFailed o.call (.line lt n) (removeOrder o.id s.part) := ⟨_, rfl⟩
  have hve := hv.trans (crosspointFailed_fl (h.removeOrder o.id) (maintRoom_congr (removeOrder_m _ _) hm) rfl
    (.inl (by simpa using hc)) h1 h2 (filter_listed_of_none hx))
  have hvo : ordersOf o.call v ≠ [] := by
    rw [ordersOf_congr (s := removeOrder o.id s.part) (by simp [hve])]
    exact ordersOf_removeOrder_ne hw
  have e : orderOutcome o r s.part = v := by
    unfold orderOutcome
    rw [applyOutcome_operate hr' ha (by rw [← hv, hve]; simp [h.calls, hr, Call.without]), ← hv,
      operationStep_waits hvo]
  refine ⟨_, hexec, rfl, ?_⟩
  simp only [e, hve]
  refine ⟨?_, ?_, fun x hx => ?_, ?_, fun e he => ?_, ?_, ?_⟩
  · simp
  · simp [h.calls]
  · simp [h.calls, hx]
  · simp [h.fls, Element.spoilt]
  · simp [h.fls, he]
  · rw [noticesDue_enter]
    exact congrArg (· ++ _) (noticesDue_congr (by simp))
  · rfl

/-- A RELEASE that fails is its crosspoint's failure, and its elements that no other release names are FREE, for a call
not in a reswitch. -/
theorem applyOutcome_release {o : Order} {x : Xp} {r : DriveOutcome} {t : Part} (hr : r ≠ .done)
    (ha : o.act = .release x)
    (ht : x.elems.foldl (fun s e => freeReleased o.call e s) (crosspointFailed o.call x s) = t)
    (hs : (call o.call t).reswitch = false) : applyOutcome o r s = t := by
  simp [applyOutcome, ha, releaseOutcome, hr, ht, failReswitch_of_false hs]

theorem freeReleased_of_ne {id : Nat} {e : ElemId} (h : (elem e s).occ ≠ .releasing) : freeReleased id e s = s := by
  simp [freeReleased, h]

/-- A RELEASING element of a call that no RELEASE of it names becomes FREE. -/
theorem freeReleased_of_releasing {id : Nat} {e : ElemId} (h : (elem e s).occ = .releasing)
    (hr : releasingElem id e s = false) (he : e ∈ (call id s).elems) : freeReleased id e s = freeElem id e s := by
  simp [freeReleased, h, hr, he]

/-- What a release of the origin path that fails comes to, whichever of its crosspoints it is of. -/
def ReleaseFailed (o : Order) (n : Nat) (s t : Part) : Prop :=
  t.orders = s.orders.filter (fun y => decide (y.id ≠ o.id)) ∧ (∀ y, y ≠ o.call → call y t = call y s) ∧
    elem (.fl n) t = (elem (.fl n) s).spoilt ∧
    noticesDue .maint t = noticesDue .maint s ++ [.maint .elementFaulty 0 ([b8 0] ++ b16 n ++ [b8 o.call])] ∧
    t = { s with
      orders := t.orders, calls := t.calls, net.fls := t.net.fls, net.cords := t.net.cords
      orig.request := t.orig.request, m.io := t.m.io }

/-- A release of the origin path that fails while others of its call are outstanding. -/
structure FailsReleasing (o : Order) (i : Instr) (n : Nat) (s : State) : Prop where
  tables : TablesOk s.part
  sent : dispatched o.act.unit s.part = some o
  instr : i = .driveConfirmation o.act.unit o.id false ∨ i = .driveTimeout o.act.unit o.id
  settled : (call o.call s.part).reswitch = false
  named : callOfElem (.fl n) s.part = some o.call
  notTerm : (call o.call s.part).set.tfl ≠ some n
  notNew : (call o.call s.part).new.tfl ≠ some n
  unoperated : ∀ y, y ∈ (call o.call s.part).xps → y.2 ≠ .operated
  room : MaintRoom s.part
  others : ∃ y, y ∈ s.part.orders.filter (fun y => decide (y.id ≠ o.id)) ∧ y.call = o.call

/-- The clause of O55 on the release of a line crosspoint. -/
theorem failed_release_line {s : State} {o : Order} {i : Instr} {n lt : Nat} (b : FailsReleasing o i n s)
    (ha : o.act = .release (.line lt n)) :
    ∃ t, exec i s = .next t ∧ (t.pending = s.pending ∧ ReleaseFailed o n s.part t.part) ∧
      call o.call t.part =
        { (call o.call s.part).without (.fl n) with
          xps := (call o.call s.part).xps.filter (fun y => decide (y.1 ≠ .line lt n)), opFailed := true } ∧
      t.part.orig.request = s.part.orig.request ∧ ∀ e, e ≠ .fl n → elem e t.part = elem e s.part := by
  have h := b.tables
  obtain ⟨r, hr', hexec⟩ := exec_failed b.sent b.instr
  obtain ⟨v, hv⟩ : ∃ v, v = crosspointFailed o.call (.line lt n) (removeOrder o.id s.part) := ⟨_, rfl⟩
  have hve := hv.trans (crosspointFailed_fl (h.removeOrder o.id) (maintRoom_congr (removeOrder_m _ _) b.room) rfl
    (.inl (by simpa using b.named)) b.notTerm b.notNew (filter_listed_of_none b.unoperated))
  have hfl : (elem (.fl n) v).occ = .faulty := by simp [hve, h.fls, Element.spoilt]
  have hvo : ordersOf o.call v ≠ [] := by
    rw [ordersOf_congr (s := removeOrder o.id s.part) (by simp [hve])]
    exact ordersOf_removeOrder_ne b.others
  have e : orderOutcome o r s.part = v := by
    have hf : (Xp.line lt n).elems.foldl (fun s e => freeReleased o.call e s)
        (crosspointFailed o.call (.line lt n) (removeOrder o.id s.part)) = v := by
      rw [← hv]
      exact freeReleased_of_ne (by rw [hfl]; decide)
    unfold orderOutcome
    rw [applyOutcome_release hr' ha hf (by rw [hve]; simp [h.calls, b.settled, Call.without]), operationStep_waits hvo]
  refine ⟨_, hexec, ⟨rfl, ?_⟩, ?_⟩
  · simp only [e, hve]
    refine ⟨by simp, fun x hx => by simp [h.calls, hx], by simp [h.fls], ?_, rfl⟩
    rw [noticesDue_enter]
    exact congrArg (· ++ _) (noticesDue_congr (by simp))
  · simp only [e, hve]
    exact ⟨by simp [h.calls], by simp, fun e he => by simp [h.fls, he]⟩

/-- The clause of O55 on the release of a plane crosspoint. -/
theorem failed_release_plane {s : State} {o : Order} {i : Instr} {n cord : Nat} (b : FailsReleasing o i n s)
    (ha : o.act = .release (.plane n cord .o)) (hk : (call o.call s.part).set.cord = some cord)
    (hc : (elem (.cord cord) s.part).occ = .releasing)
    (hno : ∀ y z, y ∈ s.part.orders.filter (fun y => decide (y.id ≠ o.id)) → y.call = o.call → y.act = .release z →
      .cord cord ∉ z.elems) :
    ∃ t, exec i s = .next t ∧ (t.pending = s.pending ∧ ReleaseFailed o n s.part t.part) ∧
      call o.call t.part =
        { ({ (call o.call s.part).without (.fl n) with
              xps := (call o.call s.part).xps.filter (fun y => decide (y.1 ≠ .plane n cord .o))
              opFailed := true } : Call).without (.cord cord) with
          lastO := some (point (2048 + cord) s.part), lastT := some (point (2144 + cord) s.part) } ∧
      elem (.cord cord) t.part = (elem (.cord cord) s.part).freed ∧
      (∀ e, e ≠ .fl n → e ≠ .cord cord → elem e t.part = elem e s.part) ∧
      t.part.orig.request =
        if avail (.cord cord) t.part then (chooseWork t.part).map (Work.worst t.part)
        else s.part.orig.request := by
  have h := b.tables
  obtain ⟨r, hr', hexec⟩ := exec_failed b.sent b.instr
  obtain ⟨v, hv⟩ : ∃ v, v = crosspointFailed o.call (.plane n cord .o) (removeOrder o.id s.part) := ⟨_, rfl⟩
  have hve := hv.trans (crosspointFailed_fl (h.removeOrder o.id) (maintRoom_congr (removeOrder_m _ _) b.room) rfl
    (.inl (by simpa using b.named)) b.notTerm b.notNew (filter_listed_of_none b.unoperated))
  have hvt : TablesOk v := by
    rw [hve]
    exact (((h.removeOrder _).modElem _ _).modCall _ _).enter _ _
  have hfl : (elem (.fl n) v).occ = .faulty := by simp [hve, h.fls, Element.spoilt]
  have hvk : (call o.call v).set.cord = some cord := by simp [hve, h.calls, Call.without, ElemSet.without, hk]
  have hvc : (elem (.cord cord) v).occ = .releasing := by simp [hve, h.fls, hc]
  have horders : v.orders = s.part.orders.filter (fun y => decide (y.id ≠ o.id)) := by simp [hve]
  have hvr : releasingElem o.call (.cord cord) v = false := by
    simp only [releasingElem, ordersOf, horders, List.any_eq_false]
    intro y hy
    obtain ⟨hy, hyc⟩ := List.mem_filter.mp hy
    cases hact : y.act with
    | release z => simpa using hno y z hy (by simpa using hyc) hact
    | _ => simp
  have hvo : ordersOf o.call v ≠ [] := by
    rw [ordersOf_congr (s := removeOrder o.id s.part) horders]
    exact ordersOf_removeOrder_ne b.others
  have hp : ∀ p, point p v = point p s.part := fun p => by simp [hve]
  obtain ⟨w, hw, hfree⟩ := freeElem_cord (id := o.call) hvt hvk
  rw [hp, hp] at hw
  have e : orderOutcome o r s.part = if avail (.cord cord) w then retry w else w := by
    have hf : (Xp.plane n cord .o).elems.foldl (fun s e => freeReleased o.call e s)
        (crosspointFailed o.call (.plane n cord .o) (removeOrder o.id s.part)) =
        if avail (.cord cord) w then retry w else w := by
      rw [← hv, ← hfree]
      simp only [Xp.elems, List.foldl_cons, List.foldl_nil]
      rw [freeReleased_of_ne (e := .fl n) (by rw [hfl]; decide), freeReleased_of_releasing hvc hvr]
      simp [Call.elems, ElemSet.elems, hvk]
    have hs : (call o.call (if avail (.cord cord) w then retry w else w)).reswitch = false := by
      split <;> simp [hw, Call.without, hve, h.calls, b.settled]
    have hwo : ordersOf o.call (if avail (.cord cord) w then retry w else w) ≠ [] := by
      rw [ordersOf_congr (s := v)]
      · exact hvo
      · split <;> simp [hw]
    unfold orderOutcome
    rw [applyOutcome_release hr' ha hf hs, operationStep_waits hwo]
  have read : ∀ t : Part, t = w ∨ t = retry w → ReleaseFailed o n s.part t ∧
      call o.call t = call o.call w ∧ ∀ e, elem e t = elem e w := by
    have hio : io .maint w = io .maint v := by simp [hw]
    have hmaint : noticesDue .maint v = noticesDue .maint s.part ++
        [.maint .elementFaulty 0 ([b8 0] ++ b16 n ++ [b8 o.call])] := by
      rw [hve, noticesDue_enter]
      exact congrArg (· ++ _) (noticesDue_congr (by simp))
    intro t ht
    refine ⟨⟨?_, fun x hx => ?_, ?_, ?_, ?_⟩, ?_, fun e => ?_⟩
    · rcases ht with rfl | rfl <;> simp [hw, horders]
    · rcases ht with rfl | rfl <;> simp [hw, hve, h.calls, hx]
    · rcases ht with rfl | rfl <;> simp [hw, hve, h.fls, h.cords]
    · rw [noticesDue_congr (s := v) (by rcases ht with rfl | rfl <;> simp [hio]), hmaint]
    · rcases ht with rfl | rfl <;> rw [hw, hve] <;> rfl
    · rcases ht with rfl | rfl <;> simp
    · rcases ht with rfl | rfl <;> simp
  have hcw : call o.call w = Call.without (.cord cord) { (call o.call s.part).without (.fl n) with
      xps := (call o.call s.part).xps.filter (fun y => decide (y.1 ≠ .plane n cord .o))
      opFailed := true
      lastO := some (point (2048 + cord) s.part), lastT := some (point (2144 + cord) s.part) } := by
    simp [hw, hve, h.calls, Call.without]
  have hew : elem (.cord cord) w = (elem (.cord cord) s.part).freed := by simp [hw, hve, h.cords, h.fls]
  have hex : ∀ e, e ≠ .fl n → e ≠ .cord cord → elem e w = elem e s.part := fun e h1 h2 => by
    simp [hw, hve, h.cords, h.fls, h1, h2]
  by_cases ha : avail (.cord cord) w = true
  · obtain ⟨h1, h2, h3⟩ := read (retry w) (.inr rfl)
    have ha' : avail (.cord cord) (retry w) = true := (avail_congr rfl _).trans ha
    rw [if_pos ha] at e
    refine ⟨_, hexec, ⟨rfl, ?_⟩, ?_⟩ <;> simp only [e]
    · exact h1
    · refine ⟨h2.trans hcw, (h3 _).trans hew, fun e h4 h5 => (h3 e).trans (hex e h4 h5), ?_⟩
      rw [if_pos ha']
      exact retry_request w
  · obtain ⟨h1, h2, h3⟩ := read w (.inl rfl)
    rw [if_neg ha] at e
    refine ⟨_, hexec, ⟨rfl, ?_⟩, ?_⟩ <;> simp only [e]
    · exact h1
    · refine ⟨hcw, hew, hex, ?_⟩
      rw [if_neg ha]
      simp [hw, hve]

end Sys2Proof.Machine
end

section
/-!
PROOFS. The outcome of a coin order (R132, R133), and what the rest of a release leaves to the Meter Store and the
maintenance port.
-/

namespace Sys2Proof.Machine

variable {r s t : Part} {id : Nat}

/-! ## Units added to a meter (R137, R140) -/

/-- Outside URGENT and with no save in progress no write starts of itself (R146). -/
theorem nextWrite_of_normal (hs : s.meters.save = none) (hb : urgent s = false) : nextWrite s = s := by
  simp [nextWrite, hs, hb]

/-- A line joins the dirty list once, and not with NV FAULT (R140). -/
theorem joinDirty_eq {lt : Nat} (hs : s.meters.save = none) (hb : urgent s = false) :
    joinDirty lt s = modMeters (fun m => { m with
      dirty := if lt ∉ s.meters.dirty ∧ (meter lt s).nvFault = false then s.meters.dirty ++ [lt]
        else s.meters.dirty }) s := by
  unfold joinDirty
  by_cases h : lt ∈ s.meters.dirty ∨ (meter lt s).nvFault = true
  · have h' : ¬ (lt ∉ s.meters.dirty ∧ (meter lt s).nvFault = false) := by
      rintro ⟨h1, h2⟩
      simp [h1, h2] at h
    rw [if_pos h, if_neg h']
    rfl
  · have h' : lt ∉ s.meters.dirty ∧ (meter lt s).nvFault = false := by simpa using h
    rw [if_neg h, if_pos h']
    exact nextWrite_of_normal hs hb

/-- A meter entry raised by some units: the count wraps at its top (R136, R137). -/
def MeterEntry.raised (n : Nat) (e : MeterEntry) : MeterEntry :=
  { e with count := (e.count + n) % 10000000, rollover := e.rollover || decide (10000000 ≤ e.count + n) }

theorem modMeter_congr {lt : Nat} {f g : MeterEntry → MeterEntry} (h : f (meter lt s) = g (meter lt s)) :
    modMeter lt f s = modMeter lt g s := by
  unfold modMeter
  rw [h]

/-- Units added outside URGENT with no save in progress: the entry, then ROLLOVER at a wrap, then the dirty list. -/
theorem addUnits_eq {lt n : Nat} (h : TablesOk s) (hm : MaintRoom s) (hs : s.meters.save = none)
    (hb : urgent s = false) (hn : n ≠ 0) :
    ∃ u, u = (if 10000000 ≤ (meter lt s).count + n then
          enter .maint (.maint .rollover 0 (b16 lt)) (modMeter lt (MeterEntry.raised n) s)
        else modMeter lt (MeterEntry.raised n) s) ∧
      addUnits lt n s = modMeters (fun m => { m with
        dirty := if lt ∉ s.meters.dirty ∧ (meter lt s).nvFault = false then s.meters.dirty ++ [lt]
          else s.meters.dirty }) u := by
  refine ⟨_, rfl, ?_⟩
  have hj : ∀ u : Part, u.meters = (modMeter lt (MeterEntry.raised n) s).meters → u.supply = s.supply →
      joinDirty lt u = modMeters (fun m => { m with
        dirty := if lt ∉ s.meters.dirty ∧ (meter lt s).nvFault = false then s.meters.dirty ++ [lt]
          else s.meters.dirty }) u := fun u hu hp => by
    have hf : (meter lt u).nvFault = (meter lt s).nvFault := by
      rw [meter_congr (s := modMeter lt (MeterEntry.raised n) s) (by rw [hu]), meter_modMeter h]
      rfl
    have hd : u.meters.dirty = s.meters.dirty := by rw [hu]; rfl
    rw [joinDirty_eq (by rw [hu]; exact hs) (by unfold urgent at hb ⊢; rw [hp]; exact hb), hf, hd]
  unfold addUnits
  dsimp only
  rw [if_neg hn]
  by_cases ht : 10000000 ≤ (meter lt s).count + n
  · have e : modMeter lt (fun e => { e with count := ((meter lt s).count + n) % Config.meterTop, rollover := true }) s =
        modMeter lt (MeterEntry.raised n) s := modMeter_congr (by simp [MeterEntry.raised, ht, Config.meterTop])
    have hm' : MaintRoom (modMeter lt (MeterEntry.raised n) s) := maintRoom_congr (s := s) rfl hm
    rw [if_neg (by simpa [Config.meterTop] using ht), if_pos ht, e, raiseMaint_enters hm']
    exact hj _ rfl rfl
  · have e : modMeter lt (fun e => { e with count := (meter lt s).count + n }) s =
        modMeter lt (MeterEntry.raised n) s := modMeter_congr (by
      have hlt : (meter lt s).count + n < 10000000 := by omega
      simp [MeterEntry.raised, Nat.mod_eq_of_lt hlt, hlt])
    rw [if_pos (by simpa [Config.meterTop] using ht), if_neg ht, e]
    exact hj _ rfl rfl

/-- A meter entry raised by some units, and what goes with it. -/
structure Added (lt n : Nat) (s t : Part) : Prop where
  raised : meter lt t = (meter lt s).raised n
  others : ∀ x, x ≠ lt → meter x t = meter x s
  store : t.meters = { s.meters with
    entries := t.meters.entries
    dirty := if lt ∉ s.meters.dirty ∧ (meter lt s).nvFault = false then s.meters.dirty ++ [lt] else s.meters.dirty }
  maint : noticesDue .maint t = noticesDue .maint s ++
    (if 10000000 ≤ (meter lt s).count + n then [.maint .rollover 0 (b16 lt)] else [])
  frame : t = { s with meters := t.meters, m.io := t.m.io }

theorem added_addUnits {lt n : Nat} (h : TablesOk s) (hm : MaintRoom s) (hs : s.meters.save = none)
    (hb : urgent s = false) (hn : n ≠ 0) : Added lt n s (addUnits lt n s) := by
  obtain ⟨u, hu, e⟩ := addUnits_eq (lt := lt) h hm hs hb hn
  have hmet : u.meters = (modMeter lt (MeterEntry.raised n) s).meters := by
    rw [hu]
    split <;> rfl
  have hx : ∀ x, meter x (addUnits lt n s) = meter x (modMeter lt (MeterEntry.raised n) s) := fun x => by
    rw [e]
    exact meter_congr (congrArg MeterStore.entries hmet) x
  rw [e] at hx ⊢
  refine ⟨by rw [hx, meter_modMeter h], fun x h1 => by rw [hx, meter_modMeter_of_ne h1], ?_, ?_, ?_⟩
  · have hd : ∀ d, (modMeters (fun m => { m with dirty := d }) u).meters =
        { s.meters with entries := (modMeters (fun m => { m with dirty := d }) u).meters.entries, dirty := d } :=
      fun d => by
        simp only [modMeters, hmet]
        rfl
    exact hd _
  · refine (noticesDue_congr (s := u) (p := .maint) rfl).trans ?_
    rw [hu]
    split
    · rw [noticesDue_enter]
      rfl
    · simp [noticesDue_congr (s := s) (t := modMeter lt (MeterEntry.raised n) s) (p := .maint) rfl]
  · have hf : u = { s with meters := u.meters, m.io := u.m.io } := by
      rw [hu]
      split <;> rfl
    have hd : ∀ d, modMeters (fun m => { m with dirty := d }) u = { s with
        meters := (modMeters (fun m => { m with dirty := d }) u).meters
        m.io := (modMeters (fun m => { m with dirty := d }) u).m.io } := fun d => by
      conv_lhs => rw [hf]
      rfl
    exact hd _

/-! ## The rest of a release, for the Meter Store and the maintenance port -/

/-- The Meter Store is the same, and so is what the maintenance port has still to tell. -/
def MaintKept (s t : Part) : Prop := t.meters = s.meters ∧ noticesDue .maint t = noticesDue .maint s

theorem MaintKept.refl (s : Part) : MaintKept s s := ⟨rfl, rfl⟩

theorem MaintKept.trans (h : MaintKept r s) (g : MaintKept s t) : MaintKept r t :=
  ⟨g.1.trans h.1, g.2.trans h.2⟩

theorem MaintKept.of_m (h1 : t.meters = s.meters) (h2 : t.m = s.m) : MaintKept s t :=
  ⟨h1, noticesDue_congr (congrArg MaintPort.io h2)⟩

theorem maintKept_enterCall (c : Ctl) (id : Nat) (k : CallKind) (d : List Byte) (s : Part) :
    MaintKept s (enterCall (.ctl c) id k d s) := by
  unfold enterCall
  dsimp only
  split <;> cases c <;> exact .of_m rfl rfl

theorem maintKept_drainOne {c : Ctl} (h : drainOne c s = some t) : MaintKept s t := by
  unfold drainOne at h
  split at h
  · cases h
  · split at h
    · cases h
      cases c <;> exact .of_m rfl rfl
    · split at h
      · cases h
      · split at h
        · cases h
        · cases h
          refine .trans ?_ (maintKept_enterCall c _ _ _ _)
          split <;> cases c <;> exact .of_m rfl rfl

theorem maintKept_drainCtl (c : Ctl) (s : Part) : MaintKept s (drainCtl c s) := by
  unfold drainCtl
  generalize Config.ctlQueue + 1 = n
  induction n generalizing s with
  | zero => exact .refl s
  | succ n ih =>
    unfold repeatStep
    split
    · next t ht => exact (maintKept_drainOne ht).trans (ih t)
    · exact .refl s

theorem maintKept_raiseCleared {c : Ctl} (h : (call id s).owner = some c) : MaintKept s (raiseCleared id s) := by
  simp only [raiseCleared, h, raiseCall]
  split
  · exact maintKept_enterCall c _ _ _ _
  · exact .trans (.of_m rfl rfl) (maintKept_drainCtl c _)

theorem maintKept_inside (h : Inside id s t) : MaintKept s t := .of_m (by rw [h.frame]) (by rw [h.frame])

theorem maintKept_closeCall {c : Ctl} (h : TablesOk s) (ho : (call id s).owner = some c) :
    MaintKept s (closeCall id s) := by
  obtain ⟨u, hu⟩ : ∃ u, u = leaveTerm id (leaveOrigin id s) := ⟨_, rfl⟩
  have hi : Inside id s u := hu ▸ inside_leaveTerm (inside_leaveOrigin (.refl h))
  obtain ⟨w, hw⟩ : ∃ w, w = modCall id
      (fun c => { c with
        state := .closed, originHeld := false, claim := 0, xps := [], set := {}, old := {}, new := {}
        reswitch := false, lineSpeaks := false, relPending := false, op := .idle, opFailed := false
        yielded := false, dest := none, lastO := none, lastT := none }) u := ⟨_, rfl⟩
  have hwo : (call id w).owner = some c := by
    have h1 : (call id u).told.owner = (call id s).told.owner := congrArg Call.owner hi.told
    rw [hw, call_modCall hi.tables]
    exact h1.trans ho
  have hr : MaintKept w (restartClosed id w) :=
    ⟨by rw [restartClosed_frame], noticesDue_restartClosed id w⟩
  have hvo : (call id (restartClosed id w)).owner = some c := by
    rw [call_congr (by rw [restartClosed_frame]) id]
    exact hwo
  have e : closeCall id s = raiseCleared id (restartClosed id w) := by rw [hw, hu]; rfl
  rw [e]
  exact (((maintKept_inside hi).trans (hw ▸ .of_m rfl rfl)).trans hr).trans (maintKept_raiseCleared hvo)

/-- The second step of a release (R83). -/
theorem maintKept_releaseStep2 {c : Ctl} (h : TablesOk s) (ho : (call id s).owner = some c) :
    MaintKept s (releaseStep2 id s) := by
  obtain ⟨u, hu⟩ : ∃ u, u = (releaseOrder id (modCall id (fun c => { c with op := .release2 }) s)).foldl
      (fun s x => placeRelease id x s) (modCall id (fun c => { c with op := .release2 }) s) := ⟨_, rfl⟩
  have each : ∀ (l : List Xp) (t : Part), TablesOk t → (call id t).owner = some c → MaintKept s t →
      TablesOk (l.foldl (fun s x => placeRelease id x s) t) ∧
        (call id (l.foldl (fun s x => placeRelease id x s) t)).owner = some c ∧
        MaintKept s (l.foldl (fun s x => placeRelease id x s) t) := by
    intro l
    induction l with
    | nil => exact fun t h1 h2 h3 => ⟨h1, h2, h3⟩
    | cons x l ih =>
      intro t h1 h2 h3
      refine ih _ ((h1.modCall _ _).place _ _) ?_ (h3.trans (.of_m rfl rfl))
      simp [placeRelease, h1.calls, h2]
  obtain ⟨hut, huo, huk⟩ := each (releaseOrder id (modCall id (fun c => { c with op := .release2 }) s))
    (modCall id (fun c => { c with op := .release2 }) s) (h.modCall _ _) (by simp [h.calls, ho]) (.of_m rfl rfl)
  rw [← hu] at hut huo huk
  obtain ⟨v, hv⟩ : ∃ v, v = (call id u).elems.foldl (fun s e => releaseElem id e s) u := ⟨_, rfl⟩
  have hi : Inside id u v := by
    rw [hv]
    refine inside_foldl (fun s e h => ?_) _ (.refl hut)
    unfold releaseElem
    split
    · exact inside_modElem h e _
    · exact inside_freeElem h e
  have hvo : (call id v).owner = some c := (congrArg Call.owner hi.told).trans huo
  have e : releaseStep2 id s = if (ordersOf id v).isEmpty then closeCall id v else v := by rw [hv, hu]; rfl
  rw [e]
  split
  · exact (huk.trans (maintKept_inside hi)).trans (maintKept_closeCall hi.tables hvo)
  · exact huk.trans (maintKept_inside hi)

/-! ## Coin orders (R132, R133) -/

/-- A notice adds at most one to its queue. -/
theorem queue_enter_le (p : Port) (n : Notice) (s : Part) :
    (io p (enter p n s)).queue.length ≤ (io p s).queue.length + 1 := by
  simp only [enter, io_modIo]
  obtain ⟨sending, replies, queue⟩ := io p s
  cases sending with
  | some f => simp [PortIo.kick]
  | none => cases replies <;> cases queue <;> simp [PortIo.kick]

/-- The part once a coin order's failure, if it failed, has been told. -/
def coinTold (o : Order) (lt : Nat) (k : Coin) (ok refund : Bool) (s : Part) : Part :=
  if ok then s
  else enter .maint (.maint .coinFault 0
    ([b8 o.call] ++ b16 lt ++ [b8 (if refund then 1 else 0)] ++ b16 k.deposits)) s

theorem applyOutcome_coin {o : Order} {lt cord : Nat} {k : Coin} {ok : Bool} {r : DriveOutcome}
    (hr : r = .done ↔ ok = true)
    (hk : (call o.call s).coin = some k) (ho : (call o.call s).origin = some (.line lt)) (hm : MaintRoom s) :
    (o.act = .collect cord → applyOutcome o r s = addUnits lt k.deposits (coinTold o lt k ok false s)) ∧
      (o.act = .refund cord → applyOutcome o r s = coinTold o lt k ok true s) := by
  have hl : (call o.call s).lineOrigin = some lt := by simp [Call.lineOrigin, ho]
  have hf : ∀ b, (if r = .done then s else raiseCoinFault o.call b s) = coinTold o lt k ok b s := fun b => by
    unfold coinTold raiseCoinFault
    simp only [hr, hl, hk, raiseMaint_enters hm]
    rfl
  refine ⟨fun h => ?_, fun h => ?_⟩
  · simp only [applyOutcome, h, collectOutcome, hf, hl, hk]
    rfl
  · simp only [applyOutcome, h, hf]

/-- The first step of a release goes on from a coin order's outcome without touching the Meter Store again. -/
theorem maintKept_operationStep {id : Nat} {c : Ctl} (h : TablesOk s) (hop : (call id s).op = .release1)
    (hrel : (call id s).relPending = false) (ho : (call id s).owner = some c) : MaintKept s (operationStep id s) := by
  by_cases hx : ordersOf id s = []
  · have e : operationStep id s = releaseStep2 id s := by simp [operationStep, hx, hop, hrel]
    rw [e]
    exact maintKept_releaseStep2 h ho
  · rw [operationStep_waits hx]
    exact .refl s

theorem exec_outcome {s : State} {o : Order} {i : Instr} {ok : Bool} (h : dispatched o.act.unit s.part = some o)
    (hi : i = .driveConfirmation o.act.unit o.id ok ∨ i = .driveTimeout o.act.unit o.id ∧ ok = false) :
    ∃ r, (r = .done ↔ ok = true) ∧ exec i s = .next { s with part := orderOutcome o r s.part } := by
  cases ok with
  | true =>
    obtain rfl | ⟨-, hf⟩ := hi
    · exact ⟨.done, by simp, exec_done h⟩
    · cases hf
  | false =>
    obtain ⟨r, hr, he⟩ := exec_failed h (hi.imp_right And.left)
    exact ⟨r, by simp [hr], he⟩

/-- The clause of O55 on COIN COLLECT and COIN REFUND. -/
theorem coin_outcome {s : State} {o : Order} {i : Instr} {ok : Bool} {cord lt : Nat} {k : Coin} {c : Ctl}
    (h : TablesOk s.part) (hd : dispatched o.act.unit s.part = some o)
    (hi : i = .driveConfirmation o.act.unit o.id ok ∨ i = .driveTimeout o.act.unit o.id ∧ ok = false)
    (hop : (call o.call s.part).op = .release1) (hrel : (call o.call s.part).relPending = false)
    (hk : (call o.call s.part).coin = some k) (ho : (call o.call s.part).origin = some (.line lt))
    (hw : (call o.call s.part).owner = some c) (hq : (io .maint s.part).queue.length < 31)
    (hm : s.part.m.held = []) (hb : s.part.supply.battery = .normal) (hs : s.part.meters.save = none)
    (hact : o.act = .collect cord ∨ o.act = .refund cord) :
    let collected := o.act = .collect cord ∧ k.deposits ≠ 0
    let total := (meter lt s.part).count + k.deposits
    ∃ t, exec i s = .next t ∧ t.pending = s.pending ∧
      (collected → meter lt t.part = (meter lt s.part).raised k.deposits) ∧
      (¬ collected → meter lt t.part = meter lt s.part) ∧
      (∀ x, x ≠ lt → meter x t.part = meter x s.part) ∧
      t.part.meters = { s.part.meters with
        entries := t.part.meters.entries
        dirty :=
          if collected ∧ lt ∉ s.part.meters.dirty ∧ (meter lt s.part).nvFault = false then
            s.part.meters.dirty ++ [lt]
          else s.part.meters.dirty } ∧
      noticesDue .maint t.part =
        noticesDue .maint s.part ++
          (if ok then []
            else
              [.maint .coinFault 0
                ([b8 o.call] ++ b16 lt ++ [if o.act = .collect cord then 0 else 1] ++ b16 k.deposits)]) ++
          (if collected ∧ 10000000 ≤ total then [.maint .rollover 0 (b16 lt)] else []) := by
  intro collected total
  obtain ⟨r, hr, hexec⟩ := exec_outcome hd hi
  obtain ⟨v, hv⟩ : ∃ v, v = coinTold o lt k ok (decide (o.act ≠ .collect cord)) (removeOrder o.id s.part) := ⟨_, rfl⟩
  have hvt : TablesOk v := by
    rw [hv, coinTold]
    split
    · exact h.removeOrder _
    · exact (h.removeOrder _).enter _ _
  have hvf : v = { removeOrder o.id s.part with m.io := v.m.io } := by
    rw [hv, coinTold]
    split <;> rfl
  have hvq : (io .maint v).queue.length < 32 := by
    rw [hv, coinTold]
    split
    · exact Nat.lt_succ_of_lt hq
    · exact Nat.lt_of_le_of_lt (queue_enter_le _ _ _) (Nat.succ_lt_succ hq)
  have hvm : MaintRoom v := ⟨hvq, by rw [hvf]; exact hm⟩
  have hvn : noticesDue .maint v = noticesDue .maint s.part ++
      (if ok then []
        else
          [.maint .coinFault 0
            ([b8 o.call] ++ b16 lt ++ [if o.act = .collect cord then 0 else 1] ++ b16 k.deposits)]) := by
    rw [hv, coinTold]
    split
    · simp [noticesDue_congr (s := s.part) (t := removeOrder o.id s.part) (p := .maint) rfl]
    · rw [noticesDue_enter, noticesDue_congr (s := s.part) (t := removeOrder o.id s.part) (p := .maint) rfl]
      by_cases hc : o.act = .collect cord <;> simp [hc] <;> rfl
  have hvmet : ∀ x, meter x v = meter x s.part := fun x => meter_congr (by rw [hvf]; rfl) x
  obtain ⟨hcol, href⟩ := applyOutcome_coin (s := removeOrder o.id s.part) (cord := cord) hr hk ho
    ⟨Nat.lt_succ_of_lt hq, hm⟩
  have finish : ∀ {w : Part}, applyOutcome o r (removeOrder o.id s.part) = w → TablesOk w → w.calls = s.part.calls →
      MaintKept w (orderOutcome o r s.part) := fun {w} e ht hc => by
    have hx := call_congr hc o.call
    unfold orderOutcome
    rw [e]
    exact maintKept_operationStep ht (by rw [hx]; exact hop) (by rw [hx]; exact hrel) (by rw [hx]; exact hw)
  have hvc : v.calls = s.part.calls := by
    rw [hvf]
    rfl
  have hvs : v.meters = s.part.meters := by
    rw [hvf]
    rfl
  by_cases hcd : collected
  · have hu : urgent v = false := by
      rw [hvf]
      simp [urgent, hb, removeOrder]
    have ha := added_addUnits (lt := lt) hvt hvm (by rw [hvs]; exact hs) hu hcd.2
    have hwv : applyOutcome o r (removeOrder o.id s.part) = addUnits lt k.deposits v := by
      rw [hcol hcd.1, hv]
      simp [hcd.1]
    obtain ⟨hmet, hmn⟩ := finish hwv ((low_addUnits (Low.refl v)).tablesOk hvt) (by rw [ha.frame]; exact hvc)
    have hx : ∀ x, meter x (orderOutcome o r s.part) = meter x (addUnits lt k.deposits v) :=
      fun x => meter_congr (congrArg MeterStore.entries hmet) x
    refine ⟨_, hexec, rfl, fun _ => ?_, fun h' => absurd hcd h', fun x h' => ?_, ?_, ?_⟩
    · exact (hx lt).trans (by rw [ha.raised, hvmet])
    · exact (hx x).trans (by rw [ha.others x h', hvmet])
    · refine (hmet.trans ha.store).trans ?_
      simp [hcd, hmet, hvs, hvmet]
    · refine hmn.trans ?_
      rw [ha.maint, hvn, hvmet]
      simp [hcd, total]
  · have hwv : applyOutcome o r (removeOrder o.id s.part) = v := by
      rcases hact with hact | hact
      · have h0 : k.deposits = 0 := by simpa [collected, hact] using hcd
        rw [hcol hact, hv, h0]
        simp [hact, addUnits]
      · rw [href hact, hv]
        simp [hact]
    obtain ⟨hmet, hmn⟩ := finish hwv hvt hvc
    have hx : ∀ x, meter x (orderOutcome o r s.part) = meter x s.part :=
      fun x => (meter_congr (congrArg MeterStore.entries hmet) x).trans (hvmet x)
    refine ⟨_, hexec, rfl, fun h' => absurd h' hcd, fun _ => hx lt, fun x _ => hx x, ?_, ?_⟩
    · refine (hmet.trans hvs).trans ?_
      simp [hcd, hmet, hvs]
    · refine hmn.trans (hvn.trans ?_)
      simp [hcd]

end Sys2Proof.Machine
end

section
/-!
PROOFS. The last order of an origin search fails (R65, R25, R38, R51).
-/

namespace Sys2Proof.Machine

variable {s t : Part}

/-! ## A line's origin search -/

/-- The last order of a line's origin search, an OPERATE, fails. -/
structure LineSearchFails (o : Order) (i : Instr) (lt cord : Nat) (again : Bool) (s : State) : Prop where
  tables : TablesOk s.part
  sent : dispatched o.act.unit s.part = some o
  instr : i = .driveConfirmation o.act.unit o.id false ∨ i = .driveTimeout o.act.unit o.id
  alone : ∀ x ∈ s.part.orders, x.call = o.call → x.id = o.id
  room : MaintRoom s.part
  kept : (call o.call s.part).relPending = false
  settled : (call o.call s.part).reswitch = false
  searching : (call o.call s.part).op = .origin again
  origin : (call o.call s.part).origin = some (.line lt)
  oldSet : (call o.call s.part).old = {}
  newSet : (call o.call s.part).new = {}
  sound : (elem (.cord cord) s.part).occ ≠ .faulty

/-- The search's failure, when the crosspoint is left out and its frame link is FAULTY. -/
def lineSearchFailed (o : Order) (n cord : Nat) (l : List (Xp × XpState)) (s : Part) : Part :=
  enter .maint (.maint .elementFaulty 0 ([b8 0] ++ b16 n ++ [b8 o.call]))
    (modCall o.call (fun c => { c with set := { cord := some cord }, xps := l, opFailed := true })
      (modElem (.fl n) Element.spoilt (removeOrder o.id s)))

theorem tablesOk_lineSearchFailed (h : TablesOk s) (o : Order) (n cord : Nat) (l : List (Xp × XpState)) :
    TablesOk (lineSearchFailed o n cord l s) := (((h.removeOrder _).modElem _ _).modCall _ _).enter _ _

/-- A record that names an element in its set alone. -/
theorem Call.without_of_set {c : Call} {e : ElemId} {k : ElemSet} (hs : c.set.without e = k) (ho : c.old = {})
    (hn : c.new = {}) : c.without e = { c with set := k } := by
  have he : ElemSet.without e {} = {} := by cases e <;> simp [ElemSet.without]
  unfold Call.without
  rw [hs, ho, hn, he]

/-- The crosspoint's failure, and the end of the attempt. -/
theorem LineSearchFails.exec_eq {o : Order} {i : Instr} {lt n cord : Nat} {again : Bool} {s : State} {x : Xp}
    {l : List (Xp × XpState)} (b : LineSearchFails o i lt cord again s) (ha : o.act = .operate x) (hb : x.blame = .fl n)
    (hs : (call o.call s.part).set = { fl := some n, cord := some cord } ∧ callOfElem (.fl n) s.part = some o.call ∨
      (call o.call s.part).set = { cord := some cord } ∧ callOfElem (.fl n) s.part = none)
    (hl : ((call o.call s.part).xps.filter (fun y => decide (y.1 ≠ x))).filter
      (listed (modElem (.fl n) Element.spoilt (removeOrder o.id s.part))) = l) :
    exec i s = .next { s with part := originEnd o.call again (lineSearchFailed o n cord l s.part) } := by
  have h := b.tables
  obtain ⟨r, hr, hexec⟩ := exec_failed b.sent b.instr
  have hset : (call o.call s.part).set.tfl ≠ some n := by rcases hs with ⟨hs, -⟩ | ⟨hs, -⟩ <;> simp [hs]
  have hwo : (call o.call s.part).set.without (.fl n) = { cord := some cord } := by
    rcases hs with ⟨hs, -⟩ | ⟨hs, -⟩ <;> simp [hs, ElemSet.without]
  have hv : crosspointFailed o.call x (removeOrder o.id s.part) = lineSearchFailed o n cord l s.part := by
    have hc := Call.without_of_set hwo b.oldSet b.newSet
    rw [crosspointFailed_fl (h.removeOrder o.id) (maintRoom_congr (removeOrder_m _ _) b.room) hb
      (hs.imp (fun hs => by simpa using hs.2) fun hs =>
        ⟨by simpa using hs.2, Call.without_of_set (hwo.trans hs.1.symm) b.oldSet b.newSet⟩)
      hset (by simp [b.newSet]) hl, lineSearchFailed]
    refine congrArg _ (modCall_congr ?_)
    simp only [call_modElem, call_removeOrder, hc]
  have hcall : call o.call (lineSearchFailed o n cord l s.part) =
      { call o.call s.part with set := { cord := some cord }, xps := l, opFailed := true } := by
    simp [lineSearchFailed, h.calls]
  have hvo : ordersOf o.call (lineSearchFailed o n cord l s.part) = [] :=
    (ordersOf_congr (by simp [lineSearchFailed])).trans (ordersOf_removeOrder b.alone)
  rw [hexec]
  unfold orderOutcome
  rw [applyOutcome_operate hr ha (by rw [hv, hcall]; exact b.settled), hv]
  simp [operationStep, hvo, hcall, b.kept, b.searching]

/-- The clause of O55 on a line's origin search whose line crosspoint fails: its plane crosspoint is released. -/
theorem failed_search_back {s : State} {o : Order} {i : Instr} {lt n cord : Nat} {again : Bool}
    (b : LineSearchFails o i lt cord again s) (ha : o.act = .operate (.line lt n))
    (hset : (call o.call s.part).set = { fl := some n, cord := some cord })
    (hxps : (call o.call s.part).xps = [(.line lt n, .operating), (.plane n cord .o, .operated)])
    (hc : callOfElem (.fl n) s.part = some o.call) :
    ∃ t, exec i s = .next t ∧ t.pending = s.pending ∧
      noticesDue .maint t.part = noticesDue .maint s.part ++
        [.maint .elementFaulty 0 ([b8 0] ++ b16 n ++ [b8 o.call])] ∧
      call o.call t.part =
        { call o.call s.part with
          set := { cord := some cord }, xps := [(.plane n cord .o, .releasing)]
          op := .originBack again, opFailed := false, yielded := false } ∧
      (∀ x, x ≠ o.call → call x t.part = call x s.part) ∧
      t.part.orders = s.part.orders.filter (fun x => decide (x.id ≠ o.id)) ++
        [{ id := s.part.serial, call := o.call, act := .release (.plane n cord .o) }] ∧
      (∀ e, elem e t.part =
        if e = .cord cord then { elem e s.part with occ := .releasing }
        else elem e (modElem (.fl n) Element.spoilt s.part)) ∧
      t.part = { s.part with
        orders := t.part.orders, serial := s.part.serial + 1, calls := t.part.calls
        net.fls := t.part.net.fls, net.cords := t.part.net.cords, m.io := t.part.m.io } := by
  have h := b.tables
  have hsound : (elem (.cord cord) (modElem (.fl n) Element.spoilt (removeOrder o.id s.part))).occ ≠ .faulty := by
    simpa [h.fls] using b.sound
  have hexec := b.exec_eq (n := n) (l := [(.plane n cord .o, .operated)]) ha rfl (.inl ⟨hset, hc⟩) (by
    have hkeep := listed_of_elem (y := (.plane n cord .o, .operated)) (e := .cord cord) (by simp [Xp.elems]) hsound
    simp [hxps, hkeep])
  obtain ⟨v, hv⟩ : ∃ v, v = lineSearchFailed o n cord [(.plane n cord .o, .operated)] s.part := ⟨_, rfl⟩
  have hvt : TablesOk v := hv ▸ tablesOk_lineSearchFailed h _ _ _ _
  have hcall : call o.call v =
      { call o.call s.part with
        set := { cord := some cord }, xps := [(.plane n cord .o, .operated)], opFailed := true } := by
    simp [hv, lineSearchFailed, h.calls]
  have hxs : operatedXps o.call v = [.plane n cord .o] := by
    have hno : onlyFaulty (.plane n cord .o) v = false :=
      onlyFaulty_of_elem (e := .cord cord) (by simp [Xp.elems]) (by simpa [hv, lineSearchFailed, h.fls] using b.sound)
    simp [operatedXps, hcall, hno]
  rw [← hv] at hexec
  obtain ⟨w, hw⟩ : ∃ w, w = setOcc (.cord cord) .releasing (place o.call (.release (.plane n cord .o))
      (modCall o.call (fun c => { c with
        xps := setXp (.plane n cord .o) .releasing c.xps
        op := .originBack again, opFailed := false, yielded := false }) v)) :=
    ⟨_, rfl⟩
  have e : originEnd o.call again v = w := by
    have hel : (call o.call v).elems = [.cord cord] := by
      simp [hcall, Call.elems, ElemSet.elems, b.oldSet, b.newSet]
    have hline : (call o.call v).lineOrigin.isNone = false := by simp [hcall, Call.lineOrigin, b.origin]
    have hfail : (call o.call v).opFailed = true := by rw [hcall]
    have hrel : releasingElem o.call (.cord cord) (placeRelease o.call (.plane n cord .o) v) = true := by
      simp [releasingElem, ordersOf, placeRelease, Xp.elems]
    unfold originEnd
    simp only [hfail, hline, hxs, hel, List.foldl_cons, List.foldl_nil, releaseElem, hrel, Bool.not_true,
      Bool.false_eq_true, if_false, if_true, List.cons_ne_nil]
    simp [hw, beginOp, placeRelease, setOcc, hvt.calls]
  have hmaint : noticesDue .maint w = noticesDue .maint s.part ++
      [.maint .elementFaulty 0 ([b8 0] ++ b16 n ++ [b8 o.call])] := by
    refine (noticesDue_congr (s := v) (by simp [hw, setOcc])).trans ?_
    rw [hv, lineSearchFailed, noticesDue_enter]
    exact congrArg (· ++ _) (noticesDue_congr (by simp))
  rw [e] at hexec
  refine ⟨_, hexec, rfl, ?_⟩
  simp only [hw, hv, lineSearchFailed, setOcc]
  refine ⟨?_, ?_, fun x hx => ?_, ?_, fun x => ?_, ?_⟩
  · simpa only [hw, hv, lineSearchFailed, setOcc] using hmaint
  · simp [h.calls, setXp]
  · simp [h.calls, hx]
  · simp
  · by_cases hx : x = .cord cord <;> simp [hx, h.fls, h.cords]
  · rfl

/-- A FAULTY frame link, and a cord given up. -/
def spoiltAndFreed (n cord : Nat) (s : Part) : Part :=
  modElem (.cord cord) Element.freed (modElem (.fl n) Element.spoilt s)

/-- What a failed attempt of a line's origin search comes to before its end, when nothing of it is left operated. -/
structure SearchCleared (o : Order) (n cord : Nat) (s t : Part) : Prop where
  tables : TablesOk t
  record : call o.call t =
    { call o.call s with
      set := {}, xps := [], opFailed := true
      lastO := some (point (2048 + cord) s), lastT := some (point (2144 + cord) s) }
  others : ∀ x, x ≠ o.call → call x t = call x s
  net : t.net = (spoiltAndFreed n cord s).net
  orders : t.orders = s.orders.filter (fun x => decide (x.id ≠ o.id))
  orig : t.orig = { s.orig with
    request :=
      if avail (.cord cord) (spoiltAndFreed n cord s) then
        (chooseWork (spoiltAndFreed n cord s)).map (Work.worst (spoiltAndFreed n cord s))
      else s.orig.request }
  told : noticesDue .maint t = noticesDue .maint s ++ [.maint .elementFaulty 0 ([b8 0] ++ b16 n ++ [b8 o.call])]
  frame : t = { s with orders := t.orders, calls := t.calls, net := t.net, orig := t.orig, m.io := t.m.io }

theorem LineSearchFails.cleared {o : Order} {i : Instr} {lt n cord : Nat} {again : Bool} {s : State} {x : Xp}
    (b : LineSearchFails o i lt cord again s) (ha : o.act = .operate x)
    (hx : (x = .plane n cord .o ∧ (call o.call s.part).set = { fl := some n, cord := some cord } ∧
          callOfElem (.fl n) s.part = some o.call ∧
          (call o.call s.part).xps = [(.line lt n, .operated), (x, .operating)]) ∨
        ((x = .line lt n ∨ x = .plane n cord .o) ∧ (call o.call s.part).set = { cord := some cord } ∧
          callOfElem (.fl n) s.part = none ∧ (call o.call s.part).xps = [(x, .operating)])) :
    ∃ t, SearchCleared o n cord s.part t ∧ exec i s = .next { s with part := originRetry o.call again t } := by
  have h := b.tables
  have hb : x.blame = .fl n := by rcases hx with ⟨rfl, -⟩ | ⟨rfl | rfl, -⟩ <;> rfl
  have hexec := b.exec_eq (n := n) (l := []) ha hb
    (hx.imp (fun hx => ⟨hx.2.1, hx.2.2.1⟩) fun hx => ⟨hx.2.1, hx.2.2.1⟩) (by
      rcases hx with ⟨rfl, -, -, hxps⟩ | ⟨-, -, -, hxps⟩
      · simp [hxps, listed, onlyFaulty, Xp.elems, h.fls, Element.spoilt]
      · simp [hxps])
  obtain ⟨v, hv⟩ : ∃ v, v = lineSearchFailed o n cord [] s.part := ⟨_, rfl⟩
  have hvt : TablesOk v := hv ▸ tablesOk_lineSearchFailed h _ _ _ _
  have hcall : call o.call v =
      { call o.call s.part with set := { cord := some cord }, xps := [], opFailed := true } := by
    simp [hv, lineSearchFailed, h.calls]
  have hvo : ordersOf o.call v = [] :=
    (ordersOf_congr (by simp [hv, lineSearchFailed])).trans (ordersOf_removeOrder b.alone)
  have hp : ∀ p, point p v = point p s.part := fun p => by simp [hv, lineSearchFailed]
  rw [← hv] at hexec
  obtain ⟨w, hw, hfree⟩ := freeElem_cord (id := o.call) (cord := cord) hvt (by rw [hcall])
  rw [hp, hp] at hw
  have hnet : w.net = (spoiltAndFreed n cord s.part).net := by
    rw [hw, hv]
    rfl
  have horig : w.orig = s.part.orig := by
    rw [hw, hv]
    rfl
  have hcw : call o.call w = { call o.call s.part with
      set := {}, xps := [], opFailed := true
      lastO := some (point (2048 + cord) s.part), lastT := some (point (2144 + cord) s.part) } := by
    simp [hw, hvt.calls, hcall, Call.without, ElemSet.without, b.oldSet, b.newSet]
  have hco : ∀ x, x ≠ o.call → call x w = call x s.part := fun x hx => by
    simp [hw, hv, lineSearchFailed, h.calls, hx]
  have hfr : ∀ x, call x (spoiltAndFreed n cord s.part) = call x s.part := fun x => by simp [spoiltAndFreed]
  have htj : (call o.call s.part).set.tjunction = none := by
    rcases hx with ⟨-, hs, -⟩ | ⟨-, hs, -⟩ <;> rw [hs]
  have hwork : SameWork (spoiltAndFreed n cord s.part) w := {
    net := hnet
    rehunts := congrArg OrigServer.rehunts horig
    queue := congrArg OrigServer.queue horig
    pointer := congrArg OrigServer.pointer horig
    timers := by rw [hw, hv]; rfl
    cal := by rw [hw, hv]; rfl
    present := fun c => by rw [hw, hv]; cases c <;> rfl
    term := fun x => by
      by_cases hx : x = o.call
      · rw [hx, hcw, hfr]
      · rw [hco x hx, hfr]
    tjunction := fun x => by
      by_cases hx : x = o.call
      · rw [hx, hcw, hfr, htj]
      · rw [hco x hx, hfr]
    origin := fun x => by
      by_cases hx : x = o.call
      · rw [hx, hcw, hfr]
      · rw [hco x hx, hfr]
    state := fun x => by
      by_cases hx : x = o.call
      · rw [hx, hcw, hfr]
      · rw [hco x hx, hfr] }
  have hav := avail_congr hnet (.cord cord)
  have e : originEnd o.call again v = originRetry o.call again (if avail (.cord cord) w then retry w else w) := by
    have hel : (call o.call v).elems = [.cord cord] := by
      simp [hcall, Call.elems, ElemSet.elems, b.oldSet, b.newSet]
    have hline : (call o.call v).lineOrigin.isNone = false := by simp [hcall, Call.lineOrigin, b.origin]
    have hfail : (call o.call v).opFailed = true := by rw [hcall]
    have hxs : operatedXps o.call v = [] := by simp [operatedXps, hcall]
    have hrel : releasingElem o.call (.cord cord) v = false := releasingElem_of_alone hvo _
    unfold originEnd
    simp [hfail, hline, hxs, hel, releaseElem, hrel, hfree]
  rw [e] at hexec
  refine ⟨_, ?_, hexec⟩
  have hmaint : noticesDue .maint w = noticesDue .maint s.part ++
      [.maint .elementFaulty 0 ([b8 0] ++ b16 n ++ [b8 o.call])] := by
    refine (noticesDue_congr (s := v) (by simp [hw])).trans ?_
    rw [hv, lineSearchFailed, noticesDue_enter]
    exact congrArg (· ++ _) (noticesDue_congr (by simp))
  have hwt : TablesOk w := hw ▸ (hvt.modCall _ _).modElem _ _
  have hord : w.orders = s.part.orders.filter (fun x => decide (x.id ≠ o.id)) := by simp [hw, hv, lineSearchFailed]
  have hframe : w = { s.part with
      orders := w.orders, calls := w.calls, net := w.net, orig := w.orig, m.io := w.m.io } := by
    rw [hw, hv]
    rfl
  have hreq := hwork.request
  split
  · next ha =>
    exact ⟨hwt.retry, hcw, hco, hnet, hord, by simp [retry, horig, ← hav, ha, hreq],
      (noticesDue_congr (by simp)).trans hmaint, by rw [hframe]; rfl⟩
  · next ha =>
    exact ⟨hwt, hcw, hco, hnet, hord, by simp [horig, ← hav, ha], hmaint, hframe⟩

/-- The elements of an origin path are taken. -/
def pathTaken (m c : Nat) (s : Part) : Part := reserve (.cord c) (reserve (.fl m) s)

theorem pathTaken_frame (m c : Nat) (s : Part) :
    pathTaken m c s = { s with
      net.fls := (pathTaken m c s).net.fls, net.cords := (pathTaken m c s).net.cords
      scan.points := (pathTaken m c s).scan.points } := rfl

theorem point_pathTaken (h : TablesOk s) (m c p : Nat) :
    point p (pathTaken m c s) =
      if p = 2048 + c ∨ p = 2144 + c ∨ p = 2240 + c then {} else point p s := by
  obtain ⟨v, hv⟩ : ∃ v, v = setOcc (.cord c) .reserved (setOcc (.fl m) .reserved s) := ⟨_, rfl⟩
  have hvt : TablesOk v := hv ▸ (h.modElem _ _).modElem _ _
  have hp : point p v = point p s := by simp [hv, setOcc]
  have e : pathTaken m c s = modPoint (2240 + c) (fun _ => {}) (modPoint (2144 + c) (fun _ => {})
      (modPoint (2048 + c) (fun _ => {}) v)) := by
    rw [hv]
    rfl
  rw [e, point_modPoint_eq _ _ _ ((hvt.modPoint _ _).modPoint _ _).points,
    point_modPoint_eq _ _ _ (hvt.modPoint _ _).points, point_modPoint_eq _ _ _ hvt.points, hp]
  grind

/-- What an origin search of a line brings about on the path it has found, from frame link `m`, the `k`th of its
frame, to cord `c`. -/
def searchPlaced (id lt m k c : Nat) (again : Bool) (s : Part) : Part :=
  placeOperate id (.plane m c .o) (placeOperate id (.line lt m)
    (modCall id (fun r => { r with set := { fl := some m, cord := some c } })
      (beginOp id (.origin again)
        (modFrame (lt / 64) (fun r => { r with hunt := (k + 1) % 12 }) (pathTaken m c s)))))

theorem originSearch_line {id lt k c : Nat} {again : Bool} (ho : (call id s).origin = some (.line lt))
    (hf : findOriginPath (lt / 64) s = some (k, c)) :
    originSearch id again s = searchPlaced id lt (12 * (lt / 64) + k) k c again s := by
  unfold originSearch
  simp only [ho]
  rw [show lineFrame lt = lt / 64 from rfl, hf]
  rfl

theorem searchPlaced_frame (id lt m k c : Nat) (again : Bool) (s : Part) :
    searchPlaced id lt m k c again s = { s with
      orders := (searchPlaced id lt m k c again s).orders, serial := s.serial + 2
      calls := (searchPlaced id lt m k c again s).calls
      net := { (searchPlaced id lt m k c again s).net with
        lines := s.net.lines, routes := s.net.routes, junctions := s.net.junctions }
      scan.points := (searchPlaced id lt m k c again s).scan.points } := by
  obtain ⟨u, hu⟩ : ∃ u, u = pathTaken m c s := ⟨_, rfl⟩
  have h1 := hu.trans (pathTaken_frame m c s)
  have h2 : searchPlaced id lt m k c again s = { u with
      orders := (searchPlaced id lt m k c again s).orders, serial := u.serial + 2
      calls := (searchPlaced id lt m k c again s).calls
      net.frames := (searchPlaced id lt m k c again s).net.frames } := by
    unfold searchPlaced
    rw [← hu]
    rfl
  rw [h1] at h2
  rw [h2]

/-- The clause of O55 on a line's origin search that is retried. -/
theorem failed_search_retry {s : State} {o : Order} {t : Part} {lt n cord k c : Nat}
    (b : SearchCleared o n cord s.part t)
    (ho : (call o.call s.part).origin = some (.line lt))
    (hf : findOriginPath (lt / 64) (spoiltAndFreed n cord s.part) = some (k, c)) :
    let m := 12 * (lt / 64) + k
    let u := originRetry o.call false t
    let freed := spoiltAndFreed n cord s.part
    noticesDue .maint u = noticesDue .maint s.part ++
        [.maint .elementFaulty 0 ([b8 0] ++ b16 n ++ [b8 o.call])] ∧
      call o.call u =
        { call o.call s.part with
          set := { fl := some m, cord := some c }
          xps := [(.line lt m, .operating), (.plane m c .o, .operating)]
          op := .origin true, opFailed := false, yielded := false
          lastO := some (point (2048 + cord) s.part), lastT := some (point (2144 + cord) s.part) } ∧
      (∀ x, x ≠ o.call → call x u = call x s.part) ∧
      u.orders = s.part.orders.filter (fun x => decide (x.id ≠ o.id)) ++
        [{ id := s.part.serial, call := o.call, act := .operate (.line lt m) },
          { id := s.part.serial + 1, call := o.call, act := .operate (.plane m c .o) }] ∧
      (∀ e, elem e u =
        if e = .fl m ∨ e = .cord c then { elem e freed with occ := .reserved } else elem e freed) ∧
      (∀ f, frame f u =
        if f = lt / 64 then { frame f s.part with hunt := (k + 1) % 12 } else frame f s.part) ∧
      (∀ p, point p u =
        if p = 2048 + c ∨ p = 2144 + c ∨ p = 2240 + c then {} else point p s.part) ∧
      u.orig = { s.part.orig with
        request :=
          if avail (.cord cord) freed then (chooseWork freed).map (Work.worst freed)
          else s.part.orig.request } ∧
      u = { s.part with
        orders := u.orders, serial := s.part.serial + 2, calls := u.calls
        net := { u.net with
          lines := s.part.net.lines, routes := s.part.net.routes, junctions := s.part.net.junctions }
        scan.points := u.scan.points, orig := u.orig, m.io := u.m.io } := by
  intro m u freed
  have hb := b.tables
  have e : u = searchPlaced o.call lt m k c true t :=
    originSearch_line (by rw [b.record]; exact ho) ((findOriginPath_congr b.net _).trans hf)
  have hserial : t.serial = s.part.serial := by rw [b.frame]
  have helem : ∀ x, elem x t = elem x freed := elem_congr b.net
  have hframe : ∀ x, frame x t = frame x s.part := fun x => frame_congr (congrArg Net.frames b.net) x
  have hpoint : ∀ p, point p t = point p s.part := fun p => point_congr (by rw [b.frame]) p
  simp only [e]
  refine ⟨?_, ?_, fun x hx => ?_, ?_, fun x => ?_, fun f => ?_, fun p => ?_, ?_, ?_⟩
  · refine (noticesDue_congr (s := t) ?_).trans b.told
    simp [searchPlaced, pathTaken, placeOperate, beginOp, reserve, setOcc, resetPoint]
  · simp [searchPlaced, pathTaken, placeOperate, beginOp, reserve, setOcc, resetPoint, hb.calls, b.record, setXp]
  · simp [searchPlaced, pathTaken, placeOperate, beginOp, reserve, setOcc, resetPoint, hb.calls, hx, b.others]
  · simp [searchPlaced, pathTaken, placeOperate, beginOp, reserve, setOcc, resetPoint, b.orders, hserial]
  · by_cases h1 : x = .fl m <;> by_cases h2 : x = .cord c <;>
      simp_all [searchPlaced, pathTaken, placeOperate, beginOp, reserve, setOcc, resetPoint, hb.fls, hb.cords]
  · by_cases hf : f = lt / 64 <;>
      simp [searchPlaced, pathTaken, placeOperate, beginOp, reserve, setOcc, resetPoint, hb.frames, hframe, hf]
  · refine Eq.trans ?_ ((point_pathTaken hb m c p).trans (by rw [hpoint]))
    simp [searchPlaced, placeOperate, beginOp]
  · exact b.orig
  · have hl : t.net.lines = s.part.net.lines := (congrArg Net.lines b.net).trans rfl
    have hr : t.net.routes = s.part.net.routes := (congrArg Net.routes b.net).trans rfl
    have hj : t.net.junctions = s.part.net.junctions := (congrArg Net.junctions b.net).trans rfl
    rw [← hl, ← hr, ← hj]
    have g := searchPlaced_frame o.call lt m k c true t
    generalize searchPlaced o.call lt m k c true t = w at g ⊢
    have ho : w.orig = t.orig := (congrArg Part.orig g).trans rfl
    have hio : w.m.io = t.m.io := (congrArg (fun p : Part => p.m.io) g).trans rfl
    rw [ho, hio]
    refine g.trans ?_
    rw [b.frame]

/-- The origin of a failed search joins the wait queue, or is marked where the queue is full (R51). -/
def placedAgain (lt : Nat) (s : Part) : Part :=
  if s.orig.queue.length < 64 then
    { s with orig.queue := s.orig.queue ++
      [{ origin := .line lt, wait := 0, limit := 10 * s.timers.waitLimit }] }
  else modLine lt (fun l => { l with marked := true }) s

theorem placeAgain_line {lt : Nat} (ha : (line lt s).admin = .inService) (hp : (line lt s).pendCls = none)
    (hc : (line lt s).cls ≠ .unequipped) : placeAgain (.line lt) s = placedAgain lt s := by
  have hs : settleClass lt s = s := by simp [settleClass, hp]
  simp [placeAgain, ha, hs, Line.out, hc, placedAgain, Config.waitPlaces]

theorem placedAgain_frame (lt : Nat) (s : Part) : placedAgain lt s = { s with
    net.lines := (placedAgain lt s).net.lines, orig.queue := (placedAgain lt s).orig.queue } := by
  unfold placedAgain
  split <;> rfl

theorem queue_placedAgain (lt : Nat) (s : Part) : (placedAgain lt s).orig.queue =
    if s.orig.queue.length < 64 then
      s.orig.queue ++ [{ origin := .line lt, wait := 0, limit := 10 * s.timers.waitLimit }]
    else s.orig.queue := by
  unfold placedAgain
  split <;> rfl

theorem line_placedAgain (h : TablesOk s) (lt x : Nat) : line x (placedAgain lt s) =
    if x = lt ∧ 64 ≤ s.orig.queue.length then { line x s with marked := true } else line x s := by
  unfold placedAgain
  split
  · next hq => exact (if_neg fun h => absurd h.2 (Nat.not_le.mpr hq)).symm
  · next hq => by_cases hx : x = lt <;> simp [hx, h.lines, Nat.not_lt.mp hq]

theorem TablesOk.placedAgain (h : TablesOk s) (lt : Nat) : TablesOk (placedAgain lt s) := by
  unfold Machine.placedAgain
  split
  · exact { h with }
  · exact h.modLine _ _

/-- The clause of O55 on a line's origin search that ends CONGESTED. -/
theorem failed_search_congested {s : State} {o : Order} {t : Part} {lt n cord : Nat} {again : Bool}
    (b : SearchCleared o n cord s.part t) (ho : (call o.call s.part).origin = some (.line lt)) (hlt : lt < 2048)
    (hf : again = true ∨ findOriginPath (lt / 64) (spoiltAndFreed n cord s.part) = none)
    (hheld : (call o.call s.part).originHeld = true) (hadm : (line lt s.part).admin = .inService)
    (hpend : (line lt s.part).pendCls = none) (hcls : (line lt s.part).cls ≠ .unequipped)
    (hopen : (point lt s.part).accepted = .open_ → (line lt s.part).sup = .originating ∧
      ∀ x, x ≠ o.call → (call x s.part).namesParty (.line lt) = false) :
    let u := originRetry o.call again t
    let freed := spoiltAndFreed n cord s.part
    noticesDue .maint u = noticesDue .maint s.part ++
        [.maint .elementFaulty 0 ([b8 0] ++ b16 n ++ [b8 o.call])] ∧
      call o.call u = {} ∧ (∀ x, x ≠ o.call → call x u = call x s.part) ∧
      u.orders = s.part.orders.filter (fun x => decide (x.id ≠ o.id)) ∧ (∀ e, elem e u = elem e freed) ∧
      (∀ x, line x u =
        if x = lt ∧ 64 ≤ s.part.orig.queue.length then { line x s.part with marked := true }
        else line x s.part) ∧
      (∀ p, point p u = if p = lt then { point p s.part with pending := none } else point p s.part) ∧
      u.orig = { s.part.orig with
        queue :=
          if s.part.orig.queue.length < 64 then
            s.part.orig.queue ++ [{ origin := .line lt, wait := 0, limit := 10 * s.part.timers.waitLimit }]
          else s.part.orig.queue
        request := (chooseWork u).map (Work.worst u) } ∧
      u = { s.part with
        orders := s.part.orders.filter (fun x => decide (x.id ≠ o.id)), calls := u.calls
        net := { u.net with
          frames := s.part.net.frames, routes := s.part.net.routes, junctions := s.part.net.junctions }
        scan.points := u.scan.points, orig := u.orig, m.io := u.m.io } := by
  intro u freed
  have hb := b.tables
  have hline : ∀ x, line x t = line x s.part := fun x => line_congr (congrArg Net.lines b.net) x
  have helem : ∀ x, elem x t = elem x freed := elem_congr b.net
  have hpoint : ∀ p, point p t = point p s.part := fun p => point_congr (by rw [b.frame]) p
  have htimers : t.timers = s.part.timers := by rw [b.frame]
  have hqueue : t.orig.queue = s.part.orig.queue := by rw [b.orig]
  obtain ⟨v, hv⟩ : ∃ v, v = placedAgain lt (modCall o.call (fun _ => {}) t) := ⟨_, rfl⟩
  have hvt : TablesOk v := hv ▸ (hb.modCall _ _).placedAgain _
  have hvf : v = { modCall o.call (fun _ => {}) t with net.lines := v.net.lines, orig.queue := v.orig.queue } :=
    hv ▸ placedAgain_frame _ _
  have hvc : v.calls = (modCall o.call (fun _ => {}) t).calls := by rw [hvf]
  have hvp : ∀ p, point p v = point p s.part := fun p => by
    rw [point_congr (s := t) (by rw [hvf]; rfl), hpoint]
  have hvl : ∀ x, line x v = if x = lt ∧ 64 ≤ s.part.orig.queue.length then { line x s.part with marked := true }
      else line x s.part := fun x => by
    rw [hv, line_placedAgain (hb.modCall _ _)]
    simp [hline, hqueue]
  have hcall : ∀ x, call x v = if x = o.call then {} else call x s.part := fun x => by
    rw [call_congr hvc]
    by_cases hx : x = o.call <;> simp [hx, hb.calls, b.others]
  have hquiet : armed lt v = none := by
    by_cases ha : (point lt s.part).accepted = .open_
    · obtain ⟨hsup, hfree⟩ := hopen ha
      have hs : (line lt v).sup = .originating := by
        rw [hvl]
        split <;> exact hsup
      have hno : callOf (.line lt) v = none := by
        refine findCall_eq_none hvt.calls rfl fun x => ?_
        rw [hcall]
        split
        · rfl
        · next hx => exact hfree x hx
      simp only [armed, pointKind_line hlt, hs, hno]
      exact ite_self _
    · exact armed_line_of_ne hlt (by rw [hvp]; exact ha)
  have e : u = retry (modPoint lt (fun e => { e with pending := none }) v) := by
    have hor : (call o.call t).origin = some (.line lt) := by rw [b.record]; exact ho
    have hheld' : (call o.call t).originHeld = true := by rw [b.record]; exact hheld
    have h1 : u = congested o.call t := by
      cases again with
      | true => rfl
      | false =>
        have hno := (findOriginPath_congr b.net _).trans (hf.resolve_left (by decide))
        show originSearch o.call true t = _
        simp only [originSearch, hor, lineFrame, hno]
    rw [h1, ← watch_quiet hvt hquiet]
    simp only [congested, hor, hheld', if_true]
    rw [placeAgain_line (by simpa [hline] using hadm) (by simpa [hline] using hpend) (by simpa [hline] using hcls),
      ← hv]
    rfl
  have hwt : TablesOk (modPoint lt (fun e => { e with pending := none }) v) := hvt.modPoint _ _
  have hio : io .maint v = io .maint t := by rw [hvf]; rfl
  rw [e]
  refine ⟨?_, ?_, fun x hx => ?_, ?_, fun x => ?_, fun x => ?_, fun p => ?_, ?_, ?_⟩
  · exact (noticesDue_congr (by simpa using hio)).trans b.told
  · simp [hcall]
  · simp [hcall, hx]
  · rw [← b.orders, hvf]
    rfl
  · rw [← helem, hvf]
    cases x <;> rfl
  · simp [hvl]
  · rw [point_retry, point_modPoint_eq _ _ _ hvt.points]
    by_cases hp : p = lt <;> simp [hp, hvp]
  · have hvq : v.orig.queue = if s.part.orig.queue.length < 64 then
        s.part.orig.queue ++ [{ origin := .line lt, wait := 0, limit := 10 * s.part.timers.waitLimit }]
        else s.part.orig.queue := by
      rw [hv, queue_placedAgain]
      simp [hqueue, htimers]
    have ho : v.orig = { t.orig with queue := v.orig.queue } := by
      rw [hvf]
      rfl
    have hr : ∀ q : Part, (retry q).orig = { q.orig with request := (retry q).orig.request } := fun _ => rfl
    rw [← retry_request, hr, modPoint_orig, ho, b.orig, hvq]
  · have hl : ∀ q : Part, retry (modPoint lt (fun e => { e with pending := none }) q) = { q with
        scan.points := (retry (modPoint lt (fun e => { e with pending := none }) q)).scan.points
        orig := (retry (modPoint lt (fun e => { e with pending := none }) q)).orig } := fun _ => rfl
    have hf' : t.net.frames = s.part.net.frames := (congrArg Net.frames b.net).trans rfl
    have hr : t.net.routes = s.part.net.routes := (congrArg Net.routes b.net).trans rfl
    have hj : t.net.junctions = s.part.net.junctions := (congrArg Net.junctions b.net).trans rfl
    have g := hl v
    generalize retry (modPoint lt (fun e => { e with pending := none }) v) = w at g ⊢
    rw [hvf, b.frame] at g
    rw [← hf', ← hr, ← hj, ← b.orders, g]
    rfl

end Sys2Proof.Machine
end

section
/-!
PROOFS. A junctor crosspoint fails: the junction becomes FAULTY and leaves its call (R5, R25, R38).
-/

namespace Sys2Proof.Machine

variable {s t : Part}

/-! ## A FAULTY junction -/

theorem modJunction_modJunction (j : Nat) (f g : Junction → Junction) (h : Table.wf {} s.net.junctions = true) :
    modJunction j g (modJunction j f s) = modJunction j (fun r => g (f r)) s := by
  have e : junction j (modJunction j f s) = f (junction j s) := Table.get_put_same h
  unfold modJunction at e ⊢
  dsimp only
  rw [e, Table.put_put_of_wf h]

theorem modJunction_self (j : Nat) (f : Junction → Junction) (h : Table.wf {} s.net.junctions = true)
    (e : f (junction j s) = junction j s) : modJunction j f s = s := by
  unfold modJunction
  rw [e, junction, Table.put_get h]

theorem modCall_disarm (id : Nat) (f : Call → Call) (ps : List Nat) :
    modCall id f (disarm ps s) = disarm ps (modCall id f s) := by
  induction ps generalizing s with
  | nil => rfl
  | cons p ps ih => exact ih

theorem modJunction_disarm (j : Nat) (f : Junction → Junction) (ps : List Nat) :
    modJunction j f (disarm ps s) = disarm ps (modJunction j f s) := by
  induction ps generalizing s with
  | nil => rfl
  | cons p ps ih => exact ih

/-- A junction that has become FAULTY while it was not in outgoing use. -/
def Junction.withdrawn (r : Junction) : Junction :=
  { r with sup := .idle, marked := false, elem := r.elem.spoilt }

/-- A junction that is not FREE becomes IDLE without a pending change taken, and without a queue entry if it
had none. -/
theorem idleJunction_of_used (h : TablesOk s) {j : Nat} (hf : (junction j s).elem.occ ≠ .free)
    (hq : ∀ w ∈ s.orig.queue, w.origin ≠ .junction j) :
    idleJunction j s = disarm [2336 + j] (modJunction j (fun r => { r with sup := .idle, marked := false }) s) := by
  rw [idleJunction_eq h, dequeue_of_absent (by simpa using hq),
    modJunction_self j Junction.settled (wf_modJunction _ _ h.junctions)]
  · rfl
  · exact settled_of_used (by simpa [h.junctions] using hf)

/-- An ORIGINATING junction that is FAULTY leaves its call IDLE (R25, R38). -/
theorem leaveJunction_faulty (h : TablesOk s) {j : Nat} (hf : (junction j s).elem.occ = .faulty)
    (hs : (junction j s).sup = .originating) :
    leaveJunction j s = disarm [2336 + j] (modJunction j (fun r => { r with sup := .idle, marked := false }) s) := by
  have hset : settleJunction j (modJunction j (fun r => { r with sup := .idle, marked := false }) s) =
      modJunction j (fun r => { r with sup := .idle, marked := false }) s := by
    rw [settleJunction_eq, modJunction_self j Junction.settled (wf_modJunction _ _ h.junctions)]
    exact settled_of_used (by simp [h.junctions, hf])
  unfold leaveJunction
  simp only [hs, hf, ne_eq, not_true_eq_false, and_false, decide_false, Bool.false_eq_true, if_false]
  rw [hset, junctionPoint, rearm_eq, armed_junction_idle (by simp [h.junctions])]
  rfl

/-- An IDLE junction that is FAULTY leaves its call as it is, with no event armed. -/
theorem leaveJunction_idle (h : TablesOk s) {j : Nat} (hf : (junction j s).elem.occ = .faulty)
    (hs : (junction j s).sup = .idle) : leaveJunction j s = disarm [2336 + j] s := by
  have hset : settleJunction j s = s := by
    rw [settleJunction_eq, modJunction_self j Junction.settled h.junctions]
    exact settled_of_used (by simp [hf])
  unfold leaveJunction
  simp only [hs]
  rw [hset, junctionPoint, rearm_eq, armed_junction_idle hs]
  rfl

/-- A crosspoint order has failed (R5, R79) whose element is one of the call's, given what the leaving of the element's
parties comes to. -/
theorem crosspointFailed_of_left {id : Nat} {x : Xp} {e : ElemId} {L : Part} {l : List (Xp × XpState)}
    (h : TablesOk s) (hm : MaintRoom s) (hb : x.blame = e) (hc : callOfElem e s = some id)
    (hL : leaveFaulty id e (modElem e Element.spoilt (dropXp id x s)) = L) (hLt : Table.wf {} L.calls = true)
    (hLm : L.m = s.m) (hl : (call id L).xps.filter (listed L) = l) :
    crosspointFailed id x s =
      enter .maint (.maint .elementFaulty 0 (faultyFields e ++ [b8 id]))
        (modCall id (fun _ => { (call id L).without e with xps := l, opFailed := true }) L) := by
  have hcu : callOfElem e (modElem e Element.spoilt (dropXp id x s)) = some id := by
    rw [callOfElem_modElem]
    exact (callOfElem_of_call (id := id) h.calls (h.modCall _ _).calls _ (fun y hy => by simp [hy, h.calls])
      (by simp [h.calls]; rfl) (by simp [h.calls]; rfl)).trans hc
  have hroom : ∀ g, MaintRoom (modCall id g L) := fun g => maintRoom_congr (by rw [modCall_m, hLm]) hm
  have e1 : markFaulty id e (dropXp id x s) = raiseMaint .elementFaulty (faultyFields e ++ [b8 id])
      (dropFaulty id (dropFaulty id (modCall id (Call.without e) L))) := by
    have e0 : markFaulty id e (dropXp id x s) = raiseMaint .elementFaulty (faultyFields e ++ [b8 id])
        (dropFaulty id (match callOfElem e (modElem e Element.spoilt (dropXp id x s)) with
          | none => modElem e Element.spoilt (dropXp id x s)
          | some holder => dropFaulty holder (modCall holder (Call.without e)
            (leaveFaulty holder e (modElem e Element.spoilt (dropXp id x s)))))) := rfl
    rw [e0, hcu]
    simp only [hL]
  unfold crosspointFailed
  rw [hb, e1, dropFaulty_modCall hLt, dropFaulty_modCall hLt, raiseMaint_enters (hroom _), modCall_enter,
    modCall_modCall _ _ _ hLt]
  refine congrArg _ (modCall_congr ?_)
  rw [← hl, List.filter_filter]
  simp only [Bool.and_self]
  rfl

/-- A crosspoint order whose junction is blamed has failed (R5, R79), given what the junction's leaving comes to. -/
theorem crosspointFailed_junction {id j : Nat} {x : Xp} {f g : Call → Call} {ps : List Nat} {l : List (Xp × XpState)}
    (h : TablesOk s) (hm : MaintRoom s) (hb : x.blame = .junction j) (hc : callOfElem (.junction j) s = some id)
    (hL : leaveFaulty id (.junction j) (modElem (.junction j) Element.spoilt (dropXp id x s)) =
      disarm ps (modJunction j Junction.withdrawn (modCall id f (dropXp id x s))))
    (hl : (f { call id s with xps := (call id s).xps.filter (fun y => decide (y.1 ≠ x)) }).xps.filter
      (listed (modElem (.junction j) Element.spoilt s)) = l)
    (hg : { Call.without (.junction j)
          (f { call id s with xps := (call id s).xps.filter (fun y => decide (y.1 ≠ x)) }) with
        xps := l, opFailed := true } = g (call id s)) :
    crosspointFailed id x s =
      enter .maint (.maint .elementFaulty 0 ([b8 1] ++ b16 j ++ [b8 id]))
        (disarm ps (modJunction j Junction.withdrawn (modCall id g s))) := by
  obtain ⟨L, hLe⟩ : ∃ L, L = disarm ps (modJunction j Junction.withdrawn (modCall id f (dropXp id x s))) := ⟨_, rfl⟩
  have hLt : TablesOk L := hLe ▸ (((h.modCall _ _).modCall _ _).modJunction _ _).disarm _
  have hcall : call id L = f { call id s with xps := (call id s).xps.filter (fun y => decide (y.1 ≠ x)) } := by
    simp [hLe, dropXp, h.calls]
  have hlisted : listed L = listed (modElem (.junction j) Element.spoilt s) := by
    have he : ∀ e, elem e L = elem e (modElem (.junction j) Element.spoilt s) := fun e => by
      cases e with
      | junction k => by_cases hk : k = j <;> simp [hLe, dropXp, h.junctions, Junction.withdrawn, hk]
      | fl n => simp [hLe, dropXp]
      | cord n => simp [hLe, dropXp]
    funext y
    unfold listed
    rw [onlyFaulty_congr he]
  have hLm : L.m = s.m := by
    rw [hLe, disarm_eq]
    rfl
  rw [crosspointFailed_of_left (l := l) h hm hb hc (hL.trans hLe.symm) hLt.calls hLm
    (by rw [hcall, hlisted]; exact hl)]
  refine congrArg _ ((modCall_congr (g := fun _ => g (call id s)) (by rw [hcall, ← hg])).trans ?_)
  rw [hLe, modCall_disarm, modCall_modJunction, dropXp, modCall_modCall _ _ _ (h.modCall _ _).calls,
    modCall_modCall _ _ _ h.calls]
  exact congrArg _ (congrArg _ (modCall_congr rfl))

theorem disarm_disarm (ps qs : List Nat) : disarm ps (disarm qs s) = disarm (qs ++ ps) s := (List.foldl_append ..).symm

/-- The origin junction of a call, ORIGINATING, becomes FAULTY: it leaves the call. -/
theorem leaveFaulty_origin (h : TablesOk s) {id j : Nat} (ho : (call id s).origin = some (.junction j))
    (hheld : (call id s).originHeld = true) (ht : (call id s).term = none) (hs : (junction j s).sup = .originating)
    (hq : ∀ w ∈ s.orig.queue, w.origin ≠ .junction j) :
    leaveFaulty id (.junction j) (modElem (.junction j) Element.spoilt s) =
      disarm [2336 + j, 2336 + j]
        (modJunction j Junction.withdrawn (modCall id (fun c => { c with originHeld := false }) s)) := by
  obtain ⟨u, hu⟩ : ∃ u, u = modElem (.junction j) Element.spoilt s := ⟨_, rfl⟩
  have hut : TablesOk u := hu ▸ h.modElem _ _
  have huj : junction j u = { junction j s with elem := (junction j s).elem.spoilt } := by simp [hu, h.junctions]
  have hcall : call id u = call id s := by simp [hu]
  have hqu : u.orig.queue = s.orig.queue := by rw [hu]; rfl
  rw [← hu]
  simp only [leaveFaulty, hcall, ho, ht, hheld, reduceCtorEq, if_false, and_self, if_true]
  rw [leaveJunction_faulty hut (by rw [huj]; rfl) (by rw [huj]; exact hs), modCall_disarm, idleJunction_of_used]
  · rw [modJunction_disarm, disarm_disarm, modCall_modJunction,
      modJunction_modJunction _ _ _ (hut.modCall _ _).junctions, hu, modElem_junction, modCall_modJunction,
      modJunction_modJunction _ _ _ (h.modCall _ _).junctions]
    rfl
  · exact (((hut.modJunction _ _).modCall _ _).disarm _)
  · simp [hut.junctions, huj, Element.spoilt]
  · simpa [hqu] using hq

/-- The last order of a junction's origin search, its OPERATE, fails. -/
structure JunctionSearchFails (o : Order) (i : Instr) (j cord : Nat) (again : Bool) (s : State) : Prop where
  tables : TablesOk s.part
  sent : dispatched o.act.unit s.part = some o
  instr : i = .driveConfirmation o.act.unit o.id false ∨ i = .driveTimeout o.act.unit o.id
  alone : ∀ x ∈ s.part.orders, x.call = o.call → x.id = o.id
  room : MaintRoom s.part
  kept : (call o.call s.part).relPending = false
  settled : (call o.call s.part).reswitch = false
  searching : (call o.call s.part).op = .origin again
  origin : (call o.call s.part).origin = some (.junction j)
  held : (call o.call s.part).originHeld = true
  noTerm : (call o.call s.part).term = none
  joined : (call o.call s.part).set = { junction := some j, cord := some cord }
  oldSet : (call o.call s.part).old = {}
  newSet : (call o.call s.part).new = {}
  act : o.act = .operate (.junctor j cord .o)
  listing : (call o.call s.part).xps = [(.junctor j cord .o, .operating)]
  named : callOfElem (.junction j) s.part = some o.call
  waiting : (junction j s.part).sup = .originating
  unqueued : ∀ w ∈ s.part.orig.queue, w.origin ≠ .junction j

/-- The clause of O55 on a junction's origin search. -/
theorem failed_junction_search {s : State} {o : Order} {i : Instr} {j cord : Nat} {again : Bool}
    (b : JunctionSearchFails o i j cord again s) :
    ∃ t, exec i s = .next t ∧ t.pending = s.pending ∧
      noticesDue .maint t.part = noticesDue .maint s.part ++
        [.maint .elementFaulty 0 ([b8 1] ++ b16 j ++ [b8 o.call])] ∧
      call o.call t.part = {} ∧ (∀ x, x ≠ o.call → call x t.part = call x s.part) ∧
      (∀ x, junction x t.part =
        if x = j then
          { junction x s.part with
            sup := .idle, marked := false, elem := (elem (.junction x) s.part).spoilt }
        else junction x s.part) ∧
      (∀ x, elem (.cord x) t.part =
        if x = cord then (elem (.cord x) s.part).freed else elem (.cord x) s.part) ∧
      (∀ p, point p t.part =
        if p = 2336 + j then { point p s.part with pending := none } else point p s.part) ∧
      t.part.orig = { s.part.orig with request := (chooseWork t.part).map (Work.worst t.part) } ∧
      t.part = { s.part with
        orders := s.part.orders.filter (fun x => decide (x.id ≠ o.id)), calls := t.part.calls
        net.junctions := t.part.net.junctions, net.cords := t.part.net.cords
        scan.points := t.part.scan.points, orig := t.part.orig, m.io := t.part.m.io } := by
  have h := b.tables
  obtain ⟨r, hr, hexec⟩ := exec_failed b.sent b.instr
  obtain ⟨v, hv⟩ : ∃ v, v = enter .maint (.maint .elementFaulty 0 ([b8 1] ++ b16 j ++ [b8 o.call]))
      (disarm [2336 + j, 2336 + j] (modJunction j Junction.withdrawn (modCall o.call
        (fun c => { c with originHeld := false, set := { cord := some cord }, xps := [], opFailed := true })
        (removeOrder o.id s.part)))) := ⟨_, rfl⟩
  have hcross : crosspointFailed o.call (.junctor j cord .o) (removeOrder o.id s.part) = v := by
    rw [hv]
    refine crosspointFailed_junction (f := fun c => { c with originHeld := false }) (l := []) (h.removeOrder _)
      (maintRoom_congr (removeOrder_m _ _) b.room) rfl (by simpa using b.named) ?_ ?_ ?_
    · refine leaveFaulty_origin ((h.removeOrder _).modCall _ _) ?_ ?_ ?_ ?_ ?_
      · simp [h.calls, b.origin]
      · simp [h.calls, b.held]
      · simp [h.calls, b.noTerm]
      · simp [b.waiting]
      · exact b.unqueued
    · simp [b.listing]
    · rw [Call.without_of_set (k := { cord := some cord }) (by simp [b.joined, ElemSet.without])
        (by simpa using b.oldSet) (by simpa using b.newSet)]
  have hvt : TablesOk v := hv ▸ ((((h.removeOrder _).modCall _ _).modJunction _ _).disarm _).enter _ _
  have hcall : call o.call v = { call o.call s.part with
      originHeld := false, set := { cord := some cord }, xps := [], opFailed := true } := by
    simp [hv, h.calls]
  have hvo : ordersOf o.call v = [] := (ordersOf_congr (by simp [hv])).trans (ordersOf_removeOrder b.alone)
  obtain ⟨w, hw, hfree⟩ := freeElem_cord (id := o.call) (cord := cord) hvt (by rw [hcall])
  obtain ⟨g, hg⟩ : ∃ g, g = if avail (.cord cord) w then retry w else w := ⟨_, rfl⟩
  have e : orderOutcome o r s.part = retry (modCall o.call (fun _ => {}) g) := by
    have hel : (call o.call v).elems = [.cord cord] := by
      simp [hcall, Call.elems, ElemSet.elems, b.oldSet, b.newSet]
    unfold orderOutcome
    rw [applyOutcome_operate hr b.act (by rw [hcross, hcall]; exact b.settled), hcross]
    have hfail : (call o.call v).opFailed = true := by rw [hcall]
    have hline : (call o.call v).lineOrigin.isNone = true := by simp [hcall, Call.lineOrigin, b.origin]
    have hop : operationStep o.call v = originEnd o.call again v := by
      simp [operationStep, hvo, hcall, b.kept, b.searching]
    rw [hop]
    simp [originEnd, hfail, hline, hel, freeRecord, hg, ← hfree]
  have hgf : g = { w with orig.request := g.orig.request } := by
    rw [hg]
    split <;> rfl
  have hwf : w = { v with calls := w.calls, net.cords := w.net.cords } := by
    rw [hw]
    rfl
  have hvf : v = { s.part with
      orders := s.part.orders.filter (fun x => decide (x.id ≠ o.id)), calls := v.calls
      net.junctions := v.net.junctions, scan.points := v.scan.points, m.io := v.m.io } := by
    rw [hv, disarm_eq]
    rfl
  have hgt : TablesOk g := by
    have hwt : TablesOk w := hw ▸ (hvt.modCall _ _).modElem _ _
    rw [hg]
    split
    · exact hwt.retry
    · exact hwt
  have hgc : ∀ x, x ≠ o.call → call x g = call x s.part := fun x hx => by
    rw [call_congr (s := w) (by rw [hgf])]
    simp [hw, hv, h.calls, hx]
  have hgj : ∀ x, junction x g = junction x v := fun x => junction_congr (by rw [hgf, hwf]) x
  have hge : ∀ x, elem (.cord x) g = elem (.cord x) w := fun x => elem_congr (by rw [hgf]) _
  have hgp : ∀ p, point p g = point p v := fun p => point_congr (by rw [hgf, hwf]) p
  have hgo : g.orig = { s.part.orig with request := g.orig.request } := by
    have ho : w.orig = s.part.orig := by rw [hwf, hvf]
    rw [← ho, hgf]
  have hmaint : noticesDue .maint g = noticesDue .maint s.part ++
      [.maint .elementFaulty 0 ([b8 1] ++ b16 j ++ [b8 o.call])] := by
    refine (noticesDue_congr (s := v) (by rw [hgf, hwf]; rfl)).trans ?_
    rw [hv, noticesDue_enter, noticesDue_disarm]
    exact congrArg (· ++ _) (noticesDue_congr (by simp))
  refine ⟨_, hexec, rfl, ?_⟩
  simp only [e]
  refine ⟨?_, ?_, fun x hx => ?_, fun x => ?_, fun x => ?_, fun p => ?_, ?_, ?_⟩
  · exact (noticesDue_congr (by simp)).trans hmaint
  · simp [hgt.calls]
  · simp [hx, hgc, hgt.calls]
  · simp only [junction_retry, junction_modCall, hgj, hv]
    by_cases hx : x = j <;> simp [hx, h.junctions, Junction.withdrawn]
  · simp only [elem_retry, elem_modCall, hge, hw, hv]
    by_cases hx : x = cord <;> simp [hx, h.cords]
  · simp only [point_retry, point_modCall, hgp, hv, point_enter]
    rw [point_disarm (by simpa using h.points)]
    simp
  · have ho : ∀ q : Part, (retry q).orig = { q.orig with request := (retry q).orig.request } := fun _ => rfl
    rw [← retry_request, ho, modCall_orig, hgo]
  · have hl : ∀ q : Part, retry (modCall o.call (fun _ => {}) q) = { q with
        calls := (retry (modCall o.call (fun _ => {}) q)).calls
        orig := (retry (modCall o.call (fun _ => {}) q)).orig } := fun _ => rfl
    have hq := hl g
    generalize retry (modCall o.call (fun _ => {}) g) = q at hq ⊢
    rw [hgf, hwf, hvf] at hq
    rw [hq]

end Sys2Proof.Machine
end

section
/-!
PROOFS. The last order of an extension fails (R70, R92).
-/

namespace Sys2Proof.Machine

variable {s t : Part}

/-! ## An extension to a line -/

/-- The last order of an extension to a line, the OPERATE of its line crosspoint, fails. -/
structure LineExtensionFails (o : Order) (i : Instr) (lo lt n m cord : Nat) (s : State) : Prop where
  tables : TablesOk s.part
  sent : dispatched o.act.unit s.part = some o
  instr : i = .driveConfirmation o.act.unit o.id false ∨ i = .driveTimeout o.act.unit o.id
  alone : ∀ x ∈ s.part.orders, x.call = o.call → x.id = o.id
  room : MaintRoom s.part
  kept : (call o.call s.part).relPending = false
  settled : (call o.call s.part).reswitch = false
  silent : (call o.call s.part).lineSpeaks = false
  act : o.act = .operate (.line lt n)
  extending : (call o.call s.part).op = .extension
  term : (call o.call s.part).term = some (.line lt)
  lineRange : lt < 2048
  cordRange : cord < 96
  apart : m ≠ n
  joined : (call o.call s.part).set = { fl := some m, cord := some cord, tfl := some n, ring := true }
  oldSet : (call o.call s.part).old = {}
  newSet : (call o.call s.part).new = {}
  listing : (call o.call s.part).xps =
    [(.line lo m, .operated), (.plane m cord .o, .operated), (.plane n cord .t, .operated), (.line lt n, .operating)]
  linkSound : (elem (.fl m) s.part).occ ≠ .faulty
  cordSound : (elem (.cord cord) s.part).occ ≠ .faulty
  linkNamed : callOfElem (.fl n) s.part = some o.call
  cordNamed : callOfElem (.cord cord) s.part = some o.call
  called : (line lt s.part).sup = .inCall o.call
  inService : (line lt s.part).admin = .inService
  noClass : (line lt s.part).pendCls = none

/-- The called line of a failed extension has left, its frame link FAULTY. -/
def calledLeft (o : Order) (lt n m cord : Nat) (l : List (Xp × XpState)) (s : Part) : Part :=
  modPoint (2144 + cord) (fun e => { e with pending := none })
    (modLine lt (Line.left (point (2144 + cord) s))
      (modPoint lt (fun _ => { point (2144 + cord) s with pulses := 0, pending := none })
        (modCall o.call
          (fun c => { c with
            term := none, set := { fl := some m, cord := some cord, ring := true }, xps := l, opFailed := true })
          (modElem (.fl n) Element.spoilt (removeOrder o.id s)))))

theorem LineExtensionFails.crosspointFailed_eq {o : Order} {i : Instr} {lo lt n m cord : Nat} {s : State}
    (b : LineExtensionFails o i lo lt n m cord s) :
    crosspointFailed o.call (.line lt n) (removeOrder o.id s.part) =
      enter .maint (.maint .elementFaulty 0 ([b8 0] ++ b16 n ++ [b8 o.call]))
        (calledLeft o lt n m cord
          [(.line lo m, .operated), (.plane m cord .o, .operated), (.plane n cord .t, .operated)] s.part) := by
  have h := b.tables
  obtain ⟨u, hu⟩ : ∃ u, u = modElem (.fl n) Element.spoilt (dropXp o.call (.line lt n) (removeOrder o.id s.part)) :=
    ⟨_, rfl⟩
  have hut : TablesOk u := hu ▸ ((h.removeOrder _).modCall _ _).modElem _ _
  have hcall : call o.call u = { call o.call s.part with
      xps := [(.line lo m, .operated), (.plane m cord .o, .operated), (.plane n cord .t, .operated)] } := by
    simp [hu, dropXp, h.calls, b.listing, b.apart]
  have hpoint : ∀ p, point p u = point p s.part := fun p => by simp [hu, dropXp]
  have hline : ∀ x, line x u = line x s.part := fun x => by simp [hu, dropXp]
  have hnamed : callOfElem (.cord cord) u = some o.call :=
    (callOfElem_of_call (id := o.call) h.calls hut.calls _ (fun x hx => by simp [hu, dropXp, h.calls, hx])
      (by rw [hcall]; rfl) (by rw [hcall]; rfl)).trans b.cordNamed
  obtain ⟨L, hL⟩ : ∃ L, L = modPoint (2144 + cord) (fun e => { e with pending := none })
    (modLine lt (Line.left (point (2144 + cord) s.part))
      (modPoint lt (fun _ => { point (2144 + cord) s.part with pulses := 0, pending := none })
        (modCall o.call (fun c => { c with term := none }) u))) := ⟨_, rfl⟩
  have hleave : leaveFaulty o.call (.fl n) u = L := by
    have e : leaveFaulty o.call (.fl n) u = leaveTerm o.call u := by simp [leaveFaulty, hcall, b.joined]
    rw [e, leaveTerm_called (cord := cord) hut b.lineRange (by rw [hline]; exact b.called)
      (by rw [hcall]; exact b.silent)
      (by rw [hcall]; exact b.settled) (by rw [hcall]; exact b.term) (by rw [hcall]; simp [b.joined]) b.cordRange hnamed
      (by rw [hline]; exact b.inService) (by rw [hline]; exact b.noClass), hpoint, hL]
  have hLt : TablesOk L := hL ▸ (((hut.modCall _ _).modPoint _ _).modLine _ _).modPoint _ _
  have hLc : call o.call L = { call o.call u with term := none } := by simp [hL, hut.calls]
  have hLl : (call o.call L).xps.filter (listed L) =
      [(.line lo m, .operated), (.plane m cord .o, .operated), (.plane n cord .t, .operated)] := by
    have hm : (elem (.fl m) L).occ ≠ .faulty := by
      simpa [hL, hu, dropXp, h.fls, b.apart] using b.linkSound
    have hc : (elem (.cord cord) L).occ ≠ .faulty := by simpa [hL, hu, dropXp, h.fls] using b.cordSound
    rw [hLc, hcall]
    refine List.filter_eq_self.mpr fun y hy => ?_
    simp only [List.mem_cons, List.not_mem_nil, or_false] at hy
    rcases hy with rfl | rfl | rfl
    · exact listed_of_elem (e := .fl m) (by simp [Xp.elems]) hm
    · exact listed_of_elem (e := .cord cord) (by simp [Xp.elems]) hc
    · exact listed_of_elem (e := .cord cord) (by simp [Xp.elems]) hc
  rw [crosspointFailed_of_left (h.removeOrder _) (maintRoom_congr (removeOrder_m _ _) b.room) (e := .fl n) rfl
    (by simpa using b.linkNamed) (hu ▸ hleave) hLt.calls (by rw [hL, hu]; rfl) hLl]
  refine congrArg _ ?_
  have hg : Call.without (.fl n) (call o.call L) = { call o.call L with
      set := { fl := some m, cord := some cord, ring := true } } :=
    Call.without_of_set (by rw [hLc, hcall]; simp [b.joined, ElemSet.without, b.apart])
      (by rw [hLc, hcall]; exact b.oldSet) (by rw [hLc, hcall]; exact b.newSet)
  rw [hg, hLc, hcall, hL, calledLeft, hu, dropXp]
  simp only [modCall_modPoint, modCall_modLine, modCall_modElem]
  rw [modCall_modCall _ _ _ ((h.removeOrder o.id).modCall _ _).calls, modCall_modCall _ _ _ (h.removeOrder o.id).calls]
  exact congrArg _ (congrArg _ (congrArg _ (congrArg _ (modCall_congr rfl))))

theorem TablesOk.calledLeft (h : TablesOk s) (o : Order) (lt n m cord : Nat) (l : List (Xp × XpState)) :
    TablesOk (calledLeft o lt n m cord l s) :=
  ((((((h.removeOrder _).modElem _ _).modCall _ _).modPoint _ _).modLine _ _).modPoint _ _)

theorem ringOff_of_ring {id cord : Nat} (hk : (call id s).set.cord = some cord) (hr : (call id s).set.ring = true) :
    ringOff id s = place id (.ringOff cord) (modCall id (fun c => { c with set.ring := false }) s) := by
  simp [ringOff, hk, hr]

/-- The clause of O55 on an extension to a line. -/
theorem failed_line_extension {s : State} {o : Order} {i : Instr} {lo lt n m cord : Nat}
    (b : LineExtensionFails o i lo lt n m cord s) :
    let shown := point (2144 + cord) s.part
    ∃ t, exec i s = .next t ∧ t.pending = s.pending ∧
      noticesDue .maint t.part = noticesDue .maint s.part ++
        [.maint .elementFaulty 0 (([b8 0] ++ b16 n) ++ [b8 o.call])] ∧
      call o.call t.part =
        { call o.call s.part with
          term := none, set := { fl := some m, cord := some cord }
          xps :=
            [(.line lo m, .operated), (.plane m cord .o, .operated), (.plane n cord .t, .releasing)]
          op := .reversal, opFailed := false, yielded := false } ∧
      (∀ x, x ≠ o.call → call x t.part = call x s.part) ∧
      t.part.orders = s.part.orders.filter (fun x => decide (x.id ≠ o.id)) ++
        [{ id := s.part.serial, call := o.call, act := .ringOff cord },
          { id := s.part.serial + 1, call := o.call, act := .release (.plane n cord .t) }] ∧
      elem (.fl n) t.part = (elem (.fl n) s.part).spoilt ∧ (∀ e, e ≠ .fl n → elem e t.part = elem e s.part) ∧
      (∀ x, line x t.part =
        if x = lt then
          { line x s.part with sup := if shown.accepted = .loop then .parked else .idle, marked := false }
        else line x s.part) ∧
      (∀ p, point p t.part =
        if p = lt then { shown with pulses := 0, pending := none }
        else if p = 2144 + cord then { shown with pending := none }
        else point p s.part) ∧
      t.part = { s.part with
        orders := t.part.orders, serial := s.part.serial + 2, calls := t.part.calls
        net.fls := t.part.net.fls, net.lines := t.part.net.lines, scan.points := t.part.scan.points
        m.io := t.part.m.io } := by
  intro shown
  have h := b.tables
  obtain ⟨r, hr, hexec⟩ := exec_failed b.sent b.instr
  obtain ⟨u, hu⟩ : ∃ u, u = calledLeft o lt n m cord
    [(.line lo m, .operated), (.plane m cord .o, .operated), (.plane n cord .t, .operated)] s.part := ⟨_, rfl⟩
  obtain ⟨v, hv⟩ : ∃ v, v = enter .maint (.maint .elementFaulty 0 ([b8 0] ++ b16 n ++ [b8 o.call])) u := ⟨_, rfl⟩
  have hut : TablesOk u := hu ▸ h.calledLeft _ _ _ _ _ _
  have hvt : TablesOk v := hv ▸ hut.enter _ _
  have hcross := b.crosspointFailed_eq
  rw [← hu, ← hv] at hcross
  have hcall : call o.call v = { call o.call s.part with
      term := none, set := { fl := some m, cord := some cord, ring := true }
      xps := [(.line lo m, .operated), (.plane m cord .o, .operated), (.plane n cord .t, .operated)]
      opFailed := true } := by
    simp [hv, hu, calledLeft, h.calls]
  have helem : ∀ e, e ≠ .fl n → elem e v = elem e s.part := fun e he => by simp [hv, hu, calledLeft, h.fls, he]
  have hvo : ordersOf o.call v = [] :=
    (ordersOf_congr (by simp [hv, hu, calledLeft])).trans (ordersOf_removeOrder b.alone)
  obtain ⟨w, hw⟩ : ∃ w, w = place o.call (.release (.plane n cord .t)) (place o.call (.ringOff cord)
      (modCall o.call (fun c => { c with
        set := { fl := some m, cord := some cord }
        xps := [(.line lo m, .operated), (.plane m cord .o, .operated), (.plane n cord .t, .releasing)]
        op := .reversal, opFailed := false, yielded := false }) v)) := ⟨_, rfl⟩
  have e : orderOutcome o r s.part = w := by
    have hop : operationStep o.call v = reverseExtension o.call v := by
      simp [operationStep, hvo, hcall, b.kept, b.extending, extensionEnd]
    have hring : ringOff o.call (beginOp o.call .reversal v) = place o.call (.ringOff cord)
        (modCall o.call (fun c => { c with
          set := { fl := some m, cord := some cord }, op := .reversal, opFailed := false, yielded := false }) v) := by
      have hk : (call o.call (beginOp o.call .reversal v)).set = { fl := some m, cord := some cord, ring := true } := by
        simp [beginOp, hvt.calls, hcall]
      rw [ringOff_of_ring (cord := cord) (by rw [hk]) (by rw [hk]), beginOp, modCall_modCall _ _ _ hvt.calls]
      exact congrArg _ (modCall_congr (by rw [hcall]))
    have hxs : operatedXps o.call (ringOff o.call (beginOp o.call .reversal v)) =
        [.line lo m, .plane m cord .o, .plane n cord .t] := by
      have hm : (elem (.fl m) v).occ ≠ .faulty := by
        rw [helem _ (by simp [b.apart])]
        exact b.linkSound
      have hc : (elem (.cord cord) v).occ ≠ .faulty := by
        rw [helem _ (by simp)]
        exact b.cordSound
      have h1 : ∀ e a f, (elem e v).occ ≠ .faulty → ∀ y : Xp, e ∈ y.elems →
          onlyFaulty y (place o.call a (modCall o.call f v)) = false :=
        fun e a f he y hy => onlyFaulty_of_elem hy (by simpa using he)
      rw [hring]
      simp [operatedXps, hvt.calls, hcall, h1 (.fl m) _ _ hm (.line lo m) (by simp [Xp.elems]),
        h1 (.cord cord) _ _ hc (.plane m cord .o) (by simp [Xp.elems]),
        h1 (.cord cord) _ _ hc (.plane n cord .t) (by simp [Xp.elems])]
    unfold orderOutcome
    rw [applyOutcome_operate hr b.act (by rw [hcross, hcall]; exact b.settled), hcross, hop]
    unfold reverseExtension
    simp only [hxs]
    rw [hring]
    simp [Xp.isTerm, hvt.calls, hcall, placeRelease, ordersOf, hw]
    exact congrArg _ (congrArg _ (modCall_congr (by rw [hcall]; simp [setXp])))
  refine ⟨_, hexec, rfl, ?_⟩
  simp only [e]
  refine ⟨?_, ?_, fun x hx => ?_, ?_, ?_, fun e he => ?_, fun x => ?_, fun p => ?_, ?_⟩
  · refine (noticesDue_congr (s := v) (by simp [hw])).trans ?_
    rw [hv, noticesDue_enter]
    exact congrArg (· ++ _) (noticesDue_congr (by simp [hu, calledLeft]))
  · simp [hw, hvt.calls, hcall]
  · simp [hw, hv, hu, calledLeft, h.calls, hx]
  · simp [hw, hv, hu, calledLeft]
  · simp [hw, hv, hu, calledLeft, h.fls]
  · simp [hw, helem, he]
  · by_cases hx : x = lt <;> simp [hw, hv, hu, calledLeft, h.lines, hx, Line.left, shown]
  · have h1 : lt ≠ 2144 + cord := by have := b.lineRange; omega
    by_cases hp : p = lt
    · simp [hw, hv, hu, calledLeft, h.points, hp, h1, shown]
    · by_cases hp2 : p = 2144 + cord
      · simp [hw, hv, hu, calledLeft, h.points, hp2, h1.symm, shown]
      · simp [hw, hv, hu, calledLeft, h.points, hp, hp2]
  · rw [hw, hv, hu]
    rfl

/-! ## An extension to a junction -/

/-- The terminating junction of a call, still IDLE, becomes FAULTY: it leaves the call. -/
theorem leaveFaulty_term (h : TablesOk s) {id j cord : Nat} (ht : (call id s).term = some (.junction j))
    (ho : (call id s).origin ≠ some (.junction j)) (hk : (call id s).set.cord = some cord) (hcord : cord < 96)
    (hn : callOfElem (.cord cord) s = some id) (hs : (junction j s).sup = .idle)
    (hq : ∀ w ∈ s.orig.queue, w.origin ≠ .junction j) :
    leaveFaulty id (.junction j) (modElem (.junction j) Element.spoilt s) =
      disarm [2336 + j, 2144 + cord, 2336 + j]
        (modJunction j Junction.withdrawn (modCall id (fun c => { c with term := none }) s)) := by
  obtain ⟨u, hu⟩ : ∃ u, u = modElem (.junction j) Element.spoilt s := ⟨_, rfl⟩
  have hut : TablesOk u := hu ▸ h.modElem _ _
  have huj : junction j u = { junction j s with elem := (junction j s).elem.spoilt } := by simp [hu, h.junctions]
  have hcall : call id u = call id s := by simp [hu]
  have hqu : u.orig.queue = s.orig.queue := by rw [hu]; rfl
  obtain ⟨y, hy⟩ : ∃ y, y = modCall id (fun c => { c with term := none }) (disarm [2336 + j] u) := ⟨_, rfl⟩
  have hyt : TablesOk y := hy ▸ (hut.disarm _).modCall _ _
  have hyc : call id y = { call id s with term := none } := by simp [hy, hut.calls, hcall]
  have hyn : callOfElem (.cord cord) y = some id :=
    (callOfElem_of_call (id := id) h.calls hyt.calls _ (fun x hx => by simp [hy, hu, h.calls, hx])
      (by rw [hyc]; rfl) (by rw [hyc]; rfl)).trans hn
  have hleave : leaveTerm id u = disarm [2144 + cord] y := by
    simp only [leaveTerm, hcall, ht, leaveParty]
    rw [leaveJunction_idle hut (by rw [huj]; rfl) (by rw [huj]; exact hs), ← hy]
    have hk' : (call id y).set.cord = some cord := by rw [hyc]; exact hk
    simp only [rearmCalled, hk', tPoint]
    rw [rearm_eq, armed_tEnd_of_call hcord hyn (.inl fun x => by rw [hyc]; exact Option.some_ne_none _ |>.symm)]
    rfl
  rw [← hu]
  simp only [leaveFaulty, hcall, ht, ho, if_true, false_and, if_false, hleave]
  rw [idleJunction_of_used (hyt.disarm _)]
  · rw [hy, modCall_disarm, modJunction_disarm, modJunction_disarm, disarm_disarm, disarm_disarm, hu, modElem_junction,
      modCall_modJunction, modJunction_modJunction _ _ _ (h.modCall _ _).junctions]
    rfl
  · simp [hy, huj, Element.spoilt]
  · simpa [hy, hqu] using hq

/-- The last order of an extension to a junction, the OPERATE of its junctor crosspoint, fails. -/
structure JunctionExtensionFails (o : Order) (i : Instr) (lo j m cord : Nat) (c : Ctl) (s : State) : Prop where
  tables : TablesOk s.part
  sent : dispatched o.act.unit s.part = some o
  instr : i = .driveConfirmation o.act.unit o.id false ∨ i = .driveTimeout o.act.unit o.id
  alone : ∀ x ∈ s.part.orders, x.call = o.call → x.id = o.id
  room : MaintRoom s.part
  takes : OwnerTakes o.call c s.part
  kept : (call o.call s.part).relPending = false
  settled : (call o.call s.part).reswitch = false
  act : o.act = .operate (.junctor j cord .t)
  extending : (call o.call s.part).op = .extension
  term : (call o.call s.part).term = some (.junction j)
  joined : (call o.call s.part).set = { fl := some m, cord := some cord, tjunction := some j }
  oldSet : (call o.call s.part).old = {}
  listing : (call o.call s.part).xps =
    [(.line lo m, .operated), (.plane m cord .o, .operated), (.junctor j cord .t, .operating)]
  linkSound : (elem (.fl m) s.part).occ ≠ .faulty
  cordSound : (elem (.cord cord) s.part).occ ≠ .faulty
  junctionNamed : callOfElem (.junction j) s.part = some o.call
  extended : Extending o.call lo cord s.part
  idle : (junction j s.part).sup = .idle
  unqueued : ∀ w ∈ s.part.orig.queue, w.origin ≠ .junction j
  noRehunt : s.part.orig.rehunts.any (fun w => decide (w.call = o.call)) = false
  still : (point (2048 + cord) s.part).pulses = 0

theorem JunctionExtensionFails.crosspointFailed_eq {o : Order} {i : Instr} {lo j m cord : Nat} {c : Ctl} {s : State}
    (b : JunctionExtensionFails o i lo j m cord c s) :
    crosspointFailed o.call (.junctor j cord .t) (removeOrder o.id s.part) =
      enter .maint (.maint .elementFaulty 0 ([b8 1] ++ b16 j ++ [b8 o.call]))
        (disarm [2336 + j, 2144 + cord, 2336 + j] (modJunction j Junction.withdrawn (modCall o.call
          (fun c => { c with
            term := none, set := { fl := some m, cord := some cord }
            xps := [(.line lo m, .operated), (.plane m cord .o, .operated)], opFailed := true })
          (removeOrder o.id s.part)))) := by
  have h := b.tables
  have hd : TablesOk (dropXp o.call (.junctor j cord .t) (removeOrder o.id s.part)) := (h.removeOrder _).modCall _ _
  have hdc : call o.call (dropXp o.call (.junctor j cord .t) (removeOrder o.id s.part)) =
      { call o.call s.part with xps := [(.line lo m, .operated), (.plane m cord .o, .operated)] } := by
    simp [dropXp, h.calls, b.listing]
  refine crosspointFailed_junction (f := fun c => { c with term := none })
    (l := [(.line lo m, .operated), (.plane m cord .o, .operated)]) (h.removeOrder _)
    (maintRoom_congr (removeOrder_m _ _) b.room) rfl (by simpa using b.junctionNamed) ?_ ?_ ?_
  · refine leaveFaulty_term hd (by rw [hdc]; exact b.term) ?_ (by rw [hdc]; exact b.extended.joined)
      b.extended.cordRange
      ?_ ?_ b.unqueued
    · rw [hdc]
      simp [b.extended.origin]
    · exact (callOfElem_of_call (id := o.call) h.calls hd.calls _ (fun x hx => by simp [dropXp, h.calls, hx])
        (by rw [hdc]; rfl) (by rw [hdc]; rfl)).trans b.extended.named
    · simp [dropXp, b.idle]
  · have hm : (elem (.fl m) (modElem (.junction j) Element.spoilt (removeOrder o.id s.part))).occ ≠ .faulty := by
      simpa using b.linkSound
    have hc : (elem (.cord cord) (modElem (.junction j) Element.spoilt (removeOrder o.id s.part))).occ ≠ .faulty := by
      simpa using b.cordSound
    have h1 := listed_of_elem (y := (.line lo m, .operated)) (e := .fl m) (by simp [Xp.elems]) hm
    have h2 := listed_of_elem (y := (.plane m cord .o, .operated)) (e := .cord cord) (by simp [Xp.elems]) hc
    simp only [modElem_junction] at h1 h2
    simp [b.listing, h1, h2]
  · rw [Call.without_of_set (k := { fl := some m, cord := some cord }) (by simp [b.joined, ElemSet.without])
      (by simpa using b.oldSet) (by simpa using b.extended.new)]

theorem io_enter_of_ne {p q : Port} (h : q ≠ p) (n : Notice) : io q (enter p n s) = io q s := io_modIo_of_ne s h _

/-- The clause of O55 on an extension to a junction. -/
theorem failed_junction_extension {s : State} {o : Order} {i : Instr} {lo j m cord rt : Nat} {c : Ctl}
    (b : JunctionExtensionFails o i lo j m cord c s) (hrt : (call o.call s.part).dest = some (.route rt)) :
    ∃ t, exec i s = .next t ∧ t.pending = s.pending ∧
      noticesDue .maint t.part = noticesDue .maint s.part ++
        [.maint .elementFaulty 0 (([b8 1] ++ b16 j) ++ [b8 o.call])] ∧
      noticesDue (.ctl c) t.part = noticesDue (.ctl c) s.part ++
        [.call .setFailed o.call ([b8 o.call] ++ [1] ++ b16 rt)] ∧
      call o.call t.part =
        { call o.call s.part with
          op := .idle, opFailed := false, yielded := false
          state := .dialling, claim := 0, band := none, dest := none, term := none
          set := { fl := some m, cord := some cord }
          xps := [(.line lo m, .operated), (.plane m cord .o, .operated)]
          timer := some { kind := .interdigit, limit := interdigitLimit s.part } } ∧
      (∀ x, x ≠ o.call → call x t.part = call x s.part) ∧
      (∀ x, junction x t.part =
        if x = j then { junction x s.part with marked := false, elem := (elem (.junction x) s.part).spoilt }
        else junction x s.part) ∧
      (∀ p, point p t.part =
        if p = lo ∨ p = 2048 + cord ∨ p = 2144 + cord ∨ p = 2336 + j then
          { point p s.part with pending := none }
        else point p s.part) ∧
      t.part = { s.part with
        orders := s.part.orders.filter (fun x => decide (x.id ≠ o.id)), calls := t.part.calls
        net.junctions := t.part.net.junctions
        scan.points := t.part.scan.points, a := t.part.a, b := t.part.b, m.io := t.part.m.io } := by
  have h := b.tables
  obtain ⟨r, hr, hexec⟩ := exec_failed b.sent b.instr
  obtain ⟨u, hu⟩ : ∃ u, u = disarm [2336 + j, 2144 + cord, 2336 + j] (modJunction j Junction.withdrawn (modCall o.call
    (fun c => { c with
      term := none, set := { fl := some m, cord := some cord }
      xps := [(.line lo m, .operated), (.plane m cord .o, .operated)], opFailed := true })
    (removeOrder o.id s.part))) := ⟨_, rfl⟩
  obtain ⟨v, hv⟩ : ∃ v, v = enter .maint (.maint .elementFaulty 0 ([b8 1] ++ b16 j ++ [b8 o.call])) u := ⟨_, rfl⟩
  have hut : TablesOk u := hu ▸ (((h.removeOrder _).modCall _ _).modJunction _ _).disarm _
  have hvt : TablesOk v := hv ▸ hut.enter _ _
  have hcross := b.crosspointFailed_eq
  rw [← hu, ← hv] at hcross
  have hcall : call o.call v = { call o.call s.part with
      term := none, set := { fl := some m, cord := some cord }
      xps := [(.line lo m, .operated), (.plane m cord .o, .operated)], opFailed := true } := by
    simp [hv, hu, h.calls]
  have hvo : ordersOf o.call v = [] := (ordersOf_congr (by simp [hv, hu])).trans (ordersOf_removeOrder b.alone)
  obtain ⟨q, hq⟩ : ∃ q, q = modCall o.call (fun c => { c with op := .idle, opFailed := false, yielded := false }) v :=
    ⟨_, rfl⟩
  have hqt : TablesOk q := hq ▸ hvt.modCall _ _
  have hqc : call o.call q = { call o.call s.part with
      term := none, set := { fl := some m, cord := some cord }
      xps := [(.line lo m, .operated), (.plane m cord .o, .operated)]
      op := .idle, opFailed := false, yielded := false } := by
    simp [hq, hvt.calls, hcall]
  have hother : ∀ x, x ≠ o.call → call x q = call x s.part := fun x hx => by simp [hq, hv, hu, h.calls, hx]
  have hpoint : ∀ p, point p q =
      if p ∈ [2336 + j, 2144 + cord, 2336 + j] then { point p s.part with pending := none } else point p s.part := by
    intro p
    have e : point p q = point p u := by simp [hq, hv]
    rw [e, hu, point_disarm (by simpa using h.points)]
    simp
  have hset : leaveTerm o.call (beginOp o.call .idle (beginOp o.call .reversal v)) = q := by
    simp [leaveTerm, beginOp, hvt.calls, hcall, hq]
  have e : orderOutcome o r s.part = setFailed o.call (beginOp o.call .reversal v) := by
    have hop : operationStep o.call v = reverseExtension o.call v := by
      simp [operationStep, hvo, hcall, b.kept, b.extending, extensionEnd]
    obtain ⟨y, hy⟩ : ∃ y, y = beginOp o.call .reversal v := ⟨_, rfl⟩
    have hyc : call o.call y = { call o.call v with op := .reversal, opFailed := false, yielded := false } := by
      simp [hy, beginOp, hvt.calls]
    have hyo : ordersOf o.call y = [] := (ordersOf_congr (by simp [hy, beginOp])).trans hvo
    have hring : ringOff o.call y = y := by simp [ringOff, hyc, hcall]
    have hxs : (operatedXps o.call y).filter (Xp.isTerm (call o.call y).term) = [] := by
      refine List.filter_eq_nil_iff.mpr fun x hx => ?_
      simp only [operatedXps, hyc, hcall, List.mem_map, List.mem_filter, List.mem_cons, List.not_mem_nil,
        or_false] at hx
      obtain ⟨y, ⟨rfl | rfl, -⟩, rfl⟩ := hx <;> simp [Xp.isTerm, hyc, hcall]
    unfold orderOutcome
    rw [applyOutcome_operate hr b.act (by rw [hcross, hcall]; exact b.settled), hcross, hop]
    unfold reverseExtension
    simp only [← hy, hring, hxs]
    simp [hyc, hcall, hyo]
  have hloop : (point (2048 + cord) q).accepted = .loop ∧ (point (2048 + cord) q).pulses = 0 := by
    rw [hpoint]
    split
    · exact ⟨b.extended.loop, b.still⟩
    · exact ⟨b.extended.loop, b.still⟩
  have hio : io (.ctl c) q = io (.ctl c) s.part := by simp [hq, hv, hu, io_enter_of_ne]
  have gq : OwnerTakes o.call c q := ⟨by rw [hqc]; exact b.takes.owner, by rw [hqc]; exact b.takes.pend, by
    rw [hio]
    exact b.takes.room⟩
  have bq : Extending o.call lo cord q := {
    origin := by rw [hqc]; exact b.extended.origin
    lineRange := b.extended.lineRange
    joined := by rw [hqc]
    cordRange := b.extended.cordRange
    new := by rw [hqc]; exact b.extended.new
    silent := by rw [hqc]; exact b.extended.silent
    sup := by simpa [hq, hv, hu] using b.extended.sup
    named := by
      refine (callOfElem_of_call (id := o.call) h.calls hqt.calls _ hother (by rw [hqc]; rfl) ?_).trans b.extended.named
      simp [hqc, Call.elems, ElemSet.elems, b.joined]
    loop := hloop.1 }
  rw [setFailed_quiet hqt hset (by simpa [hq, hv, hu] using b.noRehunt) gq bq (by rw [hqc]) hloop.2] at e
  refine ⟨_, hexec, rfl, ?_⟩
  simp only [e]
  refine ⟨?_, ?_, ?_, fun x hx => ?_, fun x => ?_, fun p => ?_, ?_⟩
  · have h1 : noticesDue .maint q = noticesDue .maint v := noticesDue_congr (by simp [hq])
    rw [noticesDue_disarm, noticesDue_congr (s := q) (by simp [io_enter_of_ne]), h1, hv, noticesDue_enter]
    exact congrArg (· ++ _) (noticesDue_congr (by simp [hu]))
  · rw [hqc, hrt]
    exact noticesDue_announced _ (by simpa using hio)
  · have et : interdigitLimit q = interdigitLimit s.part := by rw [hq, hv, hu]; rfl
    simp [hqt.calls, hqc, Call.failedBack, et]
  · simp [hqt.calls, hx, hother]
  · by_cases hx : x = j
    · subst hx
      simp [hq, hv, hu, h.junctions, Junction.withdrawn, b.idle]
    · simp [hq, hv, hu, h.junctions, hx]
  · rw [point_disarm (by simpa using hqt.points), point_enter, point_modCall, hpoint]
    simp only [List.mem_cons, List.not_mem_nil, or_false]
    grind
  · rw [disarm_eq, hq, hv, hu, disarm_eq [2336 + j, 2144 + cord, 2336 + j]]
    cases c <;> rfl

end Sys2Proof.Machine
end

section
/-!
PROOFS. The last release of a call fails (R79, R83), and ringing and reversing orders fail (R71, R79).
-/

namespace Sys2Proof.Machine

variable {s t : Part}

/-! ## The last release -/

theorem dropFaulty_net (id : Nat) (s : Part) : (dropFaulty id s).net = s.net := rfl

/-- A crosspoint order whose frame link is blamed has failed (R5, R79): how far that reaches. -/
theorem crosspointFailed_inside {id n : Nat} {x : Xp} (h : TablesOk s) (hm : MaintRoom s) (hb : x.blame = .fl n)
    (hc : callOfElem (.fl n) s = none ∨ callOfElem (.fl n) s = some id) :
    ∃ t, Inside id s t ∧ t.net.fls = (modElem (.fl n) Element.spoilt s).net.fls ∧
      crosspointFailed id x s = enter .maint (.maint .elementFaulty 0 ([b8 0] ++ b16 n ++ [b8 id])) t := by
  obtain ⟨u, hu⟩ : ∃ u, u = modElem (.fl n) Element.spoilt (dropXp id x s) := ⟨_, rfl⟩
  have hi : Inside id s u := hu ▸ inside_modElem (inside_dropXp (.refl h) x) _ _
  have hcu : callOfElem (.fl n) u = callOfElem (.fl n) s := by
    rw [hu, callOfElem_modElem]
    exact callOfElem_of_call (id := id) h.calls (h.modCall _ _).calls _ (fun y hy => by simp [hy, h.calls])
      (by simp [h.calls]; rfl) (by simp [h.calls]; rfl)
  have hfls : u.net.fls = (modElem (.fl n) Element.spoilt s).net.fls := by
    rw [hu]
    rfl
  obtain ⟨d, hd, hdf, hde⟩ : ∃ d, Inside id s d ∧ d.net.fls = u.net.fls ∧
      markFaulty id (.fl n) (dropXp id x s) = raiseMaint .elementFaulty ([b8 0] ++ b16 n ++ [b8 id]) d := by
    have e0 : markFaulty id (.fl n) (dropXp id x s) = raiseMaint .elementFaulty ([b8 0] ++ b16 n ++ [b8 id])
        (dropFaulty id (match callOfElem (.fl n) u with
          | none => u
          | some holder =>
            dropFaulty holder (modCall holder (Call.without (.fl n)) (leaveFaulty holder (.fl n) u)))) := by
      rw [hu]
      rfl
    rw [e0, hcu]
    rcases hc with hc | hc
    · rw [hc]
      exact ⟨dropFaulty id u, inside_dropFaulty hi, rfl, rfl⟩
    · rw [hc]
      refine ⟨dropFaulty id (dropFaulty id (modCall id (Call.without (.fl n)) (leaveFaulty id (.fl n) u))),
        inside_dropFaulty (inside_dropFaulty (inside_modCall (inside_leaveFaulty hi n) fun _ => rfl)), ?_, rfl⟩
      rw [dropFaulty_net, dropFaulty_net, modCall_net]
      unfold leaveFaulty
      dsimp only
      split
      · exact leaveTerm_fls _ _
      · rfl
  have hdm : d.m = s.m := by rw [hd.frame]
  refine ⟨modCall id (fun c => { c with opFailed := true }) d, inside_modCall hd fun _ => rfl, hdf.trans hfls, ?_⟩
  unfold crosspointFailed
  rw [hb, hde, raiseMaint_enters (maintRoom_congr hdm hm), modCall_enter]

theorem fls_freeElem_cord (id k : Nat) (s : Part) : (freeElem id (.cord k) s).net.fls = s.net.fls := by
  have h1 : (keepEntries id (.cord k) s).net = s.net := by
    unfold keepEntries
    dsimp only
    split <;> rfl
  have h2 : ∀ u, (becomeFree (.cord k) u).net.fls = u.net.fls := fun u => by
    unfold becomeFree
    dsimp only
    split <;> rfl
  unfold freeElem
  rw [h2]
  exact congrArg Net.fls h1

/-- What a release gives up leaves a FAULTY frame link as it is. -/
theorem fls_freed {id n : Nat} {x : Xp} (hb : x.blame = .fl n) (hf : (elem (.fl n) s).occ = .faulty) :
    (x.elems.foldl (fun s e => freeReleased id e s) s).net.fls = s.net.fls := by
  have h1 : freeReleased id (.fl n) s = s := freeReleased_of_ne (by rw [hf]; decide)
  cases x with
  | line lt k =>
    cases hb
    simp [Xp.elems, h1]
  | plane k cord z =>
    cases hb
    simp only [Xp.elems, List.foldl_cons, List.foldl_nil, h1]
    unfold freeReleased
    split
    · exact fls_freeElem_cord _ _ _
    · rfl
  | junctor j cord z => cases hb

/-- The clause of O55 on the last release of a call. -/
theorem failed_release_last {s : State} {o : Order} {i : Instr} {c : Ctl} {x : Xp} {n : Nat}
    (b : LastOrder o s.part) (hi : i = .driveConfirmation o.act.unit o.id false ∨ i = .driveTimeout o.act.unit o.id)
    (g : OwnerTakes o.call c s.part) (hm : MaintRoom s.part) (hr : (call o.call s.part).reswitch = false)
    (ha : o.act = .release x) (hop : (call o.call s.part).op = .release2) (hb : x.blame = .fl n)
    (hc : callOfElem (.fl n) s.part = none ∨ callOfElem (.fl n) s.part = some o.call) :
    ∃ t, exec i s = .next t ∧ t.pending = s.pending ∧
      noticesDue .maint t.part = noticesDue .maint s.part ++
        [.maint .elementFaulty 0 (([b8 0] ++ b16 n) ++ [b8 o.call])] ∧
      noticesDue (.ctl c) t.part = noticesDue (.ctl c) s.part ++
        [.call .cleared o.call (noticeData o.call .cleared [] s.part)] ∧
      call o.call t.part = {} ∧ t.part.orders = s.part.orders.filter (fun x => decide (x.id ≠ o.id)) ∧
      elem (.fl n) t.part = (elem (.fl n) s.part).spoilt := by
  have h := b.tables
  obtain ⟨r, hr', hexec⟩ := exec_failed b.sent hi
  obtain ⟨d, hd, hdf, hde⟩ := crosspointFailed_inside (id := o.call) (h.removeOrder o.id)
    (maintRoom_congr (removeOrder_m _ _) hm) hb (by simpa using hc)
  obtain ⟨y, hy⟩ : ∃ y, y = enter .maint (.maint .elementFaulty 0 ([b8 0] ++ b16 n ++ [b8 o.call])) d := ⟨_, rfl⟩
  rw [← hy] at hde
  obtain ⟨u, hu⟩ : ∃ u, u = x.elems.foldl (fun s e => freeReleased o.call e s) y := ⟨_, rfl⟩
  have hyt : TablesOk y := hy ▸ hd.tables.enter _ _
  have hyu : Inside o.call y u := by
    rw [hu]
    exact inside_foldl (fun s e h => inside_freeReleased h e) _ (.refl hyt)
  have hlink : ∀ {p q : Part}, p.net.fls = q.net.fls → elem (.fl n) p = elem (.fl n) q := fun h =>
    congrArg (fun t => Table.get ({} : Element) t n) h
  have hyf : elem (.fl n) y = (elem (.fl n) s.part).spoilt := by
    rw [hy, elem_enter, hlink hdf]
    simp [h.fls]
  have huf : u.net.fls = y.net.fls := by
    rw [hu]
    exact fls_freed hb (by rw [hyf]; rfl)
  have htold : (call o.call u).told = (call o.call s.part).told := by
    refine hyu.told.trans ?_
    rw [hy, call_enter]
    exact hd.told
  have horders : u.orders = s.part.orders.filter (fun x => decide (x.id ≠ o.id)) := by
    rw [hyu.frame, hy, orders_enter, hd.frame]
    rfl
  have hioc : io (.ctl c) u = io (.ctl c) s.part := by
    have h1 : io (.ctl c) u = io (.ctl c) y := by
      rw [hyu.frame]
      cases c <;> rfl
    rw [h1, hy, io_enter_of_ne (by simp), hd.frame]
    cases c <;> rfl
  have hiom : io .maint u = io .maint y := by
    rw [hyu.frame]
    rfl
  have e : orderOutcome o r s.part = closeCall o.call u := by
    have e1 : applyOutcome o r (removeOrder o.id s.part) = u := by
      refine applyOutcome_release hr' ha (by rw [hde, ← hu]) ?_
      have h1 : (call o.call u).told.reswitch = (call o.call s.part).told.reswitch := congrArg Call.reswitch htold
      exact h1.trans hr
    have e2 : ordersOf o.call u = [] := (ordersOf_congr horders).trans (ordersOf_removeOrder b.alone)
    have e3 : (call o.call u).op = .release2 := (congrArg Call.op htold).trans hop
    have e4 : (call o.call u).relPending = false := (congrArg Call.relPending htold).trans b.kept
    unfold orderOutcome
    rw [e1]
    simp [operationStep, e2, e3, e4]
  have gu : OwnerTakes o.call c u :=
    ⟨(congrArg Call.owner htold).trans g.owner, (congrArg Call.pend htold).trans g.pend, by rw [hioc]; exact g.room⟩
  have hclosed := closed_closeCall hyu.tables gu
  refine ⟨_, hexec, rfl, ?_⟩
  simp only [e]
  refine ⟨?_, ?_, hclosed.record, hclosed.orders.trans horders, ?_⟩
  · rw [hclosed.maint, noticesDue_congr hiom, hy, noticesDue_enter]
    refine congrArg (· ++ _) (noticesDue_congr ?_)
    rw [hd.frame]
    rfl
  · rw [hclosed.cleared, noticesDue_congr hioc, noticeData_cleared (story_of_told htold)]
  · rw [hlink (hclosed.fls.trans huf), hyf]

/-! ## RING ON, RING OFF and REVERSE -/

/-- An order that rings or reverses, with its code in RING FAULT (section 10.4). -/
def RingOrder (o : Order) (cord : Nat) (code : Byte) : Prop :=
  (o.act = .ringOn cord ∧ code = 0) ∨ (o.act = .ringOff cord ∧ code = 1) ∨ (o.act = .reverse cord ∧ code = 2)

theorem applyOutcome_ring {o : Order} {cord : Nat} {code : Byte} {r : DriveOutcome} {c : Ctl} (hr : r ≠ .done)
    (ha : RingOrder o cord code) (g : OwnerTakes o.call c s) :
    applyOutcome o r s = enter (.ctl c) (.call .ringFault o.call [b8 o.call, code]) s := by
  have e : ∀ k, ringFault o.call k r s = enter (.ctl c) (.call .ringFault o.call [b8 o.call, b8 k]) s := fun k => by
    unfold ringFault
    rw [if_neg hr, raiseCall_enters g (by decide)]
    rfl
  rcases ha with ⟨ha, rfl⟩ | ⟨ha, rfl⟩ | ⟨ha, rfl⟩ <;> simp only [applyOutcome, ha, e] <;> rfl

/-- An order that rings or reverses fails; the owner's queue has room for two notices. -/
structure RingFails (o : Order) (i : Instr) (cord : Nat) (code : Byte) (c : Ctl) (s : State) : Prop where
  tables : TablesOk s.part
  sent : dispatched o.act.unit s.part = some o
  instr : i = .driveConfirmation o.act.unit o.id false ∨ i = .driveTimeout o.act.unit o.id
  owner : (call o.call s.part).owner = some c
  pend : (call o.call s.part).pend = []
  room : (io (.ctl c) s.part).queue.length < 63
  act : RingOrder o cord code

/-- The part once RING FAULT is queued. -/
def ringTold (o : Order) (code : Byte) (c : Ctl) (s : Part) : Part :=
  enter (.ctl c) (.call .ringFault o.call [b8 o.call, code]) (removeOrder o.id s)

theorem RingFails.exec_eq {o : Order} {i : Instr} {cord : Nat} {code : Byte} {c : Ctl} {s : State}
    (b : RingFails o i cord code c s) :
    exec i s = .next { s with part := operationStep o.call (ringTold o code c s.part) } := by
  obtain ⟨r, hr, hexec⟩ := exec_failed b.sent b.instr
  have g : OwnerTakes o.call c (removeOrder o.id s.part) := ⟨b.owner, b.pend, Nat.lt_succ_of_lt b.room⟩
  rw [hexec, orderOutcome, applyOutcome_ring hr b.act g, ringTold]

theorem ordersOf_ringTold (o : Order) (code : Byte) (c : Ctl) (s : Part) :
    ordersOf o.call (ringTold o code c s) = ordersOf o.call (removeOrder o.id s) := ordersOf_congr (orders_enter _ _)

theorem noticesDue_ringTold (o : Order) (code : Byte) (c : Ctl) (s : Part) :
    noticesDue (.ctl c) (ringTold o code c s) =
      noticesDue (.ctl c) s ++ [.call .ringFault o.call [b8 o.call, code]] := by
  rw [ringTold, noticesDue_enter]
  exact congrArg (· ++ _) (noticesDue_congr (by simp))

/-- The clause of O55 on a ringing or reversing order while others of its call are outstanding. -/
theorem failed_ring_outstanding {o : Order} {i : Instr} {cord : Nat} {code : Byte} {c : Ctl} {s : State}
    (b : RingFails o i cord code c s)
    (hx : ∃ x, x ∈ s.part.orders.filter (fun x => decide (x.id ≠ o.id)) ∧ x.call = o.call) :
    ∃ t, exec i s = .next t ∧ t.pending = s.pending ∧
      noticesDue (.ctl c) t.part = noticesDue (.ctl c) s.part ++ [.call .ringFault o.call [b8 o.call, code]] ∧
      t.part = { s.part with
        orders := s.part.orders.filter (fun x => decide (x.id ≠ o.id)), a := t.part.a, b := t.part.b } := by
  have hexec := b.exec_eq
  rw [operationStep_waits (by rw [ordersOf_ringTold]; exact ordersOf_removeOrder_ne hx)] at hexec
  exact ⟨_, hexec, rfl, noticesDue_ringTold _ _ _ _, by cases c <;> rfl⟩

/-- The clause of O55 on the last order of an answer. -/
theorem failed_ring_answer {o : Order} {i : Instr} {cord : Nat} {code : Byte} {c : Ctl} {s : State}
    (b : RingFails o i cord code c s) (ha : ∀ x ∈ s.part.orders, x.call = o.call → x.id = o.id)
    (hk : (call o.call s.part).relPending = false) (hop : (call o.call s.part).op = .answer) :
    ∃ t, exec i s = .next t ∧ t.pending = s.pending ∧
      noticesDue (.ctl c) t.part = noticesDue (.ctl c) s.part ++ [.call .ringFault o.call [b8 o.call, code]] ∧
      call o.call t.part =
        { call o.call s.part with op := .idle, opFailed := false, yielded := false, claim := 0 } ∧
      (∀ x, x ≠ o.call → call x t.part = call x s.part) ∧
      t.part = { s.part with
        orders := s.part.orders.filter (fun x => decide (x.id ≠ o.id)), calls := t.part.calls
        a := t.part.a, b := t.part.b } := by
  have h := b.tables
  obtain ⟨v, hv⟩ : ∃ v, v = ringTold o code c s.part := ⟨_, rfl⟩
  have hvt : TablesOk v := hv ▸ (h.removeOrder _).enter _ _
  have hcall : call o.call v = call o.call s.part := by simp [hv, ringTold]
  have hvo : ordersOf o.call v = [] := by
    rw [hv, ordersOf_ringTold]
    exact ordersOf_removeOrder ha
  have e : operationStep o.call v =
      modCall o.call (fun c => { c with op := .idle, opFailed := false, yielded := false, claim := 0 }) v := by
    simp [operationStep, hvo, hcall, hk, hop, settleClaim, setClaim, beginOp, hvt.calls]
  have hexec := b.exec_eq
  rw [← hv, e] at hexec
  refine ⟨_, hexec, rfl, ?_, ?_, fun x hx => ?_, ?_⟩
  · exact (noticesDue_congr (by simp)).trans (hv ▸ noticesDue_ringTold _ _ _ _)
  · simp [hvt.calls, hcall]
  · simp [hv, ringTold, h.calls, hx]
  · rw [hv]
    cases c <;> rfl

/-- The clause of O55 on RING ON, the last order of an extension to a line. -/
theorem failed_ring_extension {o : Order} {i : Instr} {cord lo lt : Nat} {code : Byte} {c : Ctl} {s : State}
    (b : RingFails o i cord code c s) (ha : ∀ x ∈ s.part.orders, x.call = o.call → x.id = o.id)
    (hk : (call o.call s.part).relPending = false) (hop : (call o.call s.part).op = .extension)
    (hfail : (call o.call s.part).opFailed = false) (q : Extending o.call lo cord s.part)
    (ht : (call o.call s.part).term = some (.line lt)) (hlt : lt < 2048)
    (hre : s.part.orig.rehunts.any (fun x => decide (x.call = o.call)) = false)
    (hl : (line lt s.part).sup = .inCall o.call) (hy : (point (2144 + cord) s.part).accepted = .open_) :
    ∃ t, exec i s = .next t ∧ t.pending = s.pending ∧
      noticesDue (.ctl c) t.part = noticesDue (.ctl c) s.part ++
        [.call .ringFault o.call [b8 o.call, code], .call .ringing o.call ([b8 o.call] ++ b16 lt ++ [b8 cord])] ∧
      call o.call t.part =
        { call o.call s.part with
          op := .idle, opFailed := false, yielded := false
          state := .ringing, claim := 1, dest := none
          timer := some { kind := .noAnswer, limit := 10 * s.part.timers.noAnswer } } ∧
      (∀ x, x ≠ o.call → call x t.part = call x s.part) ∧
      t.part = { s.part with
        orders := s.part.orders.filter (fun x => decide (x.id ≠ o.id)), calls := t.part.calls
        scan.points := t.part.scan.points, a := t.part.a, b := t.part.b } := by
  have h := b.tables
  obtain ⟨v, hv⟩ : ∃ v, v = ringTold o code c s.part := ⟨_, rfl⟩
  have hvt : TablesOk v := hv ▸ (h.removeOrder _).enter _ _
  have hcall : call o.call v = call o.call s.part := by simp [hv, ringTold]
  have hvo : ordersOf o.call v = [] := by
    rw [hv, ordersOf_ringTold]
    exact ordersOf_removeOrder ha
  have gv : OwnerTakes o.call c v := {
    owner := by rw [hcall]; exact b.owner
    pend := by rw [hcall]; exact b.pend
    room := by
      rw [hv]
      exact Nat.lt_of_le_of_lt (queue_enter_le _ _ _) (Nat.succ_lt_succ (by simpa using b.room)) }
  have qv : Extending o.call lo cord v := {
    origin := by rw [hcall]; exact q.origin
    lineRange := q.lineRange
    joined := by rw [hcall]; exact q.joined
    cordRange := q.cordRange
    new := by rw [hcall]; exact q.new
    silent := by rw [hcall]; exact q.silent
    sup := by simpa [hv, ringTold] using q.sup
    named := by simpa [hv, ringTold] using q.named
    loop := by simpa [hv, ringTold] using q.loop }
  have htimers : v.timers = s.part.timers := by simp [hv, ringTold]
  have e : operationStep o.call v = extensionDone o.call v := by
    simp [operationStep, hvo, hcall, hk, hop, extensionEnd, hfail, ht]
  have hexec := b.exec_eq
  rw [← hv, e, extensionDone_line hvt gv qv (by rw [hcall]; exact ht) hlt (by simpa [hv, ringTold] using hre)
    (by simpa [hv, ringTold] using hl) (by simpa [hv, ringTold] using hy), htimers] at hexec
  refine ⟨_, hexec, rfl, ?_, ?_, fun x hx => ?_, ?_⟩
  · rw [noticesDue_announced _ (s := v) (by simp), hv, noticesDue_ringTold, List.append_assoc]
    rfl
  · simp [hvt.calls, hcall, Call.extended]
  · simp [hv, ringTold, h.calls, hx]
  · rw [disarm_eq, hv]
    cases c <;> rfl

end Sys2Proof.Machine
end

section
/-!
PROOFS. Orders that are REFUSED or time out (O55): the clauses put together.
-/

namespace Sys2Proof.Machine

/-- Settles O55: the orders that fail, clause by clause. -/
theorem operateFails : Obligations.OperateFails := by
  unfold Obligations.OperateFails
  refine ⟨?_, ?_, ?_, ?_, ?_, ?_⟩
  · intro s o lt n i h ha hd hi _ hr hc h1 h2 hx hm orders hw
    exact failed_operate_line h ha hd hi hr hc h1 h2 hx hm hw
  · intro s o i ok cord lt k c h hd hi hop hrel hk ho hw hq hm hb hs hact
    exact coin_outcome h hd hi hop hrel hk ho hw hq hm hb hs hact
  · intro s o i x n h ha hd hi hr hc h1 h2 hx hm orders hw left failed
    have b : FailsReleasing o i n s := ⟨h, hd, hi, hr, hc, h1, h2, hx, hm, hw⟩
    refine ⟨fun lt hxe => ?_, fun cord hxe hk ho hno => ?_⟩
    · subst hxe
      obtain ⟨t, h1, ⟨h2, h3⟩, h4⟩ := failed_release_line b ha
      exact ⟨t, h1, ⟨h2, h3⟩, h4⟩
    · subst hxe
      obtain ⟨t, h1, ⟨h2, h3⟩, h4⟩ := failed_release_plane b ha hk ho hno
      exact ⟨t, h1, ⟨h2, h3⟩, h4⟩
  · intro s o i lt n cord again h hd hi ha hm r orders faulty freed told _ hk hr hop ho hlt hold hnew hsound
    have b : LineSearchFails o i lt cord again s := ⟨h, hd, hi, ha, hm, hk, hr, hop, ho, hold, hnew, hsound⟩
    refine ⟨fun hact hset hxps hc => failed_search_back b hact hset hxps hc, fun x hact hx => ?_⟩
    obtain ⟨t, ht, hexec⟩ := b.cleared hact hx
    refine ⟨fun k c hag hf => ?_, fun hf hheld hadm hpend hcls hopen => ?_⟩
    · subst hag
      exact ⟨_, hexec, rfl, failed_search_retry ht ho hf⟩
    · exact ⟨_, hexec, rfl, failed_search_congested ht ho hlt hf hheld hadm hpend hcls hopen⟩
  · intro s o i j cord again h hd hi ha hm r _ hk hr hop ho hheld hterm _ hset hold hnew hact hxps _ hc hsup hq
    exact failed_junction_search
      ⟨h, hd, hi, ha, hm, hk, hr, hop, ho, hheld, hterm, hset, hold, hnew, hact, hxps, hc, hsup, hq⟩
  · intro s o i c h hd hi hown hpend r orders alone ended spent told owned
    refine ⟨?_, ?_, ?_, ?_⟩
    · intro lo lt n m cord ha hm hk hr hls hact _ hop ho hterm hlt hcord hne hset hold hnew hxps hms hcs hn hcn
        hsup hadm hpc
      exact failed_line_extension ⟨h, hd, hi, ha, hm, hk, hr, hls, hact, hop, hterm, hlt, hcord, hne, hset, hold, hnew,
        hxps, hms, hcs, hn, hcn, hsup, hadm, hpc⟩
    · intro lo j m cord rt ha hm hroom hk hr hls hact _ hop ho hterm hlo _ hcord hset hold hnew hxps hms hcs hj hcn hsup
        hq hre hrt hlsup hloop hpul
      have q : Extending o.call lo cord s.part := ⟨ho, hlo, by rw [hset], hcord, hnew, hls, hlsup, hcn, hloop⟩
      exact failed_junction_extension ⟨h, hd, hi, ha, hm, ⟨hown, hpend, hroom⟩, hk, hr, hact, hop, hterm, hset, hold,
        hxps, hms, hcs, hj, q, hsup, hq, by simpa using hre, hpul⟩ hrt
    · intro x n ha hm hroom hk hr hact hop _ hb hc
      exact failed_release_last ⟨h, hd, ha, hk⟩ hi ⟨hown, hpend, hroom⟩ hm hr hact hop hb hc
    · intro cord code hroom hact faulted
      have b : RingFails o i cord code c s := ⟨h, hd, hi, hown, hpend, hroom, hact⟩
      refine ⟨fun hw => failed_ring_outstanding b hw, fun ha hk hop => failed_ring_answer b ha hk hop, ?_⟩
      intro lo lt ha hk _ hls hop hfail _ _ ho hterm _ hlo hlt hcord hset hnew hre hlo' hlt' hcn hloop hopen
      have q : Extending o.call lo cord s.part := ⟨ho, hlo, hset, hcord, hnew, hls, hlo', hcn, hloop⟩
      exact failed_ring_extension b ha hk hop hfail q hterm hlt (by simpa using hre) hlt' hopen

end Sys2Proof.Machine
end

section
/-!
SUPPORT. One sample of a scan point (R19, R21): which samples count the accepted state, which let a candidate run grow,
and which are accepted.
-/

namespace Sys2Proof.Machine

variable {s t : Part}

/-! ## A change of one entry, by its value -/

theorem modPoint_self {p : Nat} {f : ScanEntry → ScanEntry} (h : Table.wf {} s.scan.points = true)
    (g : f (point p s) = point p s) : modPoint p f s = s := by
  unfold modPoint
  rw [g, point, Table.put_get h]

theorem modPoint_congr {p : Nat} {f g : ScanEntry → ScanEntry} (h : f (point p s) = g (point p s)) :
    modPoint p f s = modPoint p g s := by
  unfold modPoint
  rw [h]

/-- An entry whose pending event is the one armed for it is not changed by arming it afresh. -/
theorem rearm_self {p : Nat} (h : Table.wf {} s.scan.points = true) (g : armed p s = (point p s).pending) :
    rearm p s = s := by
  rw [rearm_eq]
  exact modPoint_self h (by rw [g])

/-! ## What a point's number says -/

theorem pointKind_eq_line {p lt : Nat} (h : pointKind p = .line lt) : p = lt := by
  unfold pointKind at h
  split at h
  · exact PointKind.line.inj h
  · split at h
    · exact nomatch h
    · split at h
      · exact nomatch h
      · split at h <;> exact nomatch h

theorem sampleState_line {lt : Nat} (h : lt < 2048) (bit : Bool) :
    sampleState lt bit s = if bit then .loop else .open_ := by
  simp [sampleState, sensesPolarity, pointKind_line h]

theorem sampleState_oEnd {c : Nat} (h : c < 96) (bit : Bool) :
    sampleState (2048 + c) bit s = if bit then .loop else .open_ := by
  simp [sampleState, sensesPolarity, pointKind_oEnd h]

theorem sampleState_junction_idle {j : Nat} (h : (junction j s).sup = .idle) (bit : Bool) :
    sampleState (2336 + j) bit s = if bit then .loop else .open_ := by
  simp [sampleState, sensesPolarity, pointKind_junction, h]

/-- A change from OPEN to LOOP on a line that is IDLE waits for the frame's persistence (R21). -/
theorem persistence_line {lt : Nat} (h : lt < 2048) (hs : (line lt s).sup = .idle)
    (ha : (point lt s).accepted = .open_) :
    persistence lt (point lt s) s = (frame (lt / 64) s).seize := by
  simp [persistence, ha, pointKind_line h, hs, lineFrame]

/-- A junction that an incoming seizure or a glare may take waits for 6 scans of LOOP (R21). -/
theorem persistence_junction {j : Nat} (hi : (junction j s).idle = true) (hd : (junction j s).dir ≠ .outgoing)
    (ha : (point (2336 + j) s).accepted = .open_) : persistence (2336 + j) (point (2336 + j) s) s = 6 := by
  simp [persistence, ha, pointKind_junction, hi, hd]

/-! ## The events that are due (R22) -/

theorem eventDue_of_none {p : Nat} (h : (point p s).pending = none) : eventDue p s = none := by
  simp [eventDue, h]

theorem eventDue_of_some {p : Nat} {ev : ScanEvent} (h : (point p s).pending = some ev)
    (hb : s.supply.battery ≠ .rideThrough) :
    eventDue p s = if ev.threshold ≤ (point p s).duration then some ev else none := by
  simp [eventDue, h, frozen, hb]

theorem produce_of_not_due {p : Nat} (h : eventDue p s = none) : produce p s = s := by
  simp [produce, h]

theorem produce_of_due {p : Nat} {ev : ScanEvent} (h : eventDue p s = some ev) :
    produce p s = takeEvent p ev (modPoint p (fun e => { e with pending := none }) s) := by
  simp [produce, h]

theorem produceUnless_of_none {later : List Nat} {p : Nat} (h : (point p s).pending = none) :
    produceUnless later p s = s := by
  unfold produceUnless
  rw [produce_of_none h, ite_self]

/-! ## The three kinds of sample (R21) -/

/-- An entry that showed OPEN, when a LOOP is accepted at it after a candidate run of `run` scans. -/
def ScanEntry.looped (run : Nat) (e : ScanEntry) : ScanEntry :=
  { e with accepted := .loop, candidate := .open_, run := 0, duration := run, pending := none }

/-- A LOOP is accepted where OPEN was: the entry takes it, the change is classified, and the event is armed afresh. -/
theorem acceptChange_loop {p run : Nat} (ha : (point p s).accepted = .open_) :
    acceptChange p .loop run s =
      rearm p (classify p .loop ((point p s).duration - run + 1) (modPoint p (ScanEntry.looped run) s)) := by
  unfold acceptChange
  dsimp only
  rw [modPoint_congr (g := ScanEntry.looped run) (by simp [ScanEntry.looped, ha])]

/-- A sample of the accepted state is counted. -/
theorem samplePoint_same {later : List Nat} {p : Nat} {bit : Bool} (hv : sampleState p bit s = (point p s).accepted) :
    samplePoint later p bit s = produceUnless later p (modPoint p ScanEntry.counted s) := by
  simp only [samplePoint, hv, if_true]
  rfl

/-- A sample of another state raises the candidate run while that is below the persistence. -/
theorem samplePoint_waits {later : List Nat} {p : Nat} {bit : Bool} (h : TablesOk s)
    (hv : sampleState p bit s ≠ (point p s).accepted) (hn : (point p s).pending = none)
    (hr : (point p s).run + 1 < persistence p (point p s) s) (ht : (point p s).run + 1 ≤ 15) :
    samplePoint later p bit s =
      modPoint p
        (fun e => { e with
          candidate := sampleState p bit s, run := (point p s).run + 1
          duration := if e.duration < 1023 then e.duration + 1 else e.duration }) s := by
  have hm : min ((point p s).run + 1) Config.runTop = (point p s).run + 1 := min_eq_left ht
  simp only [samplePoint, if_neg hv, hm, if_neg (Nat.not_le.mpr hr)]
  exact produceUnless_of_none (by simp [h.points, hn])

/-- A sample of another state is accepted once the candidate run reaches the persistence. -/
theorem samplePoint_accepts {later : List Nat} {p : Nat} {bit : Bool}
    (hv : sampleState p bit s ≠ (point p s).accepted)
    (hr : persistence p (point p s) s ≤ (point p s).run + 1) (ht : (point p s).run + 1 ≤ 15) :
    samplePoint later p bit s = acceptChange p (sampleState p bit s) ((point p s).run + 1) s := by
  have hm : min ((point p s).run + 1) Config.runTop = (point p s).run + 1 := min_eq_left ht
  simp only [samplePoint, if_neg hv, hm, if_pos hr]

end Sys2Proof.Machine
end

section
/-!
PROOFS. PARK END (R28).
-/

namespace Sys2Proof.Machine

variable {s : Part}

/-- PARK END of a PARKED line, once it is due: the event goes, and the line is IDLE (R28). -/
theorem produce_parkEnd {lt : Nat} (hl : lt < 2048) (hd : eventDue lt s = some .parkEnd)
    (hs : (line lt s).sup = .parked) :
    produce lt s =
      modLine lt (fun l => { l with sup := .idle }) (modPoint lt (fun e => { e with pending := none }) s) := by
  rw [produce_of_due hd]
  simp [takeEvent, pointKind_line hl, endPark, hs]

/-- PARK END that is armed is due at 25 scans of OPEN outside a freeze (R22, R39). -/
theorem eventDue_parkEnd {lt : Nat} (hp : (point lt s).pending = some .parkEnd)
    (hb : s.supply.battery ≠ .rideThrough) :
    eventDue lt s = if 25 ≤ (point lt s).duration then some .parkEnd else none := eventDue_of_some hp hb

/-- Settles O43: the command produces the event, which `produce_parkEnd` gives, if it is the one due. -/
theorem parkEnd : Obligations.ParkEnd := by
  intro s lt hl _
  have command : ∀ q, produceEvent lt .parkEnd s.part = q → Makes (.parkEnd lt) s q := fun q h =>
    congrArg (fun p => (Host.Outcome.next { s with part := p } : Host.Outcome State Fault Refusal)) h
  refine ⟨fun hd => command _ (if_neg hd), fun hp h25 hb hs => command _ ?_⟩
  have hd : eventDue lt s.part = some .parkEnd := by rw [eventDue_parkEnd hp hb, if_pos h25]
  rw [produceEvent, if_pos hd, produce_parkEnd hl hd hs]

end Sys2Proof.Machine
end

section
/-!
PROOFS. Seizures of lines and junctions, and glare (R26, R34, R54 to R56).
-/

namespace Sys2Proof.Machine

variable {s t : Part}

/-! ## An accepted LOOP that arms no event -/

/-- A LOOP is accepted and classified, and no event is armed by it: the entry and what its classification brought are
all that changes. -/
theorem acceptChange_quiet {p run : Nat} {u : Part} (h : Table.wf {} u.scan.points = true)
    (ho : (point p s).accepted = .open_)
    (hu : classify p .loop ((point p s).duration - run + 1) (modPoint p (ScanEntry.looped run) s) = u)
    (ha : armed p u = none) (hp : (point p u).pending = none) : acceptChange p .loop run s = u := by
  rw [acceptChange_loop ho, hu, rearm_self h (ha.trans hp.symm)]

/-! ## A line (R26) -/

/-- The record of a line that has been seized. -/
def Line.seized (l : Line) : Line := { l with sup := .originating, marked := true }

/-- A line that is IDLE and shows OPEN, with no event armed for its point. -/
structure LineWaits (lt : Nat) (s : Part) : Prop where
  range : lt < 2048
  idle : (line lt s).sup = .idle
  opened : (point lt s).accepted = .open_
  quiet : (point lt s).pending = none

theorem LineWaits.sample {lt : Nat} (g : LineWaits lt s) : sampleState lt true s ≠ (point lt s).accepted := by
  rw [sampleState_line g.range, g.opened]
  decide

/-- The sample that seizes a line: the LOOP is accepted, the line is ORIGINATING and marked, and the server tests for
its request (R26, R47). -/
theorem samplePoint_seizes {lt : Nat} {later : List Nat} (h : TablesOk s) (g : LineWaits lt s)
    (hr : (frame (lt / 64) s).seize ≤ (point lt s).run + 1) (ht : (point lt s).run + 1 ≤ 15) :
    samplePoint later lt true s =
      retry (modLine lt Line.seized (modPoint lt (ScanEntry.looped ((point lt s).run + 1)) s)) := by
  rw [samplePoint_accepts g.sample (by rwa [persistence_line g.range g.idle g.opened]) ht,
    sampleState_line g.range, if_pos rfl]
  refine acceptChange_quiet (wf_modPoint _ _ h.points) g.opened ?_ (armed_line_of_ne g.range ?_) ?_
  · simp only [classify, pointKind_line g.range, lineChange, line_modPoint, g.idle]
    rfl
  · simp [h.points, ScanEntry.looped]
  · simp [h.points, ScanEntry.looped]

/-- What a sample at a line's point may change: the line, the entry, and the server's request. -/
structure LineStep (lt : Nat) (s t : Part) : Prop where
  frame : t = { s with
    net.lines := t.net.lines, scan.points := t.scan.points, orig.request := t.orig.request }
  lines : ∀ x, x ≠ lt → line x t = line x s
  entries : ∀ p, p ≠ lt → point p t = point p s

theorem lineStep_modPoint (lt : Nat) (f : ScanEntry → ScanEntry) : LineStep lt s (modPoint lt f s) :=
  ⟨rfl, fun _ _ => rfl, fun _ hp => point_modPoint_of_ne hp f⟩

theorem lineStep_modLine (lt : Nat) (f : ScanEntry → ScanEntry) (g : Line → Line) :
    LineStep lt s (modLine lt g (modPoint lt f s)) :=
  ⟨rfl, fun _ hx => line_modLine_of_ne hx g, fun _ hp => point_modPoint_of_ne hp f⟩

theorem LineStep.retry {lt : Nat} (g : LineStep lt s t) : LineStep lt s (retry t) :=
  ⟨congrArg (fun u : Part => { u with orig.request := (Machine.retry t).orig.request }) g.frame, g.lines, g.entries⟩

/-! ## A junction (R34, R54 to R56) -/

/-- The entry of a junction that has been seized. -/
def Junction.seized (r : Junction) : Junction := { r with sup := .originating, marked := true }

/-- The seizure of a junction whose point shows LOOP with no event armed. -/
theorem seizeJunction_eq {j : Nat} (h : Table.wf {} s.scan.points = true)
    (ha : (point (2336 + j) s).accepted ≠ .open_) (hp : (point (2336 + j) s).pending = none) :
    seizeJunction j s = retry (modJunction j Junction.seized s) := by
  have e : rearm (2336 + j) (modJunction j Junction.seized s) = modJunction j Junction.seized s :=
    rearm_self h ((armed_junction_of_ne (s := modJunction j Junction.seized s) ha).trans hp.symm)
  exact congrArg retry e

theorem junction_seizeJunction (h : TablesOk s) (j : Nat) :
    junction j (seizeJunction j s) = (junction j s).seized :=
  junction_modJunction h j Junction.seized

/-- A junction whose point may take an incoming seizure or a glare, and shows OPEN with no event armed. -/
structure JunctionWaits (j : Nat) (s : Part) : Prop where
  idle : (junction j s).sup = .idle
  inUse : (junction j s).elem.admin ≠ .busyOut
  opened : (point (2336 + j) s).accepted = .open_
  quiet : (point (2336 + j) s).pending = none
  incoming : (junction j s).dir ≠ .outgoing
  occupancy : (junction j s).elem.occ = .free ∨ (junction j s).elem.occ = .reserved

theorem JunctionWaits.sample {j : Nat} (g : JunctionWaits j s) :
    sampleState (2336 + j) true s = .loop ∧ sampleState (2336 + j) true s ≠ (point (2336 + j) s).accepted := by
  rw [sampleState_junction_idle g.idle, g.opened]
  decide

theorem JunctionWaits.persistence {j : Nat} (g : JunctionWaits j s) :
    persistence (2336 + j) (point (2336 + j) s) s = 6 :=
  persistence_junction (by simp [Junction.idle, g.idle, g.inUse, g.occupancy]) g.incoming g.opened

theorem JunctionWaits.samplePoint_waits {j : Nat} (h : TablesOk s) (g : JunctionWaits j s)
    (hr : (point (2336 + j) s).run + 1 < 6) :
    samplePoint [] (2336 + j) true s =
      modPoint (2336 + j)
        (fun e => { e with
          candidate := .loop, run := (point (2336 + j) s).run + 1
          duration := if e.duration < 1023 then e.duration + 1 else e.duration }) s := by
  rw [Machine.samplePoint_waits h g.sample.2 g.quiet (by rw [g.persistence]; exact hr) (by omega), g.sample.1]

/-- The sample at which the LOOP of a junction is accepted, by what its classification brings (R21). -/
theorem JunctionWaits.samplePoint_accepts {j : Nat} {u : Part} (g : JunctionWaits j s)
    (hr : 6 ≤ (point (2336 + j) s).run + 1) (ht : (point (2336 + j) s).run + 1 ≤ 15)
    (h : Table.wf {} u.scan.points = true)
    (hu : junctionChange j .loop
      (modPoint (2336 + j) (ScanEntry.looped ((point (2336 + j) s).run + 1)) s) = u)
    (he : point (2336 + j) u = ScanEntry.looped ((point (2336 + j) s).run + 1) (point (2336 + j) s)) :
    samplePoint [] (2336 + j) true s = u := by
  rw [Machine.samplePoint_accepts g.sample.2 (by rw [g.persistence]; exact hr) ht, g.sample.1]
  refine acceptChange_quiet h g.opened ?_ (armed_junction_of_ne ?_) ?_
  · simp only [classify, pointKind_junction]
    exact hu
  · rw [he]
    exact nofun
  · rw [he]
    rfl

/-- The sample that seizes a FREE junction (R34). -/
theorem samplePoint_seizes_junction {j : Nat} (h : TablesOk s) (g : JunctionWaits j s)
    (hf : (junction j s).elem.occ = .free)
    (hr : 6 ≤ (point (2336 + j) s).run + 1) (ht : (point (2336 + j) s).run + 1 ≤ 15) :
    samplePoint [] (2336 + j) true s =
      retry (modJunction j Junction.seized
        (modPoint (2336 + j) (ScanEntry.looped ((point (2336 + j) s).run + 1)) s)) := by
  refine g.samplePoint_accepts hr ht (wf_modPoint _ _ h.points) ?_ (point_modPoint h _ _)
  simp only [junctionChange, junction_modPoint, g.idle, hf, ne_eq, g.incoming, not_false_eq_true, and_self, if_true]
  exact seizeJunction_eq (wf_modPoint _ _ h.points) (by simp [h.points, ScanEntry.looped])
    (by simp [h.points, ScanEntry.looped])

/-- The sample that brings a glare on a RESERVED junction (R54), by what its preference makes of it. -/
theorem samplePoint_glare {j : Nat} {u : Part} (g : JunctionWaits j s)
    (hf : (junction j s).elem.occ = .reserved) (hd : (junction j s).dir = .bothway)
    (hr : 6 ≤ (point (2336 + j) s).run + 1) (ht : (point (2336 + j) s).run + 1 ≤ 15)
    (h : Table.wf {} u.scan.points = true)
    (hu : glare j (modPoint (2336 + j) (ScanEntry.looped ((point (2336 + j) s).run + 1)) s) = u)
    (he : point (2336 + j) u = ScanEntry.looped ((point (2336 + j) s).run + 1) (point (2336 + j) s)) :
    samplePoint [] (2336 + j) true s = u := by
  refine g.samplePoint_accepts hr ht h ?_ he
  simpa [junctionChange, g.idle, hf, hd] using hu

/-- The call whose junction yields, and whose DISPATCHED junctor order is then awaited (R55). -/
structure Yields (j id r : Nat) (o : Order) (s : Part) : Prop where
  glare : (junction j s).glare = .yield
  named : callOfElem (.junction j) s = some id
  settled : (call id s).new.tjunction ≠ some j
  dest : (call id s).dest = some (.route r)
  kept : (call id s).relPending = false
  first : s.orig.rehunts.any (fun x => decide (x.call = id)) = false
  order : junctorOrder id j s = some o
  sent : isDispatched o s = true

/-- A call that has a junctor order has an order in the table. -/
theorem ordersOf_ne_nil_of_junctorOrder {id j : Nat} {o : Order} (h : junctorOrder id j s = some o) :
    ordersOf id s ≠ [] := List.ne_nil_of_mem (List.mem_of_find?_eq_some h)

/-- A glare that the junction yields to, with the junctor order DISPATCHED (R55): a re-hunt entry is added, the call is
marked, the server tests for its request, and the order's outcome is awaited. -/
theorem glare_yields {j id r : Nat} {o : Order} (h : TablesOk s) (y : Yields j id r o s) :
    glare j s =
      retry (modCall id (fun c => { c with op := .yielding, yielded := true })
        { s with orig.rehunts := s.orig.rehunts ++ [{ call := id, route := r, junction := j }] }) := by
  have hne := ordersOf_ne_nil_of_junctorOrder y.order
  obtain ⟨u, hu⟩ : ∃ u, u = modCall id (fun c => { c with op := .yielding })
      { s with orig.rehunts := s.orig.rehunts ++ [{ call := id, route := r, junction := j }] } := ⟨_, rfl⟩
  have ho : u.orders = s.orders := by rw [hu]; rfl
  have order : junctorOrder id j u = some o := by
    rw [← y.order, junctorOrder, junctorOrder, ordersOf_congr ho]
  have sent : isDispatched o u = true := by
    rw [← y.sent, isDispatched, isDispatched, dispatched, dispatched, orderList, orderList, ho]
  have reversed : reverseJunctor id j u = modCall id (fun c => { c with yielded := true }) u := by
    simp [reverseJunctor, order, sent]
  have route : extensionRoute id j s = r := by simp [extensionRoute, y.dest]
  have entry : yieldExtension id j s = operationStep id (retry (reverseJunctor id j u)) := by
    simp [yieldExtension, y.kept, y.first, route, hu]
  have waits : ordersOf id (retry (modCall id (fun c => { c with yielded := true }) u)) ≠ [] :=
    (ordersOf_congr (s := s) ho).trans_ne hne
  simp only [glare, y.glare, y.named, if_neg y.settled, entry, reversed]
  rw [operationStep_waits waits, hu, modCall_modCall]
  exact h.calls

/-- The direction a junction has once it is FREE and IDLE decides whether its accepted LOOP is a seizure (R15, R56). -/
theorem junction_becomeFree_seized {j : Nat} (h : TablesOk s) (hs : (junction j s).sup = .idle)
    (ha : (junction j s).elem.admin = .inService)
    (hd : (junction j s).pendDir.getD (junction j s).dir ≠ .outgoing)
    (hp : (point (2336 + j) s).accepted = .loop) :
    junction j (becomeFree (.junction j) s) =
      ({ junction j s with elem := { occ := .free, admin := .inService } } : Junction).settled.seized := by
  obtain ⟨u, hu⟩ : ∃ u, u = modElem (.junction j)
      (fun r => { r with occ := .free, admin := if r.admin = .busyOutPending then .busyOut else r.admin }) s := ⟨_, rfl⟩
  have hj : junction j (settleJunction j u) =
      ({ junction j s with elem := { occ := .free, admin := .inService } } : Junction).settled := by
    rw [settleJunction_eq, hu]
    simp [h.junctions, ha]
  have seized : seizeIfLoop j (settleJunction j u) = seizeJunction j (settleJunction j u) := by
    have hpu : (point (2336 + j) (settleJunction j u)).accepted = .loop := by
      rw [settleJunction_eq, hu, point_modJunction, point_modElem, hp]
    have dir : (junction j (settleJunction j u)).dir ≠ .outgoing := by
      rw [hj]
      simpa [Junction.settled, hs] using hd
    refine if_pos ⟨?_, ?_, ?_, dir, hpu⟩
    · rw [hj, settled_elem]
    · rw [hj, settled_elem]
    · rw [hj, settled_sup]
      exact hs
  have e : becomeFree (.junction j) s = seizeIfLoop j (settleJunction j u) := by rw [hu]; rfl
  rw [e, seized, junction_seizeJunction, hj]
  rw [settleJunction_eq, hu]
  exact (h.modElem _ _).modJunction _ _

end Sys2Proof.Machine
end

section
/-!
PROOFS. A LOOP that has lasted its persistence (O41): the clauses put together.
-/

namespace Sys2Proof.Machine

variable {s : Part}

/-- What the sample that seizes a line comes to (R26). -/
theorem line_seized {lt : Nat} (h : TablesOk s) (g : LineWaits lt s)
    (hr : (frame (lt / 64) s).seize ≤ (point lt s).run + 1) (ht : (point lt s).run + 1 ≤ 15) :
    line lt (samplePoint [] lt true s) = (line lt s).seized ∧
      point lt (samplePoint [] lt true s) = (point lt s).looped ((point lt s).run + 1) ∧
      LineStep lt s (samplePoint [] lt true s) := by
  rw [samplePoint_seizes h g hr ht]
  exact ⟨line_modLine (h.modPoint _ _) lt _, point_modPoint h lt _, (lineStep_modLine lt _ _).retry⟩

/-- What the sample that seizes a FREE junction comes to (R34). -/
theorem junction_seized {j : Nat} (h : TablesOk s) (g : JunctionWaits j s) (hf : (junction j s).elem.occ = .free)
    (hr : 6 ≤ (point (2336 + j) s).run + 1) (ht : (point (2336 + j) s).run + 1 ≤ 15) :
    let t := samplePoint [] (2336 + j) true s
    junction j t = (junction j s).seized ∧
      point (2336 + j) t = (point (2336 + j) s).looped ((point (2336 + j) s).run + 1) ∧
      (∀ x, x ≠ j → junction x t = junction x s) ∧ (∀ p, p ≠ 2336 + j → point p t = point p s) ∧
      t = { s with
        net.junctions := t.net.junctions, scan.points := t.scan.points, orig.request := t.orig.request } := by
  intro t
  have e : t = retry (modJunction j Junction.seized
      (modPoint (2336 + j) (ScanEntry.looped ((point (2336 + j) s).run + 1)) s)) :=
    samplePoint_seizes_junction h g hf hr ht
  rw [e]
  exact ⟨junction_modJunction (h.modPoint _ _) j _, point_modPoint h _ _, fun x hx => junction_modJunction_of_ne hx _,
    fun p hp => point_modPoint_of_ne hp _, rfl⟩

/-- A glare that HOLD leaves to the outgoing call changes the entry alone (R54). -/
theorem glare_held {j : Nat} (h : TablesOk s) (g : JunctionWaits j s) (hf : (junction j s).elem.occ = .reserved)
    (hd : (junction j s).dir = .bothway) (hr : 6 ≤ (point (2336 + j) s).run + 1)
    (ht : (point (2336 + j) s).run + 1 ≤ 15) (hg : (junction j s).glare = .hold) :
    samplePoint [] (2336 + j) true s =
      modPoint (2336 + j) (ScanEntry.looped ((point (2336 + j) s).run + 1)) s :=
  samplePoint_glare g hf hd hr ht (wf_modPoint _ _ h.points) (by simp [glare, hg]) (point_modPoint h _ _)

/-- What a glare that takes the junction from its call comes to, with the junctor order DISPATCHED (R55). -/
theorem glare_yielded {j id r : Nat} {o : Order} (h : TablesOk s) (g : JunctionWaits j s)
    (hf : (junction j s).elem.occ = .reserved) (hd : (junction j s).dir = .bothway)
    (hr : 6 ≤ (point (2336 + j) s).run + 1) (ht : (point (2336 + j) s).run + 1 ≤ 15) (y : Yields j id r o s) :
    let t := samplePoint [] (2336 + j) true s
    junction j t = junction j s ∧
      point (2336 + j) t = (point (2336 + j) s).looped ((point (2336 + j) s).run + 1) ∧
      call id t = { call id s with op := .yielding, yielded := true } ∧ (∀ x, x ≠ id → call x t = call x s) ∧
      t.orig.rehunts = s.orig.rehunts ++ [{ call := id, route := r, junction := j, made := false }] ∧
      t = { s with
        calls := t.calls, scan.points := t.scan.points
        orig.rehunts := t.orig.rehunts, orig.request := t.orig.request } := by
  intro t
  obtain ⟨q, hq⟩ : ∃ q, q = modPoint (2336 + j) (ScanEntry.looped ((point (2336 + j) s).run + 1)) s := ⟨_, rfl⟩
  have tables : TablesOk q := hq ▸ h.modPoint _ _
  have entry : point (2336 + j) q = (point (2336 + j) s).looped ((point (2336 + j) s).run + 1) :=
    hq ▸ point_modPoint h _ _
  have still : Yields j id r o q := by
    subst hq
    exact ⟨y.glare, y.named, y.settled, y.dest, y.kept, y.first, y.order, y.sent⟩
  have e : t = retry (modCall id (fun c => { c with op := .yielding, yielded := true })
      { q with orig.rehunts := q.orig.rehunts ++ [{ call := id, route := r, junction := j }] }) :=
    samplePoint_glare g hf hd hr ht tables.points (hq ▸ glare_yields tables still) entry
  have hc : q.calls = s.calls := by rw [hq]; rfl
  refine ⟨?_, ?_, ?_, fun x hx => ?_, ?_, ?_⟩
  · rw [e, hq]
    rfl
  · rw [e, ← entry]
    rfl
  · rw [e, ← call_congr hc]
    exact Table.get_put_same tables.calls
  · rw [e, ← call_congr hc]
    exact Table.get_put_ne hx
  · rw [e, hq]
    rfl
  · rw [e, hq]
    rfl

/-- Settles O41, one theorem for each kind of sample, and `junction_becomeFree_seized` for R56. -/
theorem seizureOfALine : Obligations.SeizureOfALine := by
  intro s h
  refine ⟨?_, ?_, ?_⟩
  · intro lt hl _ _ hs ha hp h15 run
    have g : LineWaits lt s := ⟨hl, hs, ha, hp⟩
    refine ⟨fun hr => ?_, fun hr ht => ?_⟩
    · have waits : run < persistence lt (point lt s) s := by rwa [persistence_line hl hs ha]
      rw [samplePoint_waits h g.sample hp waits (by omega), sampleState_line hl]
      rfl
    · obtain ⟨line, entry, step⟩ := line_seized h g hr ht
      exact ⟨line, entry, fun x hx => ⟨step.lines x hx, step.entries x hx⟩, step.frame⟩
  · intro j _ hs hb ha hp run t accepted
    refine ⟨fun hd hf => ?_, fun hd hf hr ht => ⟨fun hg => ?_, fun id o r hg hn hk hde hre hfi hor hse => ?_⟩⟩
    · have g : JunctionWaits j s := ⟨hs, hb, ha, hp, hd, .inl hf⟩
      exact ⟨g.samplePoint_waits h, junction_seized h g hf⟩
    · have g : JunctionWaits j s := ⟨hs, hb, ha, hp, by rw [hd]; decide, .inr hf⟩
      have e : t = modPoint (2336 + j) (ScanEntry.looped run) s := glare_held h g hf hd hr ht hg
      rw [e]
      exact ⟨rfl, point_modPoint h _ _, fun p hp => point_modPoint_of_ne hp _, rfl⟩
    · have g : JunctionWaits j s := ⟨hs, hb, ha, hp, by rw [hd]; decide, .inr hf⟩
      exact glare_yielded h g hf hd hr ht ⟨hg, hn, hk, hde, hre, hfi, hor, hse⟩
  · intro j _ hs ha hd hp r
    rw [junction_becomeFree_seized h hs ha hd hp]
    simp only [Junction.seized, Junction.settled, hs, and_self, if_true]
    rfl

end Sys2Proof.Machine
end

section
/-!
PROOFS. Digits: DIGIT END (R30, R91), and the sample that ends a break (R29).
-/

namespace Sys2Proof.Machine

variable {s : Part}

/-! ## A digit notice with the INTERDIGIT timer (R91) -/

/-- A call that takes digits: DIALLING, with no release taken, and its owner takes its notices at once. -/
structure Dials (id : Nat) (c : Ctl) (s : Part) : Prop where
  dialling : (call id s).state = .dialling
  kept : (call id s).relPending = false
  owner : OwnerTakes id c s

theorem takesDigits_of_dialling {r : Call} (h : r.state = .dialling) (g : r.relPending = false) :
    takesDigits r = true := by
  simp [takesDigits, Call.released, h, g]

/-- A digit notice is raised and the INTERDIGIT timer starts (R91). -/
theorem startInterdigit_raiseCall {id : Nat} {c : Ctl} {k : CallKind} {d : List Byte} (g : OwnerTakes id c s)
    (hk : k ≠ .cleared) :
    startInterdigit id (raiseCall id k d s) =
      enter (.ctl c) (.call k id (noticeData id k d s))
        (modCall id (fun r => { r with timer := some { kind := .interdigit, limit := interdigitLimit s } }) s) := by
  have limit : ∀ n, interdigitLimit (enter (.ctl c) n s) = interdigitLimit s := fun n => by
    unfold interdigitLimit
    rw [cal_enter, timers_enter]
  rw [raiseCall_enters g hk, startInterdigit, startTimer, limit, modCall_enter]

/-- DIGIT FAULT for a call that takes digits. -/
theorem digitFault_eq {id : Nat} {c : Ctl} (g : Dials id c s) :
    digitFault id s =
      enter (.ctl c) (.call .digitFault id [b8 id])
        (modCall id (fun r => { r with timer := some { kind := .interdigit, limit := interdigitLimit s } }) s) := by
  rw [digitFault, if_pos (takesDigits_of_dialling g.dialling g.kept), raisePlain,
    startInterdigit_raiseCall g.owner (by decide)]
  rfl

/-- The notice of a DIGIT END with a pulse count, by the digits the call held before (R30). -/
def digitNotice (id n : Nat) (held : List Nat) : Notice :=
  if n ≤ 10 ∧ held.length < 24 then .call .digit id [b8 id, b8 (held.length + 1), b8 (n % 10)]
  else if 11 ≤ n then .call .digitFault id [b8 id]
  else .call .digitOverflow id [b8 id]

/-- The record of a call after a DIGIT END with a pulse count (R30, R91). -/
def Call.dialled (n limit : Nat) (r : Call) : Call :=
  { r with
    digits := if n ≤ 10 ∧ r.digits.length < 24 then r.digits ++ [n % 10] else r.digits
    timer := some { kind := .interdigit, limit := limit } }

/-- The three outcomes of a DIGIT END for a call that takes digits (R30). -/
theorem takeDigit_of_dialling {id n : Nat} (h : takesDigits (call id s) = true) :
    takeDigit id n s =
      if 11 ≤ n then digitFault id s
      else if 24 ≤ (call id s).digits.length then startInterdigit id (raisePlain id .digitOverflow s)
      else
        startInterdigit id
          (raiseCall id .digit [] (modCall id (fun r => { r with digits := r.digits ++ [n % 10] }) s)) := by
  simp only [takeDigit, h, Bool.not_true, Bool.false_eq_true, if_false]
  rfl

/-- A digit that joins the list is told with its number and its value (R30, R91). -/
theorem startInterdigit_digit {id n : Nat} {c : Ctl} (h : TablesOk s) (g : OwnerTakes id c s) :
    startInterdigit id
        (raiseCall id .digit [] (modCall id (fun r => { r with digits := r.digits ++ [n] }) s)) =
      enter (.ctl c) (.call .digit id [b8 id, b8 ((call id s).digits.length + 1), b8 n])
        (modCall id
          (fun r => { r with
            digits := r.digits ++ [n], timer := some { kind := .interdigit, limit := interdigitLimit s } }) s) := by
  obtain ⟨u, hu⟩ : ∃ u, u = modCall id (fun r => { r with digits := r.digits ++ [n] }) s := ⟨_, rfl⟩
  have record : call id u = { call id s with digits := (call id s).digits ++ [n] } := by
    rw [hu, call_modCall h]
  have owner : OwnerTakes id c u :=
    ⟨by rw [record]; exact g.owner, by rw [record]; exact g.pend, by rw [hu, io_modCall]; exact g.room⟩
  have data : noticeData id .digit [] u = [b8 id, b8 ((call id s).digits.length + 1), b8 n] := by
    simp [noticeData, record]
  have limit : interdigitLimit u = interdigitLimit s := by rw [hu]; rfl
  rw [← hu, startInterdigit_raiseCall owner (by decide), data, limit, hu, modCall_modCall _ _ _ h.calls]

/-- Everything a DIGIT END does to the call and its owner (R30, R91). -/
theorem takeDigit_eq {id n : Nat} {c : Ctl} (h : TablesOk s) (g : Dials id c s) :
    takeDigit id n s =
      enter (.ctl c) (digitNotice id n (call id s).digits) (modCall id (Call.dialled n (interdigitLimit s)) s) := by
  rw [takeDigit_of_dialling (takesDigits_of_dialling g.dialling g.kept)]
  by_cases taken : n ≤ 10 ∧ (call id s).digits.length < 24
  · have changed : modCall id (Call.dialled n (interdigitLimit s)) s =
        modCall id (fun r => { r with
          digits := r.digits ++ [n % 10]
          timer := some { kind := .interdigit, limit := interdigitLimit s } }) s :=
      modCall_congr (by simp only [Call.dialled, if_pos taken])
    rw [if_neg (by omega), if_neg (by omega), startInterdigit_digit h g.owner, digitNotice, if_pos taken, changed]
  · have timed : modCall id (Call.dialled n (interdigitLimit s)) s =
        modCall id (fun r => { r with timer := some { kind := .interdigit, limit := interdigitLimit s } }) s :=
      modCall_congr (by simp only [Call.dialled, if_neg taken])
    rw [digitNotice, if_neg taken, timed]
    by_cases fault : 11 ≤ n
    · rw [if_pos fault, if_pos fault, digitFault_eq g]
    · rw [if_neg fault, if_neg fault, if_pos (by omega), raisePlain, startInterdigit_raiseCall g.owner (by decide)]
      rfl

/-! ## A notice raised leaves the scan points alone, whatever its owner's queue holds -/

theorem scan_enterCall (p : Port) (id : Nat) (k : CallKind) (d : List Byte) (s : Part) :
    (enterCall p id k d s).scan = s.scan := by
  unfold enterCall
  dsimp only
  split
  · exact scan_enter p _
  · exact scan_enter p _

theorem scan_drainOne {c : Ctl} {t : Part} (h : drainOne c s = some t) : t.scan = s.scan := by
  unfold drainOne at h
  split at h
  · cases h
  · split at h
    · cases h
      rw [scan_enter, modCtl_scan]
    · split at h
      · cases h
      · split at h
        · cases h
        · cases h
          rw [scan_enterCall]
          split
          · rw [modCtl_scan, modCall_scan]
          · rw [modCall_scan]

theorem scan_drainCtl (c : Ctl) (s : Part) : (drainCtl c s).scan = s.scan := by
  unfold drainCtl
  generalize Config.ctlQueue + 1 = n
  induction n generalizing s with
  | zero => rfl
  | succ n ih =>
    unfold repeatStep
    split
    · next t ht => exact (ih t).trans (scan_drainOne ht)
    · rfl

theorem scan_raiseCall (id : Nat) (k : CallKind) (d : List Byte) (s : Part) :
    (raiseCall id k d s).scan = s.scan := by
  unfold raiseCall
  split
  · split
    · exact scan_enterCall _ _ _ _ _
    · exact scan_drainCtl _ _
  · rfl

theorem scan_digitFault (id : Nat) (s : Part) : (digitFault id s).scan = s.scan := by
  unfold digitFault
  split
  · exact scan_raiseCall _ _ _ _
  · rfl

/-! ## DIGIT END (R30) -/

/-- DIGIT END is due at a cord's O point that shows LOOP. -/
structure DigitDue (cord id : Nat) (s : Part) : Prop where
  range : cord < 96
  named : callOfElem (.cord cord) s = some id
  looped : (point (2048 + cord) s).accepted = .loop
  due : eventDue (2048 + cord) s = some .digitEnd

/-- Everything a DIGIT END does (R30): the digit is taken or discarded, the count is 0, and no event is armed. -/
theorem produce_digitEnd {cord id : Nat} {c : Ctl} (h : TablesOk s) (g : Dials id c s) (d : DigitDue cord id s) :
    produce (2048 + cord) s =
      enter (.ctl c) (digitNotice id (point (2048 + cord) s).pulses (call id s).digits)
        (modCall id (Call.dialled (point (2048 + cord) s).pulses (interdigitLimit s))
          (modPoint (2048 + cord) (fun e => { e with pulses := 0, pending := none }) s)) := by
  obtain ⟨q, hq⟩ : ∃ q, q = modPoint (2048 + cord) (fun e => { e with pulses := 0, pending := none }) s := ⟨_, rfl⟩
  have tables : TablesOk q := hq ▸ h.modPoint _ _
  have entry : point (2048 + cord) q = { point (2048 + cord) s with pulses := 0, pending := none } :=
    hq ▸ point_modPoint h _ _
  have dials : Dials id c q := by
    subst hq
    exact ⟨g.dialling, g.kept, ⟨g.owner.owner, g.owner.pend, by rw [io_modPoint]; exact g.owner.room⟩⟩
  have cleared : modPoint (2048 + cord) (fun e => { e with pulses := 0 })
      (modPoint (2048 + cord) (fun e => { e with pending := none }) s) = q := by
    rw [hq]
    exact modPoint_modPoint _ _ _ h.points
  have ended : takeEvent (2048 + cord) .digitEnd (modPoint (2048 + cord) (fun e => { e with pending := none }) s) =
      rearm (2048 + cord) (takeDigit id (point (2048 + cord) s).pulses q) := by
    simp only [takeEvent, pointKind_oEnd d.range, endDigit, callOfElem_modPoint, d.named]
    rw [show oPoint cord = 2048 + cord from rfl, cleared, point_modPoint h]
  have limit : interdigitLimit q = interdigitLimit s := by rw [hq]; rfl
  have digits : (call id q).digits = (call id s).digits := by rw [hq]; rfl
  rw [produce_of_due d.due, ended, takeDigit_eq tables dials, limit, digits, ← hq]
  have entry' : ∀ n f, point (2048 + cord) (enter (.ctl c) n (modCall id f q)) =
      { point (2048 + cord) s with pulses := 0, pending := none } := fun n f => by
    rw [point_enter, point_modCall, entry]
  refine rearm_self ((tables.modCall _ _).enter _ _).points ?_
  rw [entry', armed_oEnd_of_loop d.range (by rw [entry']; exact d.looped) (.inl (by rw [entry']))]

/-! ## The sample that ends a break (R29) -/

/-- The O point of a dialling call shows OPEN, and the LOOP sampled next is accepted (R21). -/
structure BreakEnds (cord id : Nat) (s : Part) : Prop where
  range : cord < 96
  named : callOfElem (.cord cord) s = some id
  joined : (call id s).set.cord = some cord
  dialling : (call id s).state = .dialling
  kept : (call id s).relPending = false
  silent : (call id s).lineSpeaks = false
  opened : (point (2048 + cord) s).accepted = .open_
  run : (point (2048 + cord) s).run = 1

/-- The sample that ends a break of an O point is classified as R29 has it. -/
theorem samplePoint_break {cord id : Nat} (b : BreakEnds cord id s) :
    samplePoint [] (2048 + cord) true s =
      rearm (2048 + cord) (breakEnded id cord ((point (2048 + cord) s).duration - 2 + 1)
        (modPoint (2048 + cord) (ScanEntry.looped 2) s)) := by
  have sample : sampleState (2048 + cord) true s = .loop := by rw [sampleState_oEnd b.range]; rfl
  have two : persistence (2048 + cord) (point (2048 + cord) s) s = 2 := by
    simp [persistence, b.opened, pointKind_oEnd b.range]
  have takes := takesDigits_of_dialling b.dialling b.kept
  rw [samplePoint_accepts (by rw [sample, b.opened]; decide) (by rw [two, b.run]) (by rw [b.run]; decide), sample,
    acceptChange_loop b.opened, b.run]
  simp [classify, pointKind_oEnd b.range, oChange, b.named, b.joined, b.silent, takes]

/-- A break under 20 scans is a pulse, counted up to 11, and arms DIGIT END (R29, R30). -/
theorem samplePoint_pulse {cord id : Nat} (h : TablesOk s) (b : BreakEnds cord id s)
    (hb : (point (2048 + cord) s).duration - 1 < 20) :
    samplePoint [] (2048 + cord) true s =
      modPoint (2048 + cord)
        (fun e => { e.looped 2 with pulses := min (e.pulses + 1) 11, pending := some .digitEnd }) s := by
  have short : (point (2048 + cord) s).duration - 2 + 1 < 20 := by omega
  obtain ⟨u, hu⟩ : ∃ u, u = modPoint (2048 + cord)
      (fun e => { e.looped 2 with pulses := min (e.pulses + 1) 11 }) s := ⟨_, rfl⟩
  have pulse : breakEnded id cord ((point (2048 + cord) s).duration - 2 + 1)
      (modPoint (2048 + cord) (ScanEntry.looped 2) s) = u := by
    rw [breakEnded, if_pos short, hu]
    exact modPoint_modPoint _ _ _ h.points
  have entry : point (2048 + cord) u =
      { (point (2048 + cord) s).looped 2 with pulses := min ((point (2048 + cord) s).pulses + 1) 11 } :=
    hu ▸ point_modPoint h _ _
  have one : 1 ≤ min ((point (2048 + cord) s).pulses + 1) 11 := by omega
  have record : call id u = call id s := by rw [hu, call_modPoint]
  have event : armed (2048 + cord) u = some .digitEnd := by
    have named : callOfElem (.cord cord) u = some id := by rw [hu, callOfElem_modPoint, b.named]
    simp [armed, pointKind_oEnd b.range, named, record, b.joined, b.silent, b.dialling, entry, ScanEntry.looped]
  rw [samplePoint_break b, pulse, rearm_eq, event, hu, modPoint_modPoint _ _ _ h.points]

/-- A break of 20 scans or more drops the pulse count, with DIGIT FAULT under 50 (R29). -/
theorem samplePoint_long_break {cord id : Nat} (h : TablesOk s) (b : BreakEnds cord id s)
    (hb : 20 ≤ (point (2048 + cord) s).duration - 1) {u : Part}
    (hu : u = modPoint (2048 + cord) (fun e => { e.looped 2 with pulses := 0 }) s) :
    samplePoint [] (2048 + cord) true s =
      rearm (2048 + cord) (if (point (2048 + cord) s).duration - 1 < 50 then digitFault id u else u) := by
  have length : (point (2048 + cord) s).duration - 2 + 1 = (point (2048 + cord) s).duration - 1 := by omega
  have dropped : modPoint (oPoint cord) (fun e => { e with pulses := 0 })
      (modPoint (2048 + cord) (ScanEntry.looped 2) s) = u := by
    rw [hu]
    exact modPoint_modPoint _ _ _ h.points
  rw [samplePoint_break b, length, breakEnded, if_neg (Nat.not_lt.mpr hb), dropped]

/-- The sample that ends a break leaves every other point alone. -/
theorem point_samplePoint_break {cord id p : Nat} (h : TablesOk s) (b : BreakEnds cord id s)
    (hp : p ≠ 2048 + cord) : point p (samplePoint [] (2048 + cord) true s) = point p s := by
  by_cases hb : (point (2048 + cord) s).duration - 1 < 20
  · rw [samplePoint_pulse h b hb, point_modPoint_of_ne hp]
  · rw [samplePoint_long_break h b (Nat.not_lt.mp hb) rfl, rearm_eq, point_modPoint_of_ne hp]
    split
    · rw [point_congr (congrArg Scanner.points (scan_digitFault id _)), point_modPoint_of_ne hp]
    · rw [point_modPoint_of_ne hp]

end Sys2Proof.Machine
end

section
/-!
PROOFS. DIGIT END and the end of a break (O42): the clauses put together.
-/

namespace Sys2Proof.Machine

/-- What the sample that ends a mutilated break comes to (R29): the count is dropped, with DIGIT FAULT. -/
theorem mutilated_break {s : Part} {cord id : Nat} {c : Ctl} (h : TablesOk s) (b : BreakEnds cord id s)
    (g : OwnerTakes id c s) (h20 : 20 ≤ (point (2048 + cord) s).duration - 1)
    (h50 : (point (2048 + cord) s).duration - 1 < 50) :
    samplePoint [] (2048 + cord) true s =
      enter (.ctl c) (.call .digitFault id [b8 id])
        (modCall id (fun r => { r with timer := some { kind := .interdigit, limit := interdigitLimit s } })
          (modPoint (2048 + cord) (fun e => { e.looped 2 with pulses := 0 }) s)) := by
  obtain ⟨u, hu⟩ : ∃ u, u = modPoint (2048 + cord) (fun e => { e.looped 2 with pulses := 0 }) s := ⟨_, rfl⟩
  have tables : TablesOk u := hu ▸ h.modPoint _ _
  have entry : point (2048 + cord) u = { (point (2048 + cord) s).looped 2 with pulses := 0 } :=
    hu ▸ point_modPoint h _ _
  have dials : Dials id c u := by
    subst hu
    exact ⟨b.dialling, b.kept, ⟨g.owner, g.pend, by rw [io_modPoint]; exact g.room⟩⟩
  have limit : interdigitLimit u = interdigitLimit s := by rw [hu]; rfl
  rw [samplePoint_long_break h b h20 hu, if_pos h50, digitFault_eq dials, limit, ← hu]
  have entry' : ∀ n f, point (2048 + cord) (enter (.ctl c) n (modCall id f u)) =
      { (point (2048 + cord) s).looped 2 with pulses := 0 } := fun n f => by
    rw [point_enter, point_modCall, entry]
  refine rearm_self ((tables.modCall _ _).enter _ _).points ?_
  rw [entry', armed_oEnd_of_loop b.range (by rw [entry']; rfl) (.inl (by rw [entry']))]
  rfl

/-- What the sample that ends a break of 50 scans or more comes to (R29): the count alone is dropped. -/
theorem clearing_break {s : Part} {cord id : Nat} (h : TablesOk s) (b : BreakEnds cord id s)
    (h50 : 50 ≤ (point (2048 + cord) s).duration - 1) :
    samplePoint [] (2048 + cord) true s = modPoint (2048 + cord) (fun e => { e.looped 2 with pulses := 0 }) s := by
  obtain ⟨u, hu⟩ : ∃ u, u = modPoint (2048 + cord) (fun e => { e.looped 2 with pulses := 0 }) s := ⟨_, rfl⟩
  have entry : point (2048 + cord) u = { (point (2048 + cord) s).looped 2 with pulses := 0 } :=
    hu ▸ point_modPoint h _ _
  rw [samplePoint_long_break h b (by omega) hu, if_neg (Nat.not_lt.mpr h50), ← hu]
  refine rearm_self (hu ▸ wf_modPoint _ _ h.points) ?_
  rw [entry, armed_oEnd_of_loop b.range (by rw [entry]; rfl) (.inl (by rw [entry]))]
  rfl

/-- A notice entering the owner's queue, after a change of its call and one of a point. -/
theorem told_modCall_modPoint {s : Part} (h : TablesOk s) (c : Ctl) (n : Notice) (id p : Nat) (f : Call → Call)
    (g : ScanEntry → ScanEntry) :
    let t := enter (.ctl c) n (modCall id f (modPoint p g s))
    call id t = f (call id s) ∧ (∀ x, x ≠ id → call x t = call x s) ∧
      noticesDue (.ctl c) t = noticesDue (.ctl c) s ++ [n] ∧ point p t = g (point p s) ∧
      (∀ x, x ≠ p → point x t = point x s) ∧
      t = { s with calls := t.calls, scan.points := t.scan.points, a := t.a, b := t.b } := by
  intro t
  refine ⟨?_, fun x hx => ?_, ?_, ?_, fun x hx => ?_, ?_⟩
  · rw [call_enter, call_modCall (h.modPoint _ _), call_modPoint]
  · rw [call_enter, call_modCall_of_ne hx, call_modPoint]
  · rw [noticesDue_enter, noticesDue_congr (s := s) (by rw [io_modCall, io_modPoint])]
  · rw [point_enter, point_modCall, point_modPoint h]
  · rw [point_enter, point_modCall, point_modPoint_of_ne hx]
  · cases c <;> rfl

/-- Settles O42: `produce_digitEnd` for the command, and one theorem for each length of a break. -/
theorem digitEnd : Obligations.DigitEnd := by
  refine ⟨?_, ?_⟩
  · intro s cord id c hc h hb hn _ hd hk _ ho hp hq ha hev h25 h1 pulses held digit taken
    have g : Dials id c s.part := ⟨hd, hk, ⟨ho, hp, hq⟩⟩
    have due : eventDue (2048 + cord) s.part = some .digitEnd := by
      rw [eventDue_of_some hev hb]
      exact if_pos h25
    obtain ⟨record, others, told, entry, entries, frame⟩ :=
      told_modCall_modPoint h c (digitNotice id pulses held) id (2048 + cord)
        (Call.dialled pulses (interdigitLimit s.part)) (fun e => { e with pulses := 0, pending := none })
    refine ⟨{ s with part := produce (2048 + cord) s.part }, ?_, rfl, ?_⟩
    · exact congrArg (fun p => (Host.Outcome.next { s with part := p } : Host.Outcome State Fault Refusal))
        (if_pos due : produceEvent (2048 + cord) .digitEnd s.part = _)
    · dsimp only
      rw [produce_digitEnd h g ⟨hc, hn, ha, due⟩]
      exact ⟨record, others, told, entry, entries, frame⟩
  · intro s cord id hc h hn hk hd hr hl ha hrun h1 b t ended
    have g : BreakEnds cord id s := ⟨hc, hn, hk, hd, hr, hl, ha, hrun⟩
    refine ⟨fun p hp => point_samplePoint_break h g hp, fun hb => ?_, fun hb => ?_, fun c h20 h50 ho hp hq => ?_⟩
    · have e : t = _ := samplePoint_pulse h g hb
      rw [e]
      exact ⟨point_modPoint h _ _, rfl⟩
    · have e : t = _ := clearing_break h g hb
      rw [e]
      exact ⟨point_modPoint h _ _, rfl⟩
    · have e : t = _ := mutilated_break h g ⟨ho, hp, hq⟩ h20 h50
      obtain ⟨record, others, told, entry, -, frame⟩ :=
        told_modCall_modPoint h c (.call .digitFault id [b8 id]) id (2048 + cord)
          (fun r => { r with timer := some { kind := .interdigit, limit := interdigitLimit s } })
          (fun e => { e.looped 2 with pulses := 0 })
      rw [e]
      exact ⟨entry, record, others, told, frame⟩

end Sys2Proof.Machine
end

section
/-!
SUPPORT. A scan over the points (R19, R21): what a sample of a point reads, what a scan over steady points does, and a
scan in which one point alone is not steady.
-/

namespace Sys2Proof.Machine

variable {s t u : Part} {inputs : ScanInputs} {later : List Nat}

/-! ## What a sample of a point reads -/

/-- The record of a point's line, the junctions, the cords and the calls are the same in two parts: so is what a sample
of the point reads, but for its entry. -/
structure SeenAlike (p : Nat) (s t : Part) : Prop where
  line : line p t = line p s
  junctions : t.net.junctions = s.net.junctions
  cords : t.net.cords = s.net.cords
  calls : t.calls = s.calls

theorem SeenAlike.trans {p : Nat} (h : SeenAlike p s t) (g : SeenAlike p t u) : SeenAlike p s u :=
  ⟨g.line.trans h.line, g.junctions.trans h.junctions, g.cords.trans h.cords, g.calls.trans h.calls⟩

theorem LineStep.seenAlike {lt p : Nat} (g : LineStep lt s t) (hp : p ≠ lt) : SeenAlike p s t :=
  ⟨g.lines p hp, by rw [g.frame], by rw [g.frame], by rw [g.frame]⟩

theorem SeenAlike.cord {p : Nat} (g : SeenAlike p s t) (c : Nat) : elem (.cord c) t = elem (.cord c) s := by
  simp only [elem, g.cords]

theorem SeenAlike.updated {p : Nat} (g : SeenAlike p s t) : updated p t = updated p s := by
  unfold Machine.updated
  cases k : pointKind p with
  | line lt =>
    obtain rfl := pointKind_eq_line k
    simp only [linePointSpeaks, g.line, call_congr g.calls]
  | oEnd c => simp only [g.cord]
  | tEnd c => simp only [g.cord]
  | coin c => simp only [g.cord]
  | junction j => simp only [junction_congr g.junctions]

theorem SeenAlike.sampleState {p : Nat} (g : SeenAlike p s t) (bit : Bool) :
    sampleState p bit t = sampleState p bit s := by
  have polarity : sensesPolarity p t = sensesPolarity p s := by
    unfold sensesPolarity
    simp only [junction_congr g.junctions]
  rw [Machine.sampleState, Machine.sampleState, polarity]

theorem SeenAlike.steadyAt {p : Nat} (g : SeenAlike p s t) (e : point p t = point p s) (h : SteadyAt inputs p s) :
    SteadyAt inputs p t := by
  obtain ⟨quiet, same⟩ := h
  refine ⟨by rw [e, quiet], fun hu => ?_⟩
  rw [g.sampleState, e]
  exact same (g.updated ▸ hu)

/-! ## A pass over the points that changes their entries alone -/

/-- Only entries of the point table and the point being processed differ (R20). -/
def ScanOnly (s t : Part) : Prop :=
  t = { s with scan := { points := t.scan.points, pos := t.scan.pos, skip := s.scan.skip } }

theorem ScanOnly.refl (s : Part) : ScanOnly s s := rfl

theorem ScanOnly.trans (h : ScanOnly s t) (g : ScanOnly t u) : ScanOnly s u := by
  unfold ScanOnly at h g ⊢
  rw [g, h]

theorem ScanOnly.seenAlike (h : ScanOnly s t) (p : Nat) : SeenAlike p s t :=
  ⟨line_congr (by rw [h]) p, by rw [h], by rw [h], by rw [h]⟩

theorem ScanOnly.skip (h : ScanOnly s t) : t.scan.skip = s.scan.skip := by rw [h]

/-- The updated points of a list have had a change `g` of their entries, and nothing else has changed. -/
structure Swept (g : ScanEntry → ScanEntry) (l : List Nat) (s t : Part) : Prop where
  frame : ScanOnly s t
  canonical : Table.wf {} t.scan.points = true
  entry : ∀ p, point p t = if p ∈ l ∧ updated p s = true then g (point p s) else point p s

/-- A pass over a list of different points, each step of which changes the entry of its own point if that is updated,
has changed the entries of those points. -/
theorem swept_foldl {f : Part → Nat → Part} {g : ScanEntry → ScanEntry} {l : List Nat} (hl : l.Nodup)
    (h : Table.wf {} s.scan.points = true)
    (hf : ∀ p ∈ l, ∀ u, ScanOnly s u → Table.wf {} u.scan.points = true → point p u = point p s →
      Swept g [p] u (f u p)) : Swept g l s (l.foldl f s) := by
  induction l generalizing s with
  | nil => exact ⟨.refl s, h, fun p => by simp⟩
  | cons p l ih =>
    obtain ⟨hp, hl⟩ := List.nodup_cons.mp hl
    have first : Swept g [p] s (f s p) := hf p (by simp) s (.refl s) h rfl
    have kept : ∀ x, x ≠ p → point x (f s p) = point x s := fun x hx => by
      rw [first.entry, if_neg (by simp [hx])]
    have rest : Swept g l (f s p) (l.foldl f (f s p)) := by
      refine ih hl first.canonical fun x hx u hu hw he => ?_
      have hne : x ≠ p := fun e => hp (e ▸ hx)
      exact hf x (by simp [hx]) u (first.frame.trans hu) hw (he.trans (kept x hne))
    refine ⟨first.frame.trans rest.frame, rest.canonical, fun x => ?_⟩
    rw [List.foldl_cons, rest.entry, (first.frame.seenAlike x).updated]
    by_cases hx : x = p
    · subst hx
      rw [if_neg (fun k => hp k.1), first.entry]
      simp
    · rw [kept x hx]
      simp [hx]

/-- One point of a pass: an updated one has its entry changed, another is passed over. -/
theorem swept_one {p : Nat} {g : ScanEntry → ScanEntry} {x : Option Nat} (h : Table.wf {} s.scan.points = true) :
    Swept g [p] s
      (if updated p s = true then modPoint p g { s with scan.pos := x } else { s with scan.pos := x }) := by
  split
  · next hu =>
    refine ⟨rfl, wf_modPoint _ _ h, fun y => ?_⟩
    by_cases hy : y = p
    · subst hy
      rw [if_pos ⟨by simp, hu⟩]
      exact Table.get_put_same h
    · rw [if_neg (by simp [hy])]
      exact Table.get_put_ne hy
  · next hu =>
    refine ⟨rfl, h, fun y => ?_⟩
    rw [if_neg]
    · rfl
    · rintro ⟨hy, hz⟩
      obtain rfl := List.mem_singleton.mp hy
      exact hu hz

/-! ## The points of a scan (R19, R39) -/

theorem mem_allPoints {p : Nat} : p ∈ allPoints ↔ p < 2384 := List.mem_range

theorem nodup_allPoints : allPoints.Nodup := List.nodup_range

/-- The points before one point of a scan, and those behind it. -/
structure PointsAround (lt : Nat) (as bs : List Nat) : Prop where
  split : allPoints = as ++ lt :: bs
  nodupBefore : as.Nodup
  nodupBehind : bs.Nodup
  notBefore : lt ∉ as
  notBehind : lt ∉ bs
  apart : ∀ p, p ∈ as → p ∉ bs
  range : ∀ p, p < 2384 ↔ p ∈ as ∨ p = lt ∨ p ∈ bs

theorem exists_pointsAround {lt : Nat} (h : lt < 2384) : ∃ as bs, PointsAround lt as bs := by
  obtain ⟨as, bs, split⟩ := List.append_of_mem (mem_allPoints.mpr h)
  have nodup := nodup_allPoints
  rw [split, List.nodup_append, List.nodup_cons] at nodup
  obtain ⟨nodupA, ⟨notB, nodupB⟩, apart⟩ := nodup
  refine ⟨as, bs, split, nodupA, nodupB, fun hm => apart lt hm lt (by simp) rfl, notB,
    fun p ha hb => apart p ha p (by simp [hb]) rfl, fun p => ?_⟩
  rw [← mem_allPoints, split, List.mem_append, List.mem_cons]

/-- One point of a scan, with no hand-over before it. -/
theorem scanPoint_eq {p : Nat} (hk : s.scan.skip = []) :
    scanPoint inputs later s p =
      if updated p s = true then samplePoint later p (inputs.getLsbD p) { s with scan.pos := some p }
      else { s with scan.pos := some p } := by
  have alike : updated p { s with scan.pos := some p } = updated p s := SeenAlike.updated ⟨rfl, rfl, rfl, rfl⟩
  have counts : s.scan.skip.contains p = false := by rw [hk]; rfl
  show (if updated p { s with scan.pos := some p } && !s.scan.skip.contains p then _ else _) = _
  rw [alike, counts, Bool.not_false, Bool.and_true]

/-- A sample of a steady point counts the accepted state. -/
theorem samplePoint_steady {p : Nat} (h : Table.wf {} s.scan.points = true) (g : SteadyAt inputs p s)
    (hu : updated p s = true) :
    samplePoint later p (inputs.getLsbD p) s = modPoint p ScanEntry.counted s := by
  obtain ⟨quiet, same⟩ := g
  rw [samplePoint_same (same hu)]
  exact produceUnless_of_none (by rw [point_modPoint_eq _ _ _ h, if_pos rfl]; exact quiet)

/-- A scan over steady points counts the accepted state of those updated (R21). -/
theorem swept_scan {l : List Nat} (hl : l.Nodup) (h : Table.wf {} s.scan.points = true) (hk : s.scan.skip = [])
    (hs : ∀ p ∈ l, SteadyAt inputs p s) :
    Swept ScanEntry.counted l s (l.foldl (scanPoint inputs later) s) := by
  refine swept_foldl hl h fun p hp u hu hw he => ?_
  have steady : SteadyAt inputs p { u with scan.pos := some p } :=
    SeenAlike.steadyAt (s := s) ⟨(hu.seenAlike p).line, (hu.seenAlike p).junctions, (hu.seenAlike p).cords,
      (hu.seenAlike p).calls⟩ he (hs p hp)
  have alike : updated p { u with scan.pos := some p } = updated p u := SeenAlike.updated ⟨rfl, rfl, rfl, rfl⟩
  have step := swept_one (p := p) (g := ScanEntry.counted) (x := some p) hw
  rw [scanPoint_eq (hu.skip.trans hk)]
  by_cases hup : updated p u = true
  · rw [if_pos hup] at step ⊢
    rw [samplePoint_steady (by exact hw) steady (alike.trans hup)]
    exact step
  · rw [if_neg hup] at step ⊢
    exact step

/-- With no event due at any of them, no event of the points of a list is produced. -/
theorem foldl_produce_of_not_due {l : List Nat} (h : ∀ p ∈ l, eventDue p s = none) :
    l.foldl (fun s p => produce p s) s = s := by
  induction l with
  | nil => rfl
  | cons p l ih =>
    rw [List.foldl_cons, produce_of_not_due (h p (by simp))]
    exact ih fun x hx => h x (by simp [hx])

/-- The points sampled in ascending order, and the scan's own state put away (R19). -/
def scanned (inputs : ScanInputs) (later : List Nat) (s : Part) : Part :=
  let t := allPoints.foldl (scanPoint inputs later) s
  { t with scan := { points := t.scan.points, pos := none, skip := [] } }

/-- A scan outside a freeze takes the events left over, and samples the points. -/
theorem exec_scan {s : State} {q : Part} (hb : s.part.supply.battery ≠ .rideThrough)
    (hq : allPoints.foldl (fun s p => produce p s) s.part = q) :
    exec (.scan inputs later) s = .next { s with part := scanned inputs later q } := by
  have running : scanInstant inputs later s.part = scanned inputs later q := by
    have hfr : frozen s.part = false := by simp [frozen, hb]
    simp only [scanInstant, hfr, hq]
    rfl
  exact congrArg (fun p => (Host.Outcome.next { s with part := p } : Host.Outcome State Fault Refusal)) running

/-! ## One point that is not steady -/

/-- A scan of a part whose points are all steady (R21). -/
theorem scanned_steady (h : TablesOk s) (hk : s.scan.skip = []) (hs : ∀ p, p < 2384 → SteadyAt inputs p s) :
    let t := scanned inputs later s
    t = { s with scan := { points := t.scan.points, pos := none, skip := [] } } ∧
      ∀ p, point p t =
        if p < 2384 ∧ updated p s = true then (point p s).counted else point p s := by
  have sweep := swept_scan (later := later) nodup_allPoints h.points hk fun p hp => hs p (mem_allPoints.mp hp)
  obtain ⟨v, hv⟩ : ∃ v, v = allPoints.foldl (scanPoint inputs later) s := ⟨_, rfl⟩
  rw [← hv] at sweep
  have whole : scanned inputs later s = { v with scan := { points := v.scan.points, pos := none, skip := [] } } := by
    rw [hv]
    rfl
  rw [whole]
  refine ⟨?_, fun p => ?_⟩
  · rw [sweep.frame]
  · refine (sweep.entry p).trans ?_
    simp only [mem_allPoints]

/-- What a scan comes to in which a line's point alone was not steady: `r` is the part after the sample at that point,
and every other point was counted. -/
structure ScannedAround (lt : Nat) (s r t : Part) : Prop where
  after : t = { r with scan := { points := t.scan.points, pos := none, skip := [] } }
  frame : t = { s with
    net.lines := t.net.lines, scan := { points := t.scan.points, pos := none, skip := [] }
    orig.request := t.orig.request }
  lines : ∀ x, x ≠ lt → line x t = line x s
  here : point lt t = point lt r
  others : ∀ p, p ≠ lt → point p t =
    if p < 2384 ∧ updated p s = true then (point p s).counted else point p s

theorem ScannedAround.net {lt : Nat} {r : Part} (g : ScannedAround lt s r t) : t.net = r.net := by rw [g.after]

theorem ScannedAround.orig {lt : Nat} {r : Part} (g : ScannedAround lt s r t) : t.orig = r.orig := by rw [g.after]

theorem ScannedAround.line {lt : Nat} {r : Part} (g : ScannedAround lt s r t) : line lt t = line lt r :=
  line_congr (congrArg _ g.net) lt

/-- The server's request, where the sample at the line's point was a retry trigger (R47). -/
theorem ScannedAround.request {lt : Nat} {r : Part} (g : ScannedAround lt s (retry r) t) :
    t.orig.request = (chooseWork t).map (Work.worst t) := by
  have same : SameWork (retry r) t := by
    refine ⟨g.net, ?_, ?_, ?_, ?_, ?_, fun c => ?_, fun x => ?_, fun x => ?_, fun x => ?_, fun x => ?_⟩
    all_goals rw [g.after]
    · cases c <;> rfl
    all_goals rfl
  rw [same.request, g.orig, retry_request]

/-- A part that a scan has reached at a point: the entries of others have changed, and nothing else. -/
structure Reached (lt : Nat) (s q : Part) : Prop where
  frame : ScanOnly s q
  tables : TablesOk q
  entry : point lt q = point lt s

/-- The points before one have been counted when a scan reaches it. -/
theorem exists_reached {lt : Nat} {l : List Nat} (hl : l.Nodup) (hlt : lt ∉ l) (h : TablesOk s)
    (hk : s.scan.skip = []) (hs : ∀ p ∈ l, SteadyAt inputs p s) (hup : updated lt s = true) :
    ∃ q, Reached lt s q ∧ Swept ScanEntry.counted l s q ∧
      scanPoint inputs later (l.foldl (scanPoint inputs later) s) lt =
        samplePoint later lt (inputs.getLsbD lt) q := by
  have before := swept_scan (inputs := inputs) (later := later) hl h.points hk hs
  obtain ⟨v, hv⟩ : ∃ v, v = l.foldl (scanPoint inputs later) s := ⟨_, rfl⟩
  rw [← hv] at before ⊢
  have sweep : Swept ScanEntry.counted l s { v with scan.pos := some lt } :=
    ⟨before.frame.trans rfl, before.canonical, before.entry⟩
  refine ⟨_, ⟨sweep.frame, ?_, ?_⟩, sweep, ?_⟩
  · rw [sweep.frame]
    exact { h with points := sweep.canonical }
  · rw [sweep.entry, if_neg fun k => hlt k.1]
  · rw [scanPoint_eq (before.frame.skip.trans hk), if_pos ((before.frame.seenAlike lt).updated.trans hup)]

/-- A scan over points that are all steady but for one updated line's, at which the sample changes its line, its entry
and the server's request alone. -/
theorem scanned_around {lt : Nat} (hlt : lt < 2048) (h : TablesOk s) (hk : s.scan.skip = [])
    (hs : ∀ p, p < 2384 → p ≠ lt → SteadyAt inputs p s) (hup : updated lt s = true)
    (step : ∀ q, Reached lt s q → LineStep lt q (samplePoint later lt (inputs.getLsbD lt) q)) :
    ∃ q, Reached lt s q ∧
      ScannedAround lt s (samplePoint later lt (inputs.getLsbD lt) q) (scanned inputs later s) := by
  obtain ⟨as, bs, ⟨split, nodupA, nodupB, notA, notB, apart, range⟩⟩ :=
    exists_pointsAround (Nat.lt_of_lt_of_le hlt (by decide) : lt < 2384)
  obtain ⟨q, reached, before, turn⟩ := exists_reached (later := later) nodupA notA h hk
    (fun p hp => hs p ((range p).mpr (.inl hp)) fun e => notA (e ▸ hp)) hup
  have stepQ := step q reached
  have tables := (low_samplePoint (later := later) (p := lt) (bit := inputs.getLsbD lt) (Low.refl q)).tablesOk
    reached.tables
  obtain ⟨r, hr⟩ : ∃ r, r = samplePoint later lt (inputs.getLsbD lt) q := ⟨_, rfl⟩
  rw [← hr] at stepQ tables turn
  have alike : ∀ p, p ≠ lt → SeenAlike p s r := fun p hp => (before.frame.seenAlike p).trans (stepQ.seenAlike hp)
  have entries : ∀ p, p ≠ lt → point p r =
      if p ∈ as ∧ updated p s = true then (point p s).counted else point p s := fun p hp => by
    rw [stepQ.entries p hp, before.entry]
  have steady : ∀ p ∈ bs, SteadyAt inputs p r := fun p hp => by
    have hne : p ≠ lt := fun e => notB (e ▸ hp)
    refine (alike p hne).steadyAt ?_ (hs p ((range p).mpr (.inr (.inr hp))) hne)
    rw [entries p hne, if_neg fun k => apart p k.1 hp]
  have skip : r.scan.skip = [] := by
    rw [stepQ.frame]
    exact before.frame.skip.trans hk
  have rest := swept_scan (later := later) nodupB tables.points skip steady
  obtain ⟨w, hw⟩ : ∃ w, w = bs.foldl (scanPoint inputs later) r := ⟨_, rfl⟩
  rw [← hw] at rest
  have whole : scanned inputs later s = { w with scan := { points := w.scan.points, pos := none, skip := [] } } := by
    rw [scanned, split, List.foldl_append, List.foldl_cons, turn, ← hw]
  refine ⟨q, reached, ?_⟩
  rw [whole, ← hr]
  refine ⟨?_, ?_, fun x hx => ?_, ?_, fun p hp => ?_⟩
  · rw [rest.frame]
  · rw [rest.frame, stepQ.frame, before.frame]
  · exact ((rest.frame.seenAlike x).line).trans (alike x hx).line
  · exact (rest.entry lt).trans (if_neg fun k => notB k.1)
  · refine (rest.entry p).trans ?_
    rw [(alike p hp).updated, entries p hp]
    by_cases ha : p ∈ as
    · have hb : p ∉ bs := apart p ha
      simp [range, ha, hb]
    · simp [range, ha, hp]

end Sys2Proof.Machine
end

section
/-!
PROOFS. SCAN (O40): a frozen scan, a steady one, one in order, one with a seizure, and one with a PARK END come due.
-/

namespace Sys2Proof.Machine

variable {s : Part} {inputs : ScanInputs} {later : List Nat}

/-! ## A scan instant during a freeze (R39) -/

/-- An entry whose run duration a frozen scan instant has raised. -/
def ScanEntry.lengthened (e : ScanEntry) : ScanEntry :=
  { e with duration := if e.duration < 1023 then e.duration + 1 else e.duration }

theorem freezePoint_eq (s : Part) (p : Nat) :
    freezePoint s p = if updated p s = true then modPoint p ScanEntry.lengthened s else s := rfl

/-- A frozen scan instant raises the run durations of the updated points, and does nothing else. -/
theorem swept_freeze (h : Table.wf {} s.scan.points = true) :
    Swept ScanEntry.lengthened allPoints s (allPoints.foldl freezePoint s) ∧
      PointsOnly s (allPoints.foldl freezePoint s) := by
  refine ⟨swept_foldl nodup_allPoints h fun p _ u _ hw _ => ?_, (foldl_points (fun u p => ?_) (fun u p x hx => ?_) _ s).1⟩
  · exact swept_one (x := u.scan.pos) hw
  · rw [freezePoint_eq]
    split <;> rfl
  · rw [freezePoint_eq]
    split
    · exact point_modPoint_of_ne hx _
    · rfl

theorem scan_frozen {s : State} (hb : s.part.supply.battery = .rideThrough) (h : TablesOk s.part) :
    ∃ t, exec (.scan inputs later) s = .next t ∧ t.pending = s.pending ∧
      t.part = { s.part with scan.points := t.part.scan.points } ∧
      ∀ p, point p t.part =
        { point p s.part with
          duration :=
            if p < 2384 ∧ updated p s.part = true ∧ (point p s.part).duration < 1023 then
              (point p s.part).duration + 1
            else (point p s.part).duration } := by
  obtain ⟨sweep, frame⟩ := swept_freeze h.points
  obtain ⟨v, hv⟩ : ∃ v, v = allPoints.foldl freezePoint s.part := ⟨_, rfl⟩
  rw [← hv] at sweep frame
  have instant : scanInstant inputs later s.part = v := by
    have hfr : frozen s.part = true := decide_eq_true hb
    rw [scanInstant, if_pos hfr, hv]
  refine ⟨{ s with part := v }, ?_, rfl, frame, fun p => ?_⟩
  · exact congrArg (fun p => (Host.Outcome.next { s with part := p } : Host.Outcome State Fault Refusal)) instant
  · rw [sweep.entry]
    by_cases hp : p < 2384 ∧ updated p s.part = true
    · obtain ⟨hlt, hup⟩ := hp
      simp [mem_allPoints, hlt, hup, ScanEntry.lengthened]
    · have keep : ¬ (p < 2384 ∧ updated p s.part = true ∧ (point p s.part).duration < 1023) :=
        fun k => hp ⟨k.1, k.2.1⟩
      rw [if_neg (by rwa [mem_allPoints]), if_neg keep]

/-! ## A scan outside a freeze, point by point (R19, R24) -/

theorem scanPoint_ordered (inputs : ScanInputs) (later : List Nat) :
    scanPoint inputs later = fun q p =>
      let q := { q with scan.pos := some p }
      if updated p q = true ∧ p ∉ q.scan.skip then samplePoint later p (inputs.getLsbD p) q else q := by
  funext q p
  simp [scanPoint]

/-- A scan with no event due before it. -/
theorem exec_scan_of_not_due {s : State} (hb : s.part.supply.battery ≠ .rideThrough)
    (hd : ∀ p, p < 2384 → eventDue p s.part = none) :
    exec (.scan inputs later) s = .next { s with part := scanned inputs later s.part } :=
  exec_scan hb (foldl_produce_of_not_due fun p hp => hd p (mem_allPoints.mp hp))

/-! ## A line's point at a scan (R26, R28) -/

/-- The point of a line that is not BUSY OUT, UNEQUIPPED or in a call is updated (R23). -/
theorem updated_line {lt : Nat} (hl : lt < 2048) (hc : (line lt s).cls ≠ .unequipped)
    (ha : (line lt s).admin ≠ .busyOut) (hs : ∀ id, (line lt s).sup ≠ .inCall id) : updated lt s = true := by
  have speaks : linePointSpeaks lt s = true := by
    cases k : (line lt s).sup with
    | inCall id => exact absurd k (hs id)
    | idle => simp [linePointSpeaks, k]
    | originating => simp [linePointSpeaks, k]
    | parked => simp [linePointSpeaks, k]
  simp [updated, pointKind_line hl, Line.out, hc, ha, speaks]

theorem Reached.line {lt : Nat} {q : Part} (g : Reached lt s q) : line lt q = line lt s :=
  (g.frame.seenAlike lt).line

/-- A scan that accepts the seizure of a line, every other point being steady (R26, R47). -/
theorem scanned_seizure {lt : Nat} (h : TablesOk s) (hk : s.scan.skip = []) (g : LineWaits lt s)
    (hc : (line lt s).cls ≠ .unequipped) (ha : (line lt s).admin ≠ .busyOut)
    (hs : ∀ p, p < 2384 → p ≠ lt → SteadyAt inputs p s) (hi : inputs.getLsbD lt = true)
    (hr : (frame (lt / 64) s).seize ≤ (point lt s).run + 1) (ht : (point lt s).run + 1 ≤ 15) :
    let t := scanned inputs later s
    ∃ r, ScannedAround lt s r t ∧ line lt t = (line lt s).seized ∧
      point lt t = (point lt s).looped ((point lt s).run + 1) ∧
      t.orig.request = (chooseWork t).map (Work.worst t) := by
  intro t
  have sample : ∀ q, Reached lt s q → samplePoint later lt (inputs.getLsbD lt) q =
      retry (modLine lt Line.seized (modPoint lt (ScanEntry.looped ((point lt s).run + 1)) q)) := fun q hq => by
    have waits : LineWaits lt q :=
      ⟨g.range, by rw [hq.line]; exact g.idle, by rw [hq.entry]; exact g.opened, by rw [hq.entry]; exact g.quiet⟩
    have frames : frame (lt / 64) q = frame (lt / 64) s := frame_congr (by rw [hq.frame]) _
    rw [hi, samplePoint_seizes hq.tables waits (by rw [frames, hq.entry]; exact hr) (by rw [hq.entry]; exact ht),
      hq.entry]
  have hup : updated lt s = true := updated_line g.range hc ha fun id => by rw [g.idle]; exact nofun
  obtain ⟨q, hq, around⟩ := scanned_around (later := later) g.range h hk hs hup fun q hq => by
    rw [sample q hq]
    exact (lineStep_modLine lt _ _).retry
  rw [sample q hq] at around
  refine ⟨_, around, ?_, ?_, ?_⟩
  · rw [around.line, line_retry, line_modLine (hq.tables.modPoint _ _), line_modPoint, hq.line]
  · rw [around.here, point_retry, point_modLine, point_modPoint hq.tables, hq.entry]
  · exact around.request

/-! ## PARK END within a scan (R22, R28) -/

/-- A PARKED line whose point shows OPEN with PARK END armed, at a scan that samples OPEN. -/
structure Parks (inputs : ScanInputs) (lt : Nat) (s : Part) : Prop where
  range : lt < 2048
  equipped : (line lt s).cls ≠ .unequipped
  inUse : (line lt s).admin ≠ .busyOut
  parked : (line lt s).sup = .parked
  opened : (point lt s).accepted = .open_
  armed : (point lt s).pending = some .parkEnd
  sample : inputs.getLsbD lt = false
  running : s.supply.battery ≠ .rideThrough

theorem Parks.updated {lt : Nat} (g : Parks inputs lt s) : updated lt s = true :=
  updated_line g.range g.equipped g.inUse fun id => by rw [g.parked]; exact nofun

/-- The sample that brings the OPEN of a PARKED line to its 25th scan counts it, and PARK END is taken unless it is
left to its own command. -/
theorem samplePoint_parks {lt : Nat} (h : TablesOk s) (g : Parks inputs lt s) (hd : (point lt s).duration = 24) :
    samplePoint later lt (inputs.getLsbD lt) s =
      if lt ∈ later then modPoint lt ScanEntry.counted s
      else modLine lt (fun l => { l with sup := .idle })
        (modPoint lt (fun e => { e.counted with pending := none }) s) := by
  have same : sampleState lt (inputs.getLsbD lt) s = (point lt s).accepted := by
    rw [sampleState_line g.range, g.sample, g.opened]
    rfl
  rw [samplePoint_same same, produceUnless]
  split
  · rfl
  · have entry : point lt (modPoint lt ScanEntry.counted s) = (point lt s).counted := point_modPoint h lt _
    have due : eventDue lt (modPoint lt ScanEntry.counted s) = some .parkEnd := by
      rw [eventDue_parkEnd (s := modPoint lt ScanEntry.counted s) (by rw [entry]; exact g.armed) g.running, entry,
        if_pos]
      simp [ScanEntry.counted, hd]
    rw [produce_parkEnd g.range due (by rw [line_modPoint, g.parked]), modPoint_modPoint _ _ _ h.points]

/-- What a scan at a PARKED line comes to, every other point being steady. -/
structure ScannedParked (lt : Nat) (s t : Part) : Prop where
  lines : ∀ x, x ≠ lt → line x t = line x s
  others : ∀ p, p ≠ lt → point p t =
    if p < 2384 ∧ updated p s = true then (point p s).counted else point p s
  frame : t = { s with
    net.lines := t.net.lines, scan := { points := t.scan.points, pos := none, skip := [] } }

/-- The scan that brings the OPEN of a PARKED line to its 25th scan. -/
theorem scanned_parks {lt : Nat} (h : TablesOk s) (hk : s.scan.skip = []) (g : Parks inputs lt s)
    (hs : ∀ p, p < 2384 → p ≠ lt → SteadyAt inputs p s) (hd : (point lt s).duration = 24) :
    let t := scanned inputs later s
    ScannedParked lt s t ∧
      (lt ∈ later → line lt t = line lt s ∧ point lt t = (point lt s).counted) ∧
      (lt ∉ later → line lt t = { line lt s with sup := .idle } ∧
        point lt t = { (point lt s).counted with pending := none }) := by
  intro t
  have still : ∀ q, Reached lt s q → Parks inputs lt q ∧ (point lt q).duration = 24 := fun q hq => by
    refine ⟨⟨g.range, ?_, ?_, ?_, ?_, ?_, g.sample, ?_⟩, by rw [hq.entry, hd]⟩
    · rw [hq.line]; exact g.equipped
    · rw [hq.line]; exact g.inUse
    · rw [hq.line]; exact g.parked
    · rw [hq.entry]; exact g.opened
    · rw [hq.entry]; exact g.armed
    · rw [hq.frame]; exact g.running
  have sample : ∀ q, Reached lt s q → _ := fun q hq =>
    samplePoint_parks (later := later) hq.tables (still q hq).1 (still q hq).2
  obtain ⟨q, hq, around⟩ := scanned_around (later := later) g.range h hk hs g.updated fun q hq => by
    rw [sample q hq]
    split
    · exact lineStep_modPoint lt _
    · exact lineStep_modLine lt _ _
  rw [sample q hq] at around
  have request : t.orig.request = s.orig.request := by
    have e : q.orig = s.orig := by rw [hq.frame]
    rw [around.orig, ← e]
    split <;> rfl
  refine ⟨⟨around.lines, around.others, ?_⟩, fun hm => ?_, fun hm => ?_⟩
  · have e := around.frame
    rw [request] at e
    exact e
  · rw [if_pos hm] at around
    exact ⟨by rw [around.line, line_modPoint, hq.line], by rw [around.here, point_modPoint hq.tables, hq.entry]⟩
  · rw [if_neg hm] at around
    refine ⟨?_, ?_⟩
    · rw [around.line, line_modLine (hq.tables.modPoint _ _), line_modPoint, hq.line]
    · rw [around.here, point_modLine, point_modPoint hq.tables, hq.entry]

/-- The part after a PARK END that an earlier scan left to its own command. -/
def parkEnded (lt : Nat) (s : Part) : Part :=
  modLine lt (fun l => { l with sup := .idle }) (modPoint lt (fun e => { e with pending := none }) s)

theorem point_parkEnded (h : TablesOk s) (lt p : Nat) :
    point p (parkEnded lt s) = if p = lt then { point lt s with pending := none } else point p s :=
  Table.get_put h.points

/-- Before the points are sampled, a PARK END left over is the only event produced (R22). -/
theorem foldl_produce_parkEnd {lt : Nat} (h : TablesOk s) (g : Parks inputs lt s)
    (hs : ∀ p, p < 2384 → p ≠ lt → SteadyAt inputs p s) (hd : 25 ≤ (point lt s).duration) :
    allPoints.foldl (fun s p => produce p s) s = parkEnded lt s := by
  obtain ⟨as, bs, around⟩ := exists_pointsAround (Nat.lt_of_lt_of_le g.range (by decide) : lt < 2384)
  have before : ∀ p ∈ as, eventDue p s = none := fun p hp =>
    eventDue_of_none (hs p ((around.range p).mpr (.inl hp)) fun e => around.notBefore (e ▸ hp)).1
  have behind : ∀ p ∈ bs, eventDue p (parkEnded lt s) = none := fun p hp => by
    have hne : p ≠ lt := fun e => around.notBehind (e ▸ hp)
    have quiet := (hs p ((around.range p).mpr (.inr (.inr hp))) hne).1
    exact eventDue_of_none (by rw [point_parkEnded h, if_neg hne]; exact quiet)
  have due : eventDue lt s = some .parkEnd := by rw [eventDue_parkEnd g.armed g.running, if_pos hd]
  rw [around.split, List.foldl_append, List.foldl_cons, foldl_produce_of_not_due before,
    produce_parkEnd g.range due g.parked]
  exact foldl_produce_of_not_due behind

/-- The scan after a PARK END left over finds the line IDLE, and every point steady. -/
theorem scanned_parkEnded {lt : Nat} (h : TablesOk s) (hk : s.scan.skip = []) (g : Parks inputs lt s)
    (hs : ∀ p, p < 2384 → p ≠ lt → SteadyAt inputs p s) :
    let t := scanned inputs later (parkEnded lt s)
    ScannedParked lt s t ∧ line lt t = { line lt s with sup := .idle } ∧
      point lt t = { (point lt s).counted with pending := none } := by
  obtain ⟨q, hq⟩ : ∃ q, q = parkEnded lt s := ⟨_, rfl⟩
  have tables : TablesOk q := hq ▸ (h.modPoint _ _).modLine _ _
  have idle : line lt q = { line lt s with sup := .idle } := hq ▸ line_modLine (h.modPoint _ _) lt _
  have entry : point lt q = { point lt s with pending := none } := by
    rw [hq, point_parkEnded h, if_pos rfl]
  have lines : ∀ x, x ≠ lt → line x q = line x s := fun x hx => hq ▸ line_modLine_of_ne hx _
  have entries : ∀ p, p ≠ lt → point p q = point p s := fun p hp => by
    rw [hq, point_parkEnded h, if_neg hp]
  have alike : ∀ p, p ≠ lt → SeenAlike p s q := fun p hp =>
    ⟨lines p hp, by rw [hq]; rfl, by rw [hq]; rfl, by rw [hq]; rfl⟩
  have skip : q.scan.skip = [] := by rw [hq]; exact hk
  have steady : ∀ p, p < 2384 → SteadyAt inputs p q := fun p hp => by
    by_cases e : p = lt
    · subst e
      refine ⟨by rw [entry], fun _ => ?_⟩
      rw [sampleState_line g.range, g.sample, entry, g.opened]
      rfl
    · exact (alike p e).steadyAt (entries p e) (hs p hp e)
  have hup : updated lt q = true := by
    refine updated_line g.range ?_ ?_ fun id => ?_
    · rw [idle]; exact g.equipped
    · rw [idle]; exact g.inUse
    · rw [idle]; exact nofun
  obtain ⟨frame, counted⟩ := scanned_steady (later := later) tables skip steady
  rw [← hq]
  obtain ⟨t, ht⟩ : ∃ t, t = scanned inputs later q := ⟨_, rfl⟩
  rw [← ht] at frame counted ⊢
  have record : ∀ x, line x t = line x q := line_congr (by rw [frame])
  refine ⟨⟨fun x hx => (record x).trans (lines x hx), fun p hp => ?_, ?_⟩, (record lt).trans idle, ?_⟩
  · rw [counted, (alike p hp).updated, entries p hp]
  · rw [frame, hq]
    rfl
  · rw [counted, if_pos ⟨Nat.lt_of_lt_of_le g.range (by decide), hup⟩, entry]
    rfl

/-! ## The statement -/

/-- Settles O40, by one theorem for each kind of scan. -/
theorem scan : Obligations.Scan := by
  refine ⟨fun s inputs later hb h => scan_frozen hb h, ?_, ?_⟩
  · intro s inputs later hb hd sampled
    have e : sampled = allPoints.foldl (scanPoint inputs later) s.part := by
      rw [scanPoint_ordered]
      rfl
    rw [e]
    exact exec_scan_of_not_due hb hd
  · intro s inputs later hb h hk after
    refine ⟨fun hs => ?_, fun lt hl hc ha ho hs => ⟨?_, ?_⟩⟩
    · obtain ⟨frame, counted⟩ := scanned_steady (later := later) h hk hs
      exact ⟨_, exec_scan_of_not_due hb fun p hp => eventDue_of_none (hs p hp).1, rfl, frame, counted⟩
    · intro hi hn hbit run hr ht
      have g : LineWaits lt s.part := ⟨hl, hi, ho, hn⟩
      have quiet : ∀ p, p < 2384 → eventDue p s.part = none := fun p hp => by
        by_cases e : p = lt
        · exact eventDue_of_none (e ▸ hn)
        · exact eventDue_of_none (hs p hp e).1
      obtain ⟨r, around, seized, entry, request⟩ := scanned_seizure (later := later) h hk g hc ha hs hbit hr ht
      refine ⟨_, exec_scan_of_not_due hb quiet, rfl, seized, around.lines, ?_, around.others, ?_⟩
      · rw [entry, ScanEntry.looped, ← hn]
      · have f := around.frame
        rw [request] at f
        exact f
    · intro hp hn hbit d hd
      have g : Parks inputs lt s.part := ⟨hl, hc, ha, hp, ho, hn, hbit, hb⟩
      by_cases h24 : d = 24
      · have quiet : ∀ p, p < 2384 → eventDue p s.part = none := fun p hp => by
          by_cases e : p = lt
          · have young : ¬ 25 ≤ (point lt s.part).duration := by omega
            rw [e, eventDue_parkEnd hn hb, if_neg young]
          · exact eventDue_of_none (hs p hp e).1
        have counted : (point lt s.part).counted = { point lt s.part with run := 0, duration := 25 } := by
          have e : (point lt s.part).duration = 24 := h24
          simp [ScanEntry.counted, e]
        obtain ⟨scanned, left, taken⟩ := scanned_parks (later := later) h hk g hs h24
        refine ⟨_, exec_scan_of_not_due hb quiet, rfl, fun k => ?_, fun k => ?_, scanned.lines, scanned.others,
          scanned.frame⟩
        · rw [← counted]
          exact left k.2
        · exact taken (k.elim (fun k => k.2) fun k => by omega)
      · have d25 : 25 ≤ d := by omega
        obtain ⟨scanned, idle, entry⟩ := scanned_parkEnded (later := later) h hk g hs
        exact ⟨_, exec_scan hb (foldl_produce_parkEnd h g hs d25), rfl, fun k => absurd k.1 h24, fun _ => ⟨idle, entry⟩,
          scanned.lines, scanned.others, scanned.frame⟩

end Sys2Proof.Machine
end

section
/-!
PROOFS. The wait limit of a queued origin (R52).
-/

namespace Sys2Proof.Machine

variable {s : Part}

/-! ## When a wait has reached its limit -/

theorem waitDue_of_reached {w : WaitEntry} (hm : w ∈ s.orig.queue) (hr : w.limit ≤ w.wait) :
    waitDue w.origin s = true :=
  List.any_eq_true.mpr ⟨w, hm, by simp [hr]⟩

/-- An origin whose only entry has not reached its limit has no wait that is due. -/
theorem waitDue_of_early {w : WaitEntry} (hu : ∀ x ∈ s.orig.queue, x.origin = w.origin → x = w)
    (he : w.wait < w.limit) : waitDue w.origin s = false := by
  refine List.any_eq_false.mpr fun x hx hd => ?_
  obtain ⟨ho, hl⟩ : x.origin = w.origin ∧ x.limit ≤ x.wait := by simpa using hd
  obtain rfl := hu x hx ho
  omega

theorem exec_waitLimitExpiry {s : State} {o : Party} {q : Part} (h : expireWait o s.part = q) :
    exec (.waitLimitExpiry o) s = .next { s with part := q } :=
  congrArg (fun p => (Host.Outcome.next { s with part := p } : Host.Outcome State Fault Refusal)) h

/-! ## The origin leaves the queue (R52, R53) -/

/-- An origin is given up: the line is PARKED, or the junction HELD UNSERVED, and its entry leaves the queue. -/
def waitEnded (o : Party) (s : Part) : Part :=
  dequeue o
    (match o with
      | .line lt => modLine lt (fun l => { l with sup := .parked }) s
      | .junction j => modJunction j (fun r => { r with sup := .heldUnserved }) s)

theorem expireWait_of_due {o : Party} (h : waitDue o s = true) :
    expireWait o s = watch (partyPoint o) (waitEnded o s) := by
  unfold expireWait
  rw [if_pos h]
  rfl

theorem tablesOk_waitEnded (h : TablesOk s) (o : Party) : TablesOk (waitEnded o s) := by
  cases o with
  | line lt => exact (h.modLine _ _).dequeue _
  | junction j => exact (h.modJunction _ _).dequeue _

theorem queue_waitEnded (o : Party) (s : Part) :
    (waitEnded o s).orig.queue = s.orig.queue.filter (fun w => decide (w.origin ≠ o)) := by
  cases o <;> exact queue_dequeue _ _

theorem line_waitEnded (h : TablesOk s) (o : Party) (lt : Nat) :
    line lt (waitEnded o s) = if o = .line lt then { line lt s with sup := .parked } else line lt s := by
  cases o with
  | line x => by_cases e : x = lt <;> simp [waitEnded, h.lines, e, eq_comm (a := lt)]
  | junction j => simp [waitEnded]

theorem junction_waitEnded (h : TablesOk s) (o : Party) (j : Nat) :
    junction j (waitEnded o s) =
      if o = .junction j then { junction j s with sup := .heldUnserved } else junction j s := by
  cases o with
  | line lt => simp [waitEnded]
  | junction x => by_cases e : x = j <;> simp [waitEnded, h.junctions, e, eq_comm (a := j)]

theorem point_waitEnded (o : Party) (s : Part) (p : Nat) : point p (waitEnded o s) = point p s := by
  cases o <;> simp [waitEnded]

/-- Everything that the giving up of an origin changes. -/
theorem waitEnded_frame (o : Party) (s : Part) :
    waitEnded o s = { s with
      net.lines := (waitEnded o s).net.lines, net.junctions := (waitEnded o s).net.junctions
      orig.queue := (waitEnded o s).orig.queue, orig.request := (waitEnded o s).orig.request } := by
  cases o <;> (unfold waitEnded; rw [dequeue_eq]; rfl)

theorem PointsOnly.net {t : Part} (h : PointsOnly s t) : t.net = s.net := by rw [h]

/-! ## An event armed afresh (R22, R39) -/

/-- The event of a point that has been armed afresh is due if the accepted state has lasted to its threshold, outside a
freeze. -/
theorem eventDue_rearm (h : TablesOk s) (p : Nat) :
    eventDue p (rearm p s) =
      (armed p s).filter
        (fun ev => decide (ev.threshold ≤ (point p s).duration ∧ s.supply.battery ≠ .rideThrough)) := by
  have hp : point p (rearm p s) = { point p s with pending := armed p s } := by rw [rearm_eq, point_modPoint h]
  have hf : frozen (rearm p s) = frozen s := rfl
  unfold eventDue
  rw [hp, hf]
  cases armed p s with
  | none => rfl
  | some ev => simp [frozen, Option.filter_some]

theorem armed_line_parked {lt : Nat} (hl : lt < 2048) (hs : (line lt s).sup = .parked) :
    armed lt s = if (point lt s).accepted = .open_ then some .parkEnd else none := by
  simp only [armed, pointKind_line hl, hs]
  by_cases ha : (point lt s).accepted = .open_ <;> simp [ha]

/-- The event of a junction before service is FAR-END CLEAR. -/
theorem armed_junction_unserved {j : Nat}
    (hs : (junction j s).sup = .originating ∨ (junction j s).sup = .heldUnserved) :
    armed (2336 + j) s = if (point (2336 + j) s).accepted = .open_ then some .farEndClear else none := by
  simp only [armed, pointKind_junction]
  by_cases ha : (point (2336 + j) s).accepted = .open_ <;> rcases hs with hs | hs <;> simp [ha, hs]

theorem modLine_self {lt : Nat} {f : Line → Line} (h : TablesOk s) (g : f (line lt s) = line lt s) :
    modLine lt f s = s := by
  unfold modLine
  rw [g, line, Table.put_get h.lines]

/-- A PARKED line is watched: PARK END is produced at once after 25 scans of OPEN, and armed before. -/
theorem watch_line_parked {lt : Nat} (h : TablesOk s) (hl : lt < 2048) (hs : (line lt s).sup = .parked) :
    PointsOnly (modLine lt (fun l => { l with
        sup :=
          if (point lt s).accepted = .open_ ∧ 25 ≤ (point lt s).duration ∧ s.supply.battery ≠ .rideThrough then
            .idle
          else .parked }) s) (watch lt s) := by
  have due := eventDue_rearm h lt
  rw [armed_line_parked hl hs] at due
  unfold watch
  split
  · next hc =>
    obtain ⟨ha, hd⟩ := hc
    have hev : eventDue lt (rearm lt s) = some .parkEnd := by
      rw [due, if_pos ha]
      exact Option.filter_some_pos (decide_eq_true hd)
    rw [produce_parkEnd hl hev hs]
    rfl
  · next hc =>
    rw [produce_of_not_due, modLine_self h (by rw [← hs])]
    · rfl
    · rw [due]
      by_cases ha : (point lt s).accepted = .open_
      · rw [if_pos ha]
        exact Option.filter_some_neg (decide_eq_false fun hd => hc ⟨ha, hd⟩)
      · rw [if_neg ha]
        rfl

/-- The point of a HELD UNSERVED junction is watched without effect while FAR-END CLEAR is not due. -/
theorem watch_junction_held {j : Nat} (h : TablesOk s) (hs : (junction j s).sup = .heldUnserved)
    (hd : (point (2336 + j) s).accepted = .open_ →
      (point (2336 + j) s).duration < 50 ∨ s.supply.battery = .rideThrough) :
    watch (2336 + j) s = rearm (2336 + j) s := by
  refine produce_of_not_due ?_
  rw [eventDue_rearm h, armed_junction_unserved (.inr hs)]
  by_cases ha : (point (2336 + j) s).accepted = .open_
  · rw [if_pos ha]
    exact Option.filter_some_neg (decide_eq_false fun hdue => (hd ha).elim (Nat.not_lt.mpr hdue.1) hdue.2)
  · rw [if_neg ha]
    rfl

/-! ## The statement -/

/-- Settles O50: a wait that is not due does nothing; one that is due gives its origin up, and the origin's point is
watched. -/
theorem waitLimitExpires : Obligations.WaitLimitExpires := by
  intro s w h hm hu
  refine ⟨fun he => exec_waitLimitExpiry (if_neg (by simp [waitDue_of_early hu he])), fun hr hline hjunction => ?_⟩
  have ended := expireWait_of_due (waitDue_of_reached hm hr)
  refine ⟨_, exec_waitLimitExpiry ended, rfl, ?_⟩
  have queue := queue_waitEnded w.origin s.part
  have frame := waitEnded_frame w.origin s.part
  have tables := tablesOk_waitEnded h w.origin
  have lines := line_waitEnded h w.origin
  have junctions := junction_waitEnded h w.origin
  have points := point_waitEnded w.origin s.part
  dsimp only
  generalize waitEnded w.origin s.part = v at *
  cases ho : w.origin with
  | line lt =>
    rw [ho] at queue lines junctions
    have only := watch_line_parked tables (hline lt ho) (by rw [lines, if_pos rfl])
    rw [points, show v.supply = s.part.supply by rw [frame]] at only
    rw [show partyPoint (.line lt) = lt from rfl]
    generalize watch lt v = t at only ⊢
    refine ⟨?_, fun x => ?_, fun j => ?_, ?_⟩
    · rw [only]
      exact queue
    · refine (line_congr (congrArg Net.lines only.net) x).trans ?_
      rw [line_modLine_eq _ _ _ tables.lines, lines, lines]
      by_cases e : x = lt
      · simp [e]
      · simp [e, eq_comm (a := lt)]
    · exact (junction_congr (congrArg Net.junctions only.net) j).trans (junctions j)
    · rw [only, frame]
      rfl
  | junction j =>
    rw [ho] at queue lines junctions
    rw [show partyPoint (.junction j) = 2336 + j from rfl,
      watch_junction_held tables (by rw [junctions, if_pos rfl])
        (by rw [points, show v.supply = s.part.supply by rw [frame]]; exact hjunction j ho)]
    refine ⟨queue, lines, junctions, ?_⟩
    rw [frame]
    rfl

end Sys2Proof.Machine
end

section
/-!
SUPPORT. The Origination Server's choice (R45 to R48, R63): the lowest cord of a plane, the planes and the marked
origins in their cyclic order, and the tests of an origin.
-/

namespace Sys2Proof.Machine

variable {s : Part}

/-! ## Lists in the order of a number -/

/-- In a list in rising order of a number, what has a lower number than an entry stands before it. -/
theorem mem_before_of_pairwise {α : Type} {key : α → Nat} {as bs : List α} {a x : α}
    (h : (as ++ a :: bs).Pairwise (fun x y => key x < key y)) (hx : x ∈ as ++ a :: bs) (hk : key x < key a) :
    x ∈ as := by
  obtain ⟨-, hbs, -⟩ := List.pairwise_append.mp h
  rcases List.mem_append.mp hx with hx | hx
  · exact hx
  · rcases List.mem_cons.mp hx with rfl | hx
    · exact absurd hk (Nat.lt_irrefl _)
    · exact absurd ((List.pairwise_cons.mp hbs).1 x hx) (Nat.lt_asymm hk)

/-- The first entry to pass a test, the entries before it failing. -/
theorem find?_of_before {α : Type} {p : α → Bool} {as bs : List α} {a : α} (h : ∀ x ∈ as, p x = false)
    (ha : p a = true) : (as ++ a :: bs).find? p = some a :=
  List.find?_eq_some_iff_append.mpr ⟨ha, as, bs, rfl, fun x hx => by simp [h x hx]⟩

/-! ## The cords of a plane (R2, R3) -/

theorem mem_planeCords {k c : Nat} : c ∈ planeCords k ↔ c / 8 = k := by
  simp only [planeCords, List.mem_map, List.mem_range]
  constructor
  · rintro ⟨i, hi, rfl⟩
    omega
  · intro h
    exact ⟨c % 8, by omega, by omega⟩

theorem lowestCord_eq_some {k c : Nat} :
    lowestCord k s = some c ↔
      c / 8 = k ∧ avail (.cord c) s = true ∧ ∀ x, x / 8 = k → x < c → avail (.cord x) s = false := by
  have rising : (planeCords k).Pairwise (· < ·) :=
    List.pairwise_map.mpr (List.pairwise_lt_range.imp fun h => Nat.add_lt_add_left h _)
  constructor
  · intro h
    obtain ⟨ha, as, bs, hl, hno⟩ := List.find?_eq_some_iff_append.mp h
    refine ⟨mem_planeCords.mp (List.mem_of_find?_eq_some h), ha, fun x hx hlt => ?_⟩
    have hm : x ∈ as :=
      mem_before_of_pairwise (key := id) (hl ▸ rising) (hl ▸ mem_planeCords.mpr hx) hlt
    simpa using hno x hm
  · rintro ⟨hk, ha, hno⟩
    obtain ⟨as, bs, hl⟩ := List.append_of_mem (mem_planeCords.mpr hk)
    unfold lowestCord
    rw [hl] at rising ⊢
    refine find?_of_before (fun x hx => hno x ?_ ?_) ha
    · exact mem_planeCords.mp (hl ▸ List.mem_append_left _ hx)
    · exact (List.pairwise_append.mp rising).2.2 x hx c List.mem_cons_self

theorem lowestCord_eq_none {k : Nat} : lowestCord k s = none ↔ ∀ c, c / 8 = k → avail (.cord c) s = false := by
  simp [lowestCord, mem_planeCords]

theorem lowestCord_isSome {k : Nat} :
    (lowestCord k s).isSome = true ↔ ∃ c, c / 8 = k ∧ avail (.cord c) s = true := by
  simp [lowestCord, mem_planeCords]

/-! ## The path of a line's origin search (R63) -/

/-- How far a plane stands behind a hunt pointer, cyclically. -/
def planesPast (hunt p : Nat) : Nat := (p + 12 - hunt) % 12

theorem planesPast_planesFrom {m i : Nat} (hm : m < 12) (hi : i < 12) : planesPast m ((m + i) % 12) = i := by
  unfold planesPast
  omega

theorem planesFrom_pairwise {m : Nat} (hm : m < 12) :
    (planesFrom m).Pairwise (fun p q => planesPast m p < planesPast m q) := by
  refine List.pairwise_map.mpr (List.pairwise_lt_range.imp_of_mem fun hi hj hij => ?_)
  rw [Config.planes, planesPast_planesFrom hm (List.mem_range.mp hi), planesPast_planesFrom hm (List.mem_range.mp hj)]
  exact hij

theorem mem_planesFrom {m p : Nat} (hm : m < 12) (hp : p < 12) : p ∈ planesFrom m := by
  refine List.mem_map.mpr ⟨planesPast m p, ?_, ?_⟩
  · exact List.mem_range.mpr (Nat.mod_lt _ (by decide))
  · unfold planesPast Config.planes
    omega

/-- A plane has no path for the lines of a frame: the frame's link to it or all its cords are not available. -/
def PlaneShut (f p : Nat) (s : Part) : Prop :=
  avail (.fl (12 * f + p)) s = false ∨ ∀ x, x / 8 = p → avail (.cord x) s = false

theorem planeShut_iff {f p : Nat} :
    (if avail (.fl (flNumber f p)) s then (lowestCord p s).map (fun c => (p, c)) else none) = none ↔
      PlaneShut f p s := by
  rw [PlaneShut, ← lowestCord_eq_none]
  cases h : avail (.fl (12 * f + p)) s <;> simp [flNumber, h]

/-- The path found runs over the first plane from the hunt pointer that has one, by its lowest cord. -/
theorem findOriginPath_found {f k c : Nat} (hm : (frame f s).hunt < 12) (h : findOriginPath f s = some (k, c)) :
    avail (.fl (12 * f + k)) s = true ∧ lowestCord k s = some c ∧
      ∀ p, p < 12 → planesPast (frame f s).hunt p < planesPast (frame f s).hunt k → PlaneShut f p s := by
  obtain ⟨as, a, bs, hl, ha, hno⟩ := List.findSome?_eq_some_iff.mp h
  split at ha
  · next hfl =>
    obtain ⟨x, hx, e⟩ := Option.map_eq_some_iff.mp ha
    obtain ⟨rfl, rfl⟩ := Prod.mk.inj e
    refine ⟨hfl, hx, fun p hp hlt => planeShut_iff.mp (hno p ?_)⟩
    exact mem_before_of_pairwise (hl ▸ planesFrom_pairwise hm) (hl ▸ mem_planesFrom hm hp) hlt
  · exact nomatch ha

theorem findOriginPath_eq_none {f : Nat} (hm : (frame f s).hunt < 12) (h : findOriginPath f s = none) (p : Nat)
    (hp : p < 12) : PlaneShut f p s :=
  planeShut_iff.mp (List.findSome?_eq_none_iff.mp h p (mem_planesFrom hm hp))

/-! ## The handling controller (R44) -/

theorem handling_of_noHome {o : Party} (h : homeOf o s = none) : handling o s = none := by
  simp [handling, h]

theorem handling_of_home {o : Party} {c : Ctl} (h : homeOf o s = some c) :
    handling o s =
      if (ctl c s).present then some c
      else if (ctl (otherCtl c) s).present then some (otherCtl c)
      else none := by
  simp [handling, h]

/-! ## The tests of an origin (R45, R46) -/

theorem lowestFree_isSome : (lowestFree s).isSome = true ↔ ∃ id, id < 128 ∧ (call id s).state = .free := by
  simp [lowestFree, Config.calls]

theorem admitted_line {lt : Nat} :
    admitted (.line lt) s = true ↔
      (line lt s).cls = .essential ∨
        ((line lt s).cls = .ordinary ∨ (line lt s).cls = .coin) ∧ reserveInForce s < cordCount s := by
  cases h : (line lt s).cls <;> simp [admitted, h]

theorem pathExists_line {lt : Nat} :
    pathExists (.line lt) s = true ↔
      ∃ k c, k < 12 ∧ avail (.fl (12 * (lt / 64) + k)) s = true ∧ c / 8 = k ∧ avail (.cord c) s = true := by
  simp only [pathExists, List.any_eq_true, List.mem_range, Config.planes, Bool.and_eq_true, lowestCord_isSome,
    flNumber, lineFrame]
  constructor
  · rintro ⟨k, hk, hfl, c, hc, ha⟩
    exact ⟨k, c, hk, hfl, hc, ha⟩
  · rintro ⟨k, c, hk, hfl, hc, ha⟩
    exact ⟨k, hk, hfl, c, hc, ha⟩

theorem canServe_iff {o : Party} :
    canServe o s = true ↔
      handling o s ≠ none ∧ (∃ id, id < 128 ∧ (call id s).state = .free) ∧ admitted o s = true ∧
        pathExists o s = true := by
  rw [← lowestFree_isSome, Option.ne_none_iff_isSome]
  simp only [canServe, Bool.and_eq_true]
  tauto

/-! ## The marked origins (R48) -/

/-- A listed record that meets a test which the default does not is one that reads so. -/
theorem Table.exists_listed {α : Type} [DecidableEq α] {d : α} {t : Table α} (h : Table.wf d t = true)
    {p : α → Bool} (hd : p d = false) (k : Nat) : (∃ v, (k, v) ∈ t ∧ p v = true) ↔ p (Table.get d t k) = true := by
  constructor
  · rintro ⟨v, hm, hv⟩
    rwa [Table.get_of_mem h hm]
  · intro hv
    exact ⟨_, Table.mem_of_get (fun e => by rw [e, hd] at hv; exact absurd hv (by decide)), hv⟩

/-- Every marked origin, in scan order (R19). -/
def markedInOrder (s : Part) : List Party :=
  (s.net.lines.filter (fun x => x.2.marked)).map (fun x => Party.line x.1) ++
    (s.net.junctions.filter (fun x => x.2.marked)).map (fun x => Party.junction x.1)

theorem markedOrigins_eq (s : Part) :
    markedOrigins s =
      (markedInOrder s).filter (fun o => decide (s.orig.pointer < partyPoint o)) ++
        (markedInOrder s).filter (fun o => decide (partyPoint o ≤ s.orig.pointer)) := rfl

theorem mem_markedInOrder (h : TablesOk s) (o : Party) : o ∈ markedInOrder s ↔ isMarked o s = true := by
  cases o with
  | line lt =>
    refine Iff.trans ?_ (Table.exists_listed h.lines (p := Line.marked) rfl lt)
    simp [markedInOrder]
  | junction j =>
    refine Iff.trans ?_ (Table.exists_listed h.junctions (p := Junction.marked) rfl j)
    simp [markedInOrder]

theorem mem_markedOrigins (h : TablesOk s) (o : Party) : o ∈ markedOrigins s ↔ isMarked o s = true := by
  rw [← mem_markedInOrder h, markedOrigins_eq]
  have either : s.orig.pointer < partyPoint o ∨ partyPoint o ≤ s.orig.pointer := Nat.lt_or_ge _ _
  simp only [List.mem_append, List.mem_filter, decide_eq_true_eq]
  tauto

/-- A part of a canonical table stands in rising order of its numbers. -/
theorem Table.pairwise_filter {α : Type} [DecidableEq α] {d : α} {t : Table α} (h : Table.wf d t = true)
    (p : Nat × α → Bool) : (t.filter p).Pairwise (fun x y => x.1 < y.1) := by
  simp only [Table.wf, Bool.and_eq_true, decide_eq_true_eq] at h
  exact h.1.filter p

theorem markedInOrder_pairwise (h : TablesOk s) (hl : ∀ lt, (line lt s).marked = true → lt < 2048) :
    (markedInOrder s).Pairwise (fun x y => partyPoint x < partyPoint y) := by
  refine List.pairwise_append.mpr ⟨?_, ?_, fun x hx y hy => ?_⟩
  · exact List.pairwise_map.mpr (Table.pairwise_filter h.lines _)
  · exact List.pairwise_map.mpr ((Table.pairwise_filter h.junctions _).imp fun g => Nat.add_lt_add_left g _)
  · obtain ⟨⟨lt, l⟩, hm, rfl⟩ := List.mem_map.mp hx
    obtain ⟨⟨j, r⟩, -, rfl⟩ := List.mem_map.mp hy
    obtain ⟨hm, hk⟩ := List.mem_filter.mp hm
    have hlt : lt < 2048 := hl lt ((Table.exists_listed h.lines (p := Line.marked) rfl lt).mp ⟨l, hm, hk⟩)
    simp only [partyPoint, junctionPoint]
    omega

/-- How far a marked origin stands behind the rotating pointer: 0 at the point after it (R48). -/
def pointsPast (pointer : Nat) (o : Party) : Nat := (partyPoint o + 2383 - pointer) % 2384

theorem markedOrigins_pairwise (h : TablesOk s) (hp : s.orig.pointer < 2384)
    (hl : ∀ lt, (line lt s).marked = true → lt < 2048) (hj : ∀ j, (junction j s).marked = true → j < 48) :
    (markedOrigins s).Pairwise (fun x y => pointsPast s.orig.pointer x < pointsPast s.orig.pointer y) := by
  have range : ∀ o ∈ markedInOrder s, partyPoint o < 2384 := fun o ho => by
    have hm := (mem_markedInOrder h o).mp ho
    cases o with
    | line lt => exact Nat.lt_of_lt_of_le (hl lt hm) (by decide)
    | junction j => exact Nat.add_lt_add_left (hj j hm) 2336
  have rising := markedInOrder_pairwise h hl
  rw [markedOrigins_eq]
  simp only [pointsPast]
  refine List.pairwise_append.mpr ⟨?_, ?_, fun x hx y hy => ?_⟩
  · refine (rising.filter _).imp_of_mem fun hx hy hxy => ?_
    have := range _ (List.mem_of_mem_filter hy)
    have := of_decide_eq_true (List.mem_filter.mp hx).2
    omega
  · refine (rising.filter _).imp_of_mem fun hx hy hxy => ?_
    have := range _ (List.mem_of_mem_filter hy)
    have := of_decide_eq_true (List.mem_filter.mp hy).2
    omega
  · have := range _ (List.mem_of_mem_filter hx)
    have := of_decide_eq_true (List.mem_filter.mp hx).2
    have := of_decide_eq_true (List.mem_filter.mp hy).2
    omega

/-! ## The work chosen (R48) -/

theorem rehuntReady_iff {x : Rehunt} :
    rehuntReady x s = true ↔
      x.made = false ∧ (call x.call s).term = none ∧ (call x.call s).set.tjunction = none := by
  simp [rehuntReady, and_assoc]

theorem find?_rehunts_of_none (h : ∀ y ∈ s.orig.rehunts, rehuntReady y s = false) :
    s.orig.rehunts.find? (fun e => rehuntReady e s) = none :=
  List.find?_eq_none.mpr fun y hy => by simp [h y hy]

theorem find?_queue_of_none (h : ∀ w ∈ s.orig.queue, canServe w.origin s = false) :
    s.orig.queue.find? (fun w => canServe w.origin s) = none :=
  List.find?_eq_none.mpr fun w hw => by simp [h w hw]

theorem markedCandidate_eq_false {o : Party}
    (h : handling o s = none ∨ canServe o s = false ∧ 64 ≤ s.orig.queue.length) : markedCandidate o s = false := by
  rcases h with h | ⟨h, hq⟩
  · simp [markedCandidate, h]
  · simp [markedCandidate, h, Config.waitPlaces, Nat.not_lt.mpr hq]

/-- The oldest re-hunt that is ready comes first. -/
theorem chooseWork_rehunt {pre post : List Rehunt} {x : Rehunt} (hl : s.orig.rehunts = pre ++ x :: post)
    (hpre : ∀ y ∈ pre, rehuntReady y s = false) (hx : rehuntReady x s = true) :
    chooseWork s = some (.rehunt x) := by
  have found : s.orig.rehunts.find? (fun e => rehuntReady e s) = some x := hl ▸ find?_of_before hpre hx
  simp [chooseWork, found]

/-- Then comes the first queued origin that can be served. -/
theorem chooseWork_queued {pre post : List WaitEntry} {w : WaitEntry}
    (hr : ∀ y ∈ s.orig.rehunts, rehuntReady y s = false) (hl : s.orig.queue = pre ++ w :: post)
    (hpre : ∀ y ∈ pre, canServe y.origin s = false) (hw : canServe w.origin s = true) :
    chooseWork s = some (.serve w.origin) := by
  have found : s.orig.queue.find? (fun w => canServe w.origin s) = some w := hl ▸ find?_of_before hpre hw
  simp [chooseWork, find?_rehunts_of_none hr, found]

/-- Last comes the first marked candidate, which is served if it can be and queued if not. -/
theorem chooseWork_marked {pre post : List Party} {x : Party}
    (hr : ∀ y ∈ s.orig.rehunts, rehuntReady y s = false) (hq : ∀ w ∈ s.orig.queue, canServe w.origin s = false)
    (hl : markedOrigins s = pre ++ x :: post) (hpre : ∀ y ∈ pre, markedCandidate y s = false)
    (hx : markedCandidate x s = true) :
    chooseWork s = some (if canServe x s then .serve x else .enqueue x) := by
  have found : (markedOrigins s).find? (fun o => markedCandidate o s) = some x := hl ▸ find?_of_before hpre hx
  simp [chooseWork, find?_rehunts_of_none hr, find?_queue_of_none hq, found]

/-- An origin that can be served has a handling controller, so that it is a candidate. -/
theorem markedCandidate_of_canServe {o : Party} (h : canServe o s = true) : markedCandidate o s = true := by
  have hh := Option.ne_none_iff_isSome.mp (canServe_iff.mp h).1
  simp [markedCandidate, h, hh]

theorem markedCandidate_of_room {o : Party} (hh : handling o s ≠ none) (hq : s.orig.queue.length < 64) :
    markedCandidate o s = true := by
  simp [markedCandidate, Option.ne_none_iff_isSome.mp hh, Config.waitPlaces, hq]

end Sys2Proof.Machine
end

section
/-!
SUPPORT. An origin served (R49, R63, R64): the record allocated, the search that places its orders, and the clear taken
after it (log entry 49).
-/

namespace Sys2Proof.Machine

variable {s t u : Part} {o : Party} {id : Nat}

/-! ## A grant to the Origination Server (R48, R60) -/

/-- The server has been granted, and its request is cleared for the choice of its work. -/
def serverGranted (s : Part) : Part :=
  { s with arb.last := s.arb.last.set s.timers.prioServer .server, orig.request := none }

theorem sameWork_serverGranted (s : Part) : SameWork s (serverGranted s) :=
  ⟨rfl, rfl, rfl, rfl, rfl, rfl, fun c => by cases c <;> rfl, fun _ => rfl, fun _ => rfl, fun _ => rfl, fun _ => rfl⟩

/-- A grant that serves an origin; the server then tests for its next request. -/
theorem grant_serves (hg : grantee s = some .server) (hr : s.orig.request = some 2)
    (hc : chooseWork s = some (.serve o)) : grant s = retry (serve o (serverGranted s)) := by
  have work : chooseWork (serverGranted s) = some (.serve o) := (sameWork_serverGranted s).chooseWork.trans hc
  have granted : grant s = grantServer 2 (recordGrant .server s) := by
    unfold grant
    rw [hg]
    simp [requestOf, hr]
  rw [granted]
  unfold grantServer
  dsimp only
  rw [show ({ recordGrant .server s with
    orig := { (recordGrant .server s).orig with request := none } } : Part) = serverGranted s from rfl, work]
  rfl

/-! ## The record allocated (R49, R86) -/

/-- The record `id` is allocated to an origin, whose mark or queue entry goes. -/
def allocated (o : Party) (id : Nat) (s : Part) : Part :=
  let t := modCall id (fun _ => newCall o s) (advancePointer o s)
  unmark o { t with orig.queue := t.orig.queue.filter (fun w => decide (w.origin ≠ o)) }

theorem serve_eq (h : lowestFree s = some id) :
    serve o s = produce (partyPoint o) (originSearch id false (rearm (partyPoint o) (allocated o id s))) := by
  unfold serve
  rw [h]
  rfl

/-- Everything that the allocation changes. -/
theorem allocated_frame (o : Party) (id : Nat) (s : Part) :
    allocated o id s = { s with
      net := (unmark o s).net, calls := (allocated o id s).calls
      orig := { s.orig with
        queue := s.orig.queue.filter (fun w => decide (w.origin ≠ o))
        pointer := if isMarked o s then partyPoint o else s.orig.pointer } } := by
  have pointer : advancePointer o s =
      { s with orig.pointer := if isMarked o s then partyPoint o else s.orig.pointer } := by
    unfold advancePointer
    split <;> rfl
  unfold allocated
  rw [pointer]
  cases o <;> rfl

theorem calls_allocated (o : Party) (id : Nat) (s : Part) :
    (allocated o id s).calls = (modCall id (fun _ => newCall o s) s).calls := by
  have hc : (advancePointer o s).calls = s.calls := by
    unfold advancePointer
    split <;> rfl
  cases o <;> (unfold allocated modCall call; rw [hc]; rfl)

theorem tablesOk_allocated (h : TablesOk s) (o : Party) (id : Nat) : TablesOk (allocated o id s) :=
  have advanced : TablesOk (advancePointer o s) := (low_advancePointer (Low.refl s)).tablesOk h
  (low_unmark (low_with_orig (Low.refl _) _)).tablesOk (advanced.modCall _ _)

theorem call_allocated (h : TablesOk s) (o : Party) (id x : Nat) :
    call x (allocated o id s) = if x = id then newCall o s else call x s := by
  rw [call_congr (calls_allocated o id s), call_modCall_eq _ _ _ h.calls]

/-- A search that finds no record has none that meets the test. -/
theorem not_of_findCall_eq_none {p : Call → Bool} (hp : p {} = false) (h : findCall p s = none) (x : Nat) :
    p (call x s) = false := by
  by_contra hx
  have hx : p (call x s) = true := by simpa using hx
  have hm : (x, call x s) ∈ s.calls :=
    Table.mem_of_get (fun e => by rw [show call x s = {} from e, hp] at hx; exact absurd hx (by decide))
  exact absurd hx (List.find?_eq_none.mp (Option.map_eq_none_iff.mp h) _ hm)

/-- A record alone names its origin, where no call did. -/
theorem callOf_of_new (h : TablesOk t) (hn : callOf o s = none) (hid : (call id t).namesParty o = true)
    (hx : ∀ x, x ≠ id → call x t = call x s) : callOf o t = some id := by
  refine (findCall_eq_some h.calls rfl).mpr ⟨hid, fun x hlt => ?_⟩
  rw [hx x (Nat.ne_of_lt hlt)]
  exact not_of_findCall_eq_none rfl hn x

theorem namesParty_newCall (o : Party) (s : Part) : (newCall o s).namesParty o = true := by
  cases o <;> simp [newCall, Call.namesParty, Call.active]

/-! ## The clear of an origin in setting up (R22, R27, R98) -/

/-- The event of the point of an origin in setting up. -/
def clearEvent : Party → ScanEvent
  | .line _ => .callerClear
  | .junction _ => .farEndClear

/-- An origin is ORIGINATING. -/
def Originating (o : Party) (s : Part) : Prop :=
  match o with
  | .line lt => lt < 2048 ∧ (line lt s).sup = .originating
  | .junction j => (junction j s).sup = .originating

theorem Originating.of_net {t : Part} (h : Originating o s) (hn : t.net = s.net) : Originating o t := by
  cases o with
  | line lt => exact ⟨h.1, (congrArg Line.sup (line_congr (congrArg Net.lines hn) lt)).trans h.2⟩
  | junction j => exact (congrArg Junction.sup (junction_congr (congrArg Net.junctions hn) j)).trans h

theorem armed_originating (h : Originating o s) (hc : callOf o s = some id) :
    armed (partyPoint o) s = if (point (partyPoint o) s).accepted = .open_ then some (clearEvent o) else none := by
  cases o with
  | line lt =>
    obtain ⟨hl, hs⟩ := h
    simp only [armed, partyPoint, pointKind_line hl, hs, hc, clearEvent]
    by_cases ha : (point lt s).accepted = .open_ <;> simp [ha]
  | junction j => exact armed_junction_unserved (.inl h)

theorem takeEvent_originating (h : Originating o s) (hc : callOf o s = some id) :
    takeEvent (partyPoint o) (clearEvent o) s = takeRelease id .callerCleared s := by
  cases o with
  | line lt => simp [takeEvent, partyPoint, pointKind_line h.1, clearEvent, hc, clearCaller]
  | junction j =>
    have hs : (junction j s).sup = .originating := h
    simp [takeEvent, partyPoint, junctionPoint, pointKind_junction, clearEvent, clearFarEnd, hs, hc, clearCaller]

/-- An origin's OPEN has lasted as long as its clear asks for, outside a freeze (R22, R39). -/
abbrev ClearReached (o : Party) (s : Part) : Prop :=
  (point (partyPoint o) s).accepted = .open_ ∧ 50 ≤ (point (partyPoint o) s).duration ∧
    s.supply.battery ≠ .rideThrough

/-- The record of a call whose origin has cleared while its orders are in the table (R81, R98). -/
def Call.clearing (c : Call) : Call :=
  { c with reason := some .callerCleared, timer := none, charging := false, relPending := true }

/-- A call's search has placed its orders, and its origin's point has been armed. -/
structure SearchPlaced (o : Party) (id : Nat) (u : Part) : Prop where
  tables : TablesOk u
  originating : Originating o u
  named : callOf o u = some id
  active : (call id u).active = true
  unreleased : (call id u).released = false
  orders : ordersOf id u ≠ []
  armed : (point (partyPoint o) u).pending =
    if (point (partyPoint o) u).accepted = .open_ then some (clearEvent o) else none

/-- The clear of an origin is produced if it is due: the release of the call is pending then. -/
theorem produce_clear (g : SearchPlaced o id u) (hw : ClearReached o u → Unawaited id u) :
    let t := produce (partyPoint o) u
    call id t = (if ClearReached o u then (call id u).clearing else call id u) ∧
      (∀ x, x ≠ id → call x t = call x u) ∧
      point (partyPoint o) t = { point (partyPoint o) u with
        pending :=
          if (point (partyPoint o) u).accepted = .open_ ∧ ¬ ClearReached o u then some (clearEvent o) else none } ∧
      (∀ p, p ≠ partyPoint o → point p t = point p u) ∧
      t = { u with calls := t.calls, scan.points := t.scan.points } := by
  intro t
  have threshold : (clearEvent o).threshold = 50 := by cases o <;> rfl
  by_cases hc : ClearReached o u
  · have ⟨ha, h50, hb⟩ := hc
    obtain ⟨v, hv⟩ : ∃ v, v = modPoint (partyPoint o) (fun e => { e with pending := none }) u := ⟨_, rfl⟩
    have due : eventDue (partyPoint o) u = some (clearEvent o) := by
      rw [eventDue_of_some (by rw [g.armed, if_pos ha]) hb, threshold, if_pos h50]
    have ht : t = takeRelease id .callerCleared v := by
      refine (produce_of_due due).trans ?_
      rw [← hv]
      exact takeEvent_originating (g.originating.of_net (by rw [hv]; rfl)) (by rw [hv]; exact g.named)
    have hcall : ∀ x, call x v = call x u := fun x => by rw [hv, call_modPoint]
    have release := takesRelease_takeRelease (s := v) (id := id) (hv ▸ g.tables.modPoint _ _)
      ⟨by rw [hcall]; exact g.active, by rw [hcall]; exact g.unreleased, hv ▸ hw hc⟩ .callerCleared
    rw [← ht] at release
    obtain ⟨only, record, others⟩ := release.1 (by rw [hv]; exact g.orders)
    have points : ∀ p, point p t = point p v := fun p => point_congr (by rw [only]) p
    refine ⟨?_, fun x hx => (others x hx).trans (hcall x), ?_, fun p hp => ?_, ?_⟩
    · rw [record, hcall, if_pos hc]
      rfl
    · rw [points, hv, point_modPoint g.tables, if_neg fun k => k.2 hc]
    · rw [points, hv, point_modPoint_of_ne hp]
    · rw [only, hv]
      rfl
  · have same : t = u := by
      refine produce_of_not_due ?_
      by_cases ha : (point (partyPoint o) u).accepted = .open_
      · have hp : (point (partyPoint o) u).pending = some (clearEvent o) := by rw [g.armed, if_pos ha]
        simp only [eventDue, hp, threshold]
        refine if_neg fun k => hc ⟨ha, k.1, ?_⟩
        simpa [frozen] using k.2
      · exact eventDue_of_none (by rw [g.armed, if_neg ha])
    rw [same]
    have pending : (point (partyPoint o) u).pending =
        if (point (partyPoint o) u).accepted = .open_ ∧ ¬ ClearReached o u then some (clearEvent o) else none := by
      rw [g.armed]
      simp only [hc, not_false_eq_true, and_true]
    refine ⟨(if_neg hc).symm, fun _ _ => rfl, ?_, fun _ _ => rfl, rfl⟩
    rw [← pending]

/-! ## The part in which an origin search begins (R22, R49) -/

/-- The server has been granted, the record is allocated and the origin's point is armed. -/
def served (o : Party) (id : Nat) (s : Part) : Part :=
  rearm (partyPoint o) (allocated o id (serverGranted s))

theorem tablesOk_serverGranted (h : TablesOk s) : TablesOk (serverGranted s) := { h with }

theorem tablesOk_served (h : TablesOk s) (o : Party) (id : Nat) : TablesOk (served o id s) := by
  rw [served, rearm_eq]
  exact (tablesOk_allocated (tablesOk_serverGranted h) o id).modPoint _ _

theorem served_frame (o : Party) (id : Nat) (s : Part) :
    served o id s = { s with
      net := (unmark o s).net, calls := (served o id s).calls, scan.points := (served o id s).scan.points
      arb.last := s.arb.last.set s.timers.prioServer .server
      orig := {
        queue := s.orig.queue.filter (fun w => decide (w.origin ≠ o))
        pointer := if isMarked o s then partyPoint o else s.orig.pointer
        rehunts := s.orig.rehunts
        request := none } } := by
  have e : served o id s = { allocated o id (serverGranted s) with
      scan.points := (served o id s).scan.points } := rfl
  rw [allocated_frame] at e
  cases o <;> exact e

theorem call_served (h : TablesOk s) (o : Party) (id x : Nat) :
    call x (served o id s) = if x = id then newCall o s else call x s := by
  refine (call_allocated (tablesOk_serverGranted h) o id x).trans ?_
  cases o <;> rfl

theorem originating_unmark (ht : TablesOk s) (h : Originating o s) (o' : Party) : Originating o (unmark o' s) := by
  cases o with
  | line lt =>
    obtain ⟨hl, hs⟩ := h
    cases o' with
    | line x =>
      refine ⟨hl, ?_⟩
      by_cases e : lt = x <;> simp_all [unmark, ht.lines]
    | junction j => exact ⟨hl, hs⟩
  | junction j =>
    have hs : (junction j s).sup = .originating := h
    cases o' with
    | line x => exact hs
    | junction x => by_cases e : j = x <;> simp_all [Originating, unmark, ht.junctions]

theorem point_served (h : TablesOk s) (ho : Originating o s) (hn : callOf o s = none) (p : Nat) :
    point p (served o id s) =
      if p = partyPoint o then
        { point (partyPoint o) s with
          pending := if (point (partyPoint o) s).accepted = .open_ then some (clearEvent o) else none }
      else point p s := by
  obtain ⟨v, hv⟩ : ∃ v, v = allocated o id (serverGranted s) := ⟨_, rfl⟩
  have frame := hv.trans (allocated_frame o id (serverGranted s))
  have tables : TablesOk v := hv ▸ tablesOk_allocated (tablesOk_serverGranted h) o id
  have record := fun x => hv ▸ call_allocated (tablesOk_serverGranted h) o id x
  have named : callOf o v = some id := by
    refine callOf_of_new (s := s) tables hn ?_ fun x hx => (record x).trans (if_neg hx)
    rw [record, if_pos rfl]
    exact namesParty_newCall o _
  have originating : Originating o v :=
    (originating_unmark h ho o).of_net (by rw [frame]; cases o <;> rfl)
  have points : ∀ q, point q v = point q s := fun q => point_congr (by rw [frame]; rfl) q
  rw [served, ← hv, rearm_eq, point_modPoint_eq _ _ _ tables.points, armed_originating originating named, points,
    points]

end Sys2Proof.Machine
end

section
/-!
SUPPORT. The orders of an origin search (R63, R64): what the search of a line and that of an incoming junction leave of
the records, the elements and the points.
-/

namespace Sys2Proof.Machine

variable {s t u : Part} {o : Party} {id : Nat}

/-! ## The search of a line (R63) -/

section Line

variable {lt m k c : Nat} {again : Bool}

theorem TablesOk.placeOperate (h : TablesOk s) (id : Nat) (x : Xp) : TablesOk (placeOperate id x s) :=
  (h.modCall _ _).place _ _

theorem TablesOk.reserve (h : TablesOk s) (e : ElemId) : TablesOk (reserve e s) := (low_reserve (Low.refl s)).tablesOk h

theorem tablesOk_searchPlaced (h : TablesOk s) : TablesOk (searchPlaced id lt m k c again s) :=
  (((((((h.reserve _).reserve _).modFrame _ _).modCall _ _).modCall _ _).placeOperate _ _).placeOperate _ _)

theorem call_searchPlaced (h : TablesOk s) (x : Nat) :
    call x (searchPlaced id lt m k c again s) =
      if x = id then
        { call id s with
          set := { fl := some m, cord := some c }, op := .origin again, opFailed := false, yielded := false
          xps := setXp (.plane m c .o) .operating (setXp (.line lt m) .operating (call id s).xps) }
      else call x s := by
  by_cases e : x = id <;>
    simp [searchPlaced, pathTaken, placeOperate, beginOp, reserve, setOcc, resetPoint, h.calls, e]

theorem orders_searchPlaced :
    (searchPlaced id lt m k c again s).orders = s.orders ++
      [{ id := s.serial, call := id, act := .operate (.line lt m) },
        { id := s.serial + 1, call := id, act := .operate (.plane m c .o) }] := by
  simp [searchPlaced, pathTaken, placeOperate, beginOp, reserve, setOcc, resetPoint]

theorem elem_searchPlaced (h : TablesOk s) (e : ElemId) :
    elem e (searchPlaced id lt m k c again s) =
      if e = .fl m ∨ e = .cord c then { elem e s with occ := .reserved } else elem e s := by
  by_cases h1 : e = .fl m <;> by_cases h2 : e = .cord c <;>
    simp_all [searchPlaced, pathTaken, placeOperate, beginOp, reserve, setOcc, resetPoint, h.fls, h.cords]

theorem frame_searchPlaced (h : TablesOk s) (f : Nat) :
    frame f (searchPlaced id lt m k c again s) =
      if f = lt / 64 then { frame f s with hunt := (k + 1) % 12 } else frame f s := by
  by_cases e : f = lt / 64 <;>
    simp [searchPlaced, pathTaken, placeOperate, beginOp, reserve, setOcc, resetPoint, h.frames, e]

theorem point_searchPlaced (h : TablesOk s) (p : Nat) :
    point p (searchPlaced id lt m k c again s) =
      if p = 2048 + c ∨ p = 2144 + c ∨ p = 2240 + c then {} else point p s :=
  (show _ = point p (pathTaken m c s) by simp [searchPlaced, placeOperate, beginOp]).trans (point_pathTaken h m c p)

end Line

/-! ## The search of an incoming junction (R64) -/

section Junction

variable {j c : Nat} {again : Bool}

/-- What an origin search of junction `j` brings about with cord `c`. -/
def junctorPlaced (id j c : Nat) (again : Bool) (s : Part) : Part :=
  placeOperate id (.junctor j c .o)
    (modCall id (fun r => { r with set := { junction := some j, cord := some c } })
      (beginOp id (.origin again) (reserve (.cord c) (reserve (.junction j) s))))

theorem originSearch_junction (ho : (call id s).origin = some (.junction j)) (hc : lowestCord (j % 12) s = some c) :
    originSearch id again s = junctorPlaced id j c again s := by
  unfold originSearch
  simp only [ho]
  rw [show junctionPlane j = j % 12 from rfl, hc]
  rfl

theorem tablesOk_junctorPlaced (h : TablesOk s) : TablesOk (junctorPlaced id j c again s) :=
  ((((h.reserve _).reserve _).modCall _ _).modCall _ _).placeOperate _ _

theorem junctorPlaced_frame (id j c : Nat) (again : Bool) (s : Part) :
    junctorPlaced id j c again s = { s with
      orders := s.orders ++ [{ id := s.serial, call := id, act := .operate (.junctor j c .o) }]
      serial := s.serial + 1, calls := (junctorPlaced id j c again s).calls
      net.junctions := (junctorPlaced id j c again s).net.junctions
      net.cords := (junctorPlaced id j c again s).net.cords
      scan.points := (junctorPlaced id j c again s).scan.points } := rfl

theorem call_junctorPlaced (h : TablesOk s) (x : Nat) :
    call x (junctorPlaced id j c again s) =
      if x = id then
        { call id s with
          set := { junction := some j, cord := some c }, op := .origin again, opFailed := false, yielded := false
          xps := setXp (.junctor j c .o) .operating (call id s).xps }
      else call x s := by
  by_cases e : x = id <;>
    simp [junctorPlaced, placeOperate, beginOp, reserve, setOcc, resetPoint, h.calls, e]

theorem junction_junctorPlaced (h : TablesOk s) (x : Nat) :
    junction x (junctorPlaced id j c again s) =
      if x = j then { junction j s with elem := { (junction j s).elem with occ := .reserved } } else junction x s := by
  by_cases e : x = j <;>
    simp [junctorPlaced, placeOperate, beginOp, reserve, setOcc, resetPoint, h.junctions, e]

theorem cord_junctorPlaced (h : TablesOk s) (x : Nat) :
    elem (.cord x) (junctorPlaced id j c again s) =
      if x = c then { elem (.cord c) s with occ := .reserved } else elem (.cord x) s := by
  by_cases e : x = c <;>
    simp [junctorPlaced, placeOperate, beginOp, reserve, setOcc, resetPoint, h.cords, e]

theorem point_junctorPlaced (h : TablesOk s) (p : Nat) :
    point p (junctorPlaced id j c again s) =
      if p = 2048 + c ∨ p = 2144 + c ∨ p = 2240 + c then {} else point p s := by
  have e : (junctorPlaced id j c again s).scan = (pathTaken 0 c s).scan := rfl
  rw [point_congr (congrArg Scanner.points e), point_pathTaken h]

end Junction

/-! ## The search of an origin served, and its clear -/

/-- The record of the call, the orders and the armed event that the search of an origin leaves, so that a clear may
follow. -/
theorem searchPlaced_of (h : TablesOk s) (ho : Originating o s) (hn : callOf o s = none) (hu : TablesOk u)
    (supervised : Originating o u)
    (record : call id u = { newCall o s with
      set := (call id u).set, op := (call id u).op, opFailed := (call id u).opFailed
      yielded := (call id u).yielded, xps := (call id u).xps })
    (others : ∀ x, x ≠ id → call x u = call x s)
    (own : point (partyPoint o) u = point (partyPoint o) (served o id s))
    (orders : ∃ x ∈ u.orders, x.call = id) : SearchPlaced o id u where
  tables := hu
  originating := supervised
  named := by
    refine callOf_of_new (s := s) hu hn ?_ others
    rw [record]
    exact namesParty_newCall o s
  active := by rw [record]; cases o <;> rfl
  unreleased := by rw [record]; cases o <;> rfl
  orders := by
    obtain ⟨x, hx, hc⟩ := orders
    exact List.ne_nil_of_mem (List.mem_filter.mpr ⟨hx, decide_eq_true hc⟩)
  armed := by rw [own, point_served h ho hn, if_pos rfl]

end Sys2Proof.Machine
end

section
/-!
PROOFS. An origin served (R49, R63, R64), the path and the tests of an origin (R44 to R46, R63), and the choice of the
server's work (R48).
-/

namespace Sys2Proof.Machine

variable {s u : Part} {o : Party} {id : Nat}

/-! ## A grant that serves an origin -/

/-- The server is granted for an origin in setting up that no call names, and the record `id` is the lowest FREE. -/
structure ServeGranted (o : Party) (id : Nat) (s : Part) : Prop where
  tables : TablesOk s
  granted : grantee s = some .server
  request : s.orig.request = some 2
  work : chooseWork s = some (.serve o)
  lowest : lowestFree s = some id
  originating : Originating o s
  unnamed : callOf o s = none

/-- What a grant that serves an origin comes to in `t`, from what the search `u` has placed. -/
structure Served (o : Party) (id : Nat) (s u t : Part) : Prop where
  record : call id t = if ClearReached o s then (call id u).clearing else call id u
  others : ∀ x, x ≠ id → call x t = call x s
  own : point (partyPoint o) t = { point (partyPoint o) s with
    pending :=
      if (point (partyPoint o) s).accepted = .open_ ∧ ¬ ClearReached o s then some (clearEvent o) else none }
  points : ∀ p, p ≠ partyPoint o → point p t = point p u
  request : t.orig.request = (chooseWork t).map (Work.worst t)
  frame : t = { u with calls := t.calls, scan.points := t.scan.points, orig.request := t.orig.request }

theorem served_grant (g : ServeGranted o id s) (hu : originSearch id false (served o id s) = u)
    (placed : SearchPlaced o id u) (others : ∀ x, x ≠ id → call x u = call x s)
    (own : point (partyPoint o) u = point (partyPoint o) (served o id s)) (hb : u.supply = s.supply)
    (hw : ClearReached o s → Unawaited id u) : Served o id s u (grant s) := by
  have hg : grant s = retry (produce (partyPoint o) u) := by
    rw [grant_serves g.granted g.request g.work, serve_eq (s := serverGranted s) g.lowest, ← hu]
    rfl
  rw [point_served g.tables g.originating g.unnamed, if_pos rfl] at own
  have reached : ClearReached o u ↔ ClearReached o s := by simp only [ClearReached, own, hb]
  obtain ⟨record, same, here, points, frame⟩ := produce_clear placed fun k => hw (reached.mp k)
  simp only [reached, own] at record here
  rw [hg]
  refine ⟨record, fun x hx => (same x hx).trans (others x hx), here, points, retry_request _, ?_⟩
  generalize produce (partyPoint o) u = t at frame ⊢
  rw [frame]
  rfl

theorem Served.net {t : Part} (g : Served o id s u t) : t.net = u.net := by rw [g.frame]

/-- A call whose clear is due as it is set up: its record beside that of one whose clear is not. -/
theorem clearing_of_new {r : Call} (p : Prop) [Decidable p] (ht : r.timer = none) (hc : r.charging = false)
    (hr : r.reason = none) (hp : r.relPending = false) :
    (if p then r.clearing else r) =
      { r with reason := if p then some .callerCleared else none, relPending := decide p } := by
  by_cases h : p
  · simp only [h, if_true, decide_true, Call.clearing, ← ht, ← hc]
  · simp only [h, if_false, decide_false, ← hr, ← hp]

/-! ## A line is served (R63) -/

section Line

variable {lt k c n : Nat}

/-- The record of a call whose origin search from line `lt` has its orders placed. -/
theorem call_lineServed (h : TablesOk s) (hu : u = searchPlaced id lt n k c false (served (.line lt) id s)) :
    call id u =
      { newCall (.line lt) s with
        set := { fl := some n, cord := some c }, op := .origin false
        xps := [(.line lt n, .operating), (.plane n c .o, .operating)] } := by
  rw [hu, call_searchPlaced (tablesOk_served h _ _), if_pos rfl, call_served h, if_pos rfl]
  rfl

/-- Everything that the search of a line served changes. -/
theorem lineServed_frame (hu : u = searchPlaced id lt n k c false (served (.line lt) id s)) :
    u = { s with
      orders := s.orders ++
        [{ id := s.serial, call := id, act := .operate (.line lt n) },
          { id := s.serial + 1, call := id, act := .operate (.plane n c .o) }]
      serial := s.serial + 2, calls := u.calls, scan.points := u.scan.points
      net := { u.net with
        lines := (modLine lt (fun l => { l with marked := false }) s).net.lines
        routes := s.net.routes, junctions := s.net.junctions }
      arb.last := s.arb.last.set s.timers.prioServer .server
      orig := {
        queue := s.orig.queue.filter (fun w => decide (w.origin ≠ .line lt))
        pointer := if (line lt s).marked then lt else s.orig.pointer
        rehunts := s.orig.rehunts
        request := none } } := by
  have frame := searchPlaced_frame id lt n k c false (served (.line lt) id s)
  rw [orders_searchPlaced, ← hu, served_frame] at frame
  exact frame

/-- The search of a line that is served finds the path that was there. -/
theorem originSearch_served_line (h : TablesOk s) (hf : findOriginPath (lt / 64) s = some (k, c)) :
    originSearch id false (served (.line lt) id s) =
      searchPlaced id lt (12 * (lt / 64) + k) k c false (served (.line lt) id s) := by
  have same : findOriginPath (lt / 64) (served (.line lt) id s) = findOriginPath (lt / 64) s :=
    findOriginPath_congr (t := served (.line lt) id s) (s := modLine lt (fun l => { l with marked := false }) s)
      (by rw [served_frame]; rfl) _
  refine originSearch_line ?_ (same.trans hf)
  rw [call_served h, if_pos rfl]
  rfl

theorem line_lineServed (h : TablesOk s) (hu : u = searchPlaced id lt n k c false (served (.line lt) id s)) (x : Nat) :
    line x u = if x = lt then { line lt s with marked := false } else line x s := by
  have lines : line x u = line x (modLine lt (fun l => { l with marked := false }) s) :=
    line_congr (by rw [lineServed_frame hu]) x
  rw [lines, line_modLine_eq _ _ _ h.lines]

theorem elem_lineServed (h : TablesOk s) (hu : u = searchPlaced id lt n k c false (served (.line lt) id s))
    (e : ElemId) :
    elem e u = if e = .fl n ∨ e = .cord c then { elem e s with occ := .reserved } else elem e s := by
  have same : elem e (served (.line lt) id s) = elem e s :=
    (elem_congr (s := modLine lt (fun l => { l with marked := false }) s) (by rw [served_frame]; rfl) e).trans
      (elem_modLine _ _ _)
  rw [hu, elem_searchPlaced (tablesOk_served h _ _), same]

theorem frame_lineServed (h : TablesOk s) (hu : u = searchPlaced id lt n k c false (served (.line lt) id s))
    (f : Nat) :
    frame f u = if f = lt / 64 then { frame f s with hunt := (k + 1) % 12 } else frame f s := by
  have same : frame f (served (.line lt) id s) = frame f s := frame_congr (by rw [served_frame]; rfl) f
  rw [hu, frame_searchPlaced (tablesOk_served h _ _), same]

theorem point_lineServed (g : ServeGranted (.line lt) id s)
    (hu : u = searchPlaced id lt n k c false (served (.line lt) id s)) {p : Nat} (hp : p ≠ lt) :
    point p u = if p = 2048 + c ∨ p = 2144 + c ∨ p = 2240 + c then {} else point p s := by
  rw [hu, point_searchPlaced (tablesOk_served g.tables _ _), point_served g.tables g.originating g.unnamed,
    if_neg (c := p = partyPoint (.line lt)) hp]

/-- A grant that serves a line. -/
theorem lineServed (g : ServeGranted (.line lt) id s) (hf : findOriginPath (lt / 64) s = some (k, c))
    (hw : ClearReached (.line lt) s → Unawaited id s) (hn : n = 12 * (lt / 64) + k)
    (hu : u = searchPlaced id lt n k c false (served (.line lt) id s)) : Served (.line lt) id s u (grant s) := by
  have tables := tablesOk_served g.tables (.line lt) id
  have frame := lineServed_frame hu
  have record := call_lineServed g.tables hu
  have hl : lt < 2048 := g.originating.1
  have others : ∀ x, x ≠ id → call x u = call x s := fun x hx => by
    rw [hu, call_searchPlaced tables, if_neg hx, call_served g.tables, if_neg hx]
  have own : point lt u = point lt (served (.line lt) id s) := by
    rw [hu, point_searchPlaced tables, if_neg (by omega)]
  refine served_grant g (by rw [originSearch_served_line g.tables hf, hu, hn]) ?_ others own (by rw [frame])
    fun k => ?_
  · refine searchPlaced_of g.tables g.originating g.unnamed (hu ▸ tablesOk_searchPlaced tables) ?_ (by rw [record])
      others own ?_
    · refine ⟨hl, ?_⟩
      rw [line_lineServed g.tables hu, if_pos rfl]
      exact g.originating.2
    · exact ⟨_, by rw [frame]; exact List.mem_append_right _ List.mem_cons_self, rfl⟩
  · have unawaited := hw k
    rw [frame]
    exact unawaited

end Line

/-! ## An incoming junction is served (R64) -/

section Junction

variable {j c : Nat}

/-- The record of a call whose origin search from junction `j` has its order placed. -/
theorem call_junctionServed (h : TablesOk s) (hu : u = junctorPlaced id j c false (served (.junction j) id s)) :
    call id u =
      { newCall (.junction j) s with
        set := { junction := some j, cord := some c }, op := .origin false
        xps := [(.junctor j c .o, .operating)] } := by
  rw [hu, call_junctorPlaced (tablesOk_served h _ _), if_pos rfl, call_served h, if_pos rfl]
  rfl

/-- Everything that the search of a junction served changes. -/
theorem junctionServed_frame (hu : u = junctorPlaced id j c false (served (.junction j) id s)) :
    u = { s with
      orders := s.orders ++ [{ id := s.serial, call := id, act := .operate (.junctor j c .o) }]
      serial := s.serial + 1, calls := u.calls, scan.points := u.scan.points
      net := { s.net with junctions := u.net.junctions, cords := u.net.cords }
      arb.last := s.arb.last.set s.timers.prioServer .server
      orig := {
        queue := s.orig.queue.filter (fun w => decide (w.origin ≠ .junction j))
        pointer := if (junction j s).marked then 2336 + j else s.orig.pointer
        rehunts := s.orig.rehunts
        request := none } } := by
  have frame := junctorPlaced_frame id j c false (served (.junction j) id s)
  rw [← hu, served_frame] at frame
  exact frame

theorem junction_served (h : TablesOk s) (x : Nat) :
    junction x (served (.junction j) id s) =
      if x = j then { junction j s with marked := false } else junction x s := by
  rw [junction_congr (s := modJunction j (fun r => { r with marked := false }) s) (by rw [served_frame]; rfl),
    junction_modJunction_eq _ _ _ h.junctions]

/-- The search of a junction that is served finds the cord that was there. -/
theorem originSearch_served_junction (h : TablesOk s) (hc : lowestCord (j % 12) s = some c) :
    originSearch id false (served (.junction j) id s) =
      junctorPlaced id j c false (served (.junction j) id s) := by
  have same : lowestCord (j % 12) (served (.junction j) id s) = lowestCord (j % 12) s :=
    lowestCord_congr (t := served (.junction j) id s) (s := modJunction j (fun r => { r with marked := false }) s)
      (by rw [served_frame]; rfl) _
  refine originSearch_junction ?_ (same.trans hc)
  rw [call_served h, if_pos rfl]
  rfl

theorem junction_junctionServed (h : TablesOk s) (hu : u = junctorPlaced id j c false (served (.junction j) id s))
    (x : Nat) :
    junction x u =
      if x = j then
        { junction j s with marked := false, elem := { (junction j s).elem with occ := .reserved } }
      else junction x s := by
  rw [hu, junction_junctorPlaced (tablesOk_served h _ _), junction_served h, junction_served h]
  by_cases e : x = j <;> simp [e]

theorem cord_junctionServed (h : TablesOk s) (hu : u = junctorPlaced id j c false (served (.junction j) id s))
    (x : Nat) :
    elem (.cord x) u = if x = c then { elem (.cord c) s with occ := .reserved } else elem (.cord x) s := by
  have same : ∀ y, elem (.cord y) (served (.junction j) id s) = elem (.cord y) s := fun y =>
    elem_congr (s := modJunction j (fun r => { r with marked := false }) s) (by rw [served_frame]; rfl) _
  rw [hu, cord_junctorPlaced (tablesOk_served h _ _), same, same]

theorem point_junctionServed (g : ServeGranted (.junction j) id s)
    (hu : u = junctorPlaced id j c false (served (.junction j) id s)) {p : Nat} (hp : p ≠ 2336 + j) :
    point p u = if p = 2048 + c ∨ p = 2144 + c ∨ p = 2240 + c then {} else point p s := by
  rw [hu, point_junctorPlaced (tablesOk_served g.tables _ _), point_served g.tables g.originating g.unnamed,
    if_neg (c := p = partyPoint (.junction j)) hp]

/-- A grant that serves an incoming junction. -/
theorem junctionServed (g : ServeGranted (.junction j) id s) (hc : lowestCord (j % 12) s = some c) (hj : j < 48)
    (hc96 : c < 96) (hw : ClearReached (.junction j) s → Unawaited id s)
    (hu : u = junctorPlaced id j c false (served (.junction j) id s)) :
    Served (.junction j) id s u (grant s) := by
  have tables := tablesOk_served g.tables (.junction j) id
  have frame := junctionServed_frame hu
  have record := call_junctionServed g.tables hu
  have others : ∀ x, x ≠ id → call x u = call x s := fun x hx => by
    rw [hu, call_junctorPlaced tables, if_neg hx, call_served g.tables, if_neg hx]
  have own : point (2336 + j) u = point (2336 + j) (served (.junction j) id s) := by
    rw [hu, point_junctorPlaced tables, if_neg (by omega)]
  refine served_grant g (by rw [originSearch_served_junction g.tables hc, hu]) ?_ others own (by rw [frame])
    fun k => ?_
  · refine searchPlaced_of g.tables g.originating g.unnamed (hu ▸ tablesOk_junctorPlaced tables) ?_ (by rw [record])
      others own ?_
    · show (junction j u).sup = .originating
      rw [junction_junctionServed g.tables hu, if_pos rfl]
      exact g.originating
    · exact ⟨_, by rw [frame]; exact List.mem_append_right _ List.mem_cons_self, rfl⟩
  · have unawaited := hw k
    rw [frame]
    exact unawaited

end Junction

/-! ## The path, the tests and the choice (R44 to R48, R63) -/

/-- The clause of O57 on the path of R63. -/
theorem path_spec (s : Part) (f : Nat) (hm : (frame f s).hunt < 12) :
    (∀ k c, findOriginPath f s = some (k, c) →
      k < 12 ∧ c / 8 = k ∧ avail (.fl (12 * f + k)) s = true ∧ avail (.cord c) s = true ∧
      (∀ x, x / 8 = k → x < c → avail (.cord x) s = false) ∧
      ∀ p, p < 12 → planesPast (frame f s).hunt p < planesPast (frame f s).hunt k → PlaneShut f p s) ∧
    (findOriginPath f s = none → ∀ p, p < 12 → PlaneShut f p s) := by
  refine ⟨fun k c h => ?_, findOriginPath_eq_none hm⟩
  obtain ⟨hfl, hcord, before⟩ := findOriginPath_found hm h
  obtain ⟨hk, ha, lower⟩ := lowestCord_eq_some.mp hcord
  exact ⟨(findOriginPath_plane h).1, hk, hfl, ha, lower, before⟩

/-- The clause of O57 on the handling controller (R44). -/
theorem handling_spec (s : Part) (x : Party) :
    (homeOf x s = none → handling x s = none) ∧
      ∀ c, homeOf x s = some c →
        ((ctl c s).present = true → handling x s = some c) ∧
        ((ctl c s).present = false → (ctl (otherCtl c) s).present = true → handling x s = some (otherCtl c)) ∧
        ((ctl c s).present = false → (ctl (otherCtl c) s).present = false → handling x s = none) := by
  refine ⟨handling_of_noHome, fun c h => ?_⟩
  rw [handling_of_home h]
  exact ⟨fun h1 => by simp [h1], fun h1 h2 => by simp [h1, h2], fun h1 h2 => by simp [h1, h2]⟩

/-- The order in which the server's work is chosen (R48). -/
theorem choice_spec (s : Part) :
    (∀ pre x post, s.orig.rehunts = pre ++ x :: post → (∀ y ∈ pre, ¬ rehuntReady y s = true) →
      rehuntReady x s = true → chooseWork s = some (.rehunt x)) ∧
    ((∀ y ∈ s.orig.rehunts, ¬ rehuntReady y s = true) →
      (∀ pre w post, s.orig.queue = pre ++ w :: post → (∀ y ∈ pre, canServe y.origin s = false) →
        canServe w.origin s = true → chooseWork s = some (.serve w.origin)) ∧
      ((∀ w ∈ s.orig.queue, canServe w.origin s = false) →
        ∀ pre x post, markedOrigins s = pre ++ x :: post →
          (∀ y ∈ pre, handling y s = none ∨ canServe y s = false ∧ 64 ≤ s.orig.queue.length) →
          (canServe x s = true → chooseWork s = some (.serve x)) ∧
          (canServe x s = false → handling x s ≠ none → s.orig.queue.length < 64 →
            chooseWork s = some (.enqueue x)))) := by
  refine ⟨fun pre x post hl hpre hx => ?_, fun hr => ⟨fun pre w post hl hpre hw => ?_,
    fun hq pre x post hl hpre => ⟨fun hx => ?_, fun hx hh hroom => ?_⟩⟩⟩
  · exact chooseWork_rehunt hl (fun y hy => Bool.eq_false_iff.mpr (hpre y hy)) hx
  · exact chooseWork_queued (fun y hy => Bool.eq_false_iff.mpr (hr y hy)) hl hpre hw
  · rw [chooseWork_marked (fun y hy => Bool.eq_false_iff.mpr (hr y hy)) hq hl
      (fun y hy => markedCandidate_eq_false (hpre y hy)) (markedCandidate_of_canServe hx), hx]
    rfl
  · rw [chooseWork_marked (fun y hy => Bool.eq_false_iff.mpr (hr y hy)) hq hl
      (fun y hy => markedCandidate_eq_false (hpre y hy)) (markedCandidate_of_room hh hroom), hx]
    rfl

/-! ## The statement -/

/-- Settles O57, clause by clause: the two grants from what their searches place, and the tests and the choice from the
lemmas about each. -/
theorem grantServesALine : Obligations.GrantServesALine := by
  refine ⟨?_, ?_, path_spec, ?_, ?_, ?_, ?_⟩
  · intro s lt id k c h hg hr hc hl hid hf hs hn n cleared hw
    have g : ServeGranted (.line lt) id s.part := ⟨h, hg, hr, hc, hid, ⟨hl, hs⟩, hn⟩
    obtain ⟨hk, hc96, -⟩ := findOriginPath_plane hf
    obtain ⟨u, hu⟩ : ∃ u, u = searchPlaced id lt n k c false (served (.line lt) id s.part) := ⟨_, rfl⟩
    have sv := lineServed g hf hw rfl hu
    have frame := sv.frame
    rw [lineServed_frame hu] at frame
    have elems : ∀ e, elem e (grant s.part) = elem e u := elem_congr sv.net
    have frames : ∀ f, Machine.frame f (grant s.part) = Machine.frame f u :=
      frame_congr (congrArg Net.frames sv.net)
    have lines : ∀ x, line x (grant s.part) = line x u := line_congr (congrArg Net.lines sv.net)
    refine ⟨{ s with part := grant s.part }, rfl, rfl, ?_⟩
    dsimp only
    generalize grant s.part = t at *
    refine ⟨?_, sv.others, by rw [frame], ?_, ?_, fun e h1 h2 => ?_, ?_, fun f hf => ?_, ?_, fun x hx => ?_,
      by rw [frame], by rw [frame], sv.request, by rw [frame], ?_, ?_, ?_, sv.own, fun p h1 h2 h3 h4 => ?_, ?_⟩
    · rw [sv.record, call_lineServed h hu]
      exact clearing_of_new _ rfl rfl rfl rfl
    · rw [elems, elem_lineServed h hu, if_pos (.inl rfl)]
    · rw [elems, elem_lineServed h hu, if_pos (.inr rfl)]
    · rw [elems, elem_lineServed h hu, if_neg (not_or_intro h1 h2)]
    · rw [frames, frame_lineServed h hu, if_pos rfl]
    · rw [frames, frame_lineServed h hu, if_neg hf]
    · rw [lines, line_lineServed h hu, if_pos rfl]
    · rw [lines, line_lineServed h hu, if_neg hx]
    · have hp : 2048 + c ≠ lt := by omega
      rw [sv.points _ hp, point_lineServed g hu hp, if_pos (.inl rfl)]
    · have hp : 2144 + c ≠ lt := by omega
      rw [sv.points _ hp, point_lineServed g hu hp, if_pos (.inr (.inl rfl))]
    · have hp : 2240 + c ≠ lt := by omega
      rw [sv.points _ hp, point_lineServed g hu hp, if_pos (.inr (.inr rfl))]
    · rw [sv.points _ h1, point_lineServed g hu h1, if_neg (by simp [h2, h3, h4])]
    · rw [frame]
  · intro s j id c h hg hr hc hj hid hc96 hk ha hlow hs hn cleared hw
    have g : ServeGranted (.junction j) id s.part := ⟨h, hg, hr, hc, hid, hs, hn⟩
    obtain ⟨u, hu⟩ : ∃ u, u = junctorPlaced id j c false (served (.junction j) id s.part) := ⟨_, rfl⟩
    have sv := junctionServed g (lowestCord_eq_some.mpr ⟨hk, ha, hlow⟩) hj hc96 hw hu
    have frame := sv.frame
    rw [junctionServed_frame hu] at frame
    have cords : ∀ x, elem (.cord x) (grant s.part) = elem (.cord x) u := fun x => elem_congr sv.net _
    have junctions : ∀ x, junction x (grant s.part) = junction x u := junction_congr (congrArg Net.junctions sv.net)
    refine ⟨{ s with part := grant s.part }, rfl, rfl, ?_⟩
    dsimp only
    generalize grant s.part = t at *
    refine ⟨?_, sv.others, by rw [frame], ?_, fun x hx => ?_, ?_, fun x hx => ?_, by rw [frame], by rw [frame],
      sv.request, by rw [frame], ?_, ?_, ?_, sv.own, fun p h1 h2 h3 h4 => ?_, ?_⟩
    · rw [sv.record, call_junctionServed h hu]
      exact clearing_of_new _ rfl rfl rfl rfl
    · rw [junctions, junction_junctionServed h hu, if_pos rfl]
    · rw [junctions, junction_junctionServed h hu, if_neg hx]
    · rw [cords, cord_junctionServed h hu, if_pos rfl]
    · rw [cords, cord_junctionServed h hu, if_neg hx]
    · have hp : 2048 + c ≠ 2336 + j := by omega
      rw [sv.points _ hp, point_junctionServed g hu hp, if_pos (.inl rfl)]
    · have hp : 2144 + c ≠ 2336 + j := by omega
      rw [sv.points _ hp, point_junctionServed g hu hp, if_pos (.inr (.inl rfl))]
    · have hp : 2240 + c ≠ 2336 + j := by omega
      rw [sv.points _ hp, point_junctionServed g hu hp, if_pos (.inr (.inr rfl))]
    · rw [sv.points _ h1, point_junctionServed g hu h1, if_neg (by simp [h2, h3, h4])]
    · rw [frame]
  · intro s x home hh
    obtain rfl : home = homeOf x s := by
      rw [hh]
      cases x with
      | line lt => rfl
      | junction j => cases hr : (junction j s).route <;> simp [homeOf, hr]
    exact handling_spec s x
  · intro s x
    rw [canServe_iff]
    cases x with
    | line lt =>
      rw [admitted_line, pathExists_line]
      rfl
    | junction j =>
      refine and_congr_right fun _ => and_congr_right fun _ => ?_
      exact (and_iff_right rfl).trans lowestCord_isSome
  · intro s h marked after
    have hmarked : ∀ x, isMarked x s = true ↔ marked x := fun x => by cases x <;> exact Iff.rfl
    have hafter : ∀ x, pointsPast s.orig.pointer x = after x := fun x => by cases x <;> rfl
    refine ⟨fun x => (mem_markedOrigins h x).trans (hmarked x), fun hp hl hj => ?_⟩
    simpa only [hafter] using markedOrigins_pairwise h hp hl hj
  · intro s ready
    have hready : ∀ y, rehuntReady y s = true ↔ ready y := fun y => rehuntReady_iff
    simpa only [hready] using choice_spec s

end Sys2Proof.Machine
end
section
/-!
SUPPORT. The claims of all calls together (R61), and the two steps of a release in which only the origin's path stands
(R82, R83).
-/

namespace Sys2Proof.Machine

variable {s t : Part} {id lt n cord : Nat}

/-! ## The sum of the claims (R61) -/

/-- A sum over the records of a canonical table is a sum over the numbers below a bound. -/
theorem Table.sum_eq_range {α : Type} [DecidableEq α] {d : α} {t : Table α} {f : α → Nat} {m : Nat} (hd : f d = 0)
    (h : Table.wf d t = true) (hm : ∀ x ∈ t, x.1 < m) :
    (t.map (fun x => f x.2)).sum = ∑ k ∈ Finset.range m, f (Table.get d t k) := by
  induction t with
  | nil => simp [Table.get, hd]
  | cons x t ih =>
    obtain ⟨i, v⟩ := x
    obtain ⟨-, hlt, ht⟩ := Table.wf_cons.mp h
    have hi : f (Table.get d t i) = 0 := by rw [Table.get_of_lt hlt, hd]
    have each : ∀ k, f (Table.get d ((i, v) :: t) k) = (if i = k then f v else 0) + f (Table.get d t k) := fun k => by
      by_cases e : i = k
      · subst e
        simp [Table.get, hi]
      · simp [Table.get, e]
    simp only [List.map_cons, List.sum_cons, each, Finset.sum_add_distrib, Finset.sum_ite_eq, Finset.mem_range]
    rw [if_pos (hm _ List.mem_cons_self), ih ht fun x hx => hm x (List.mem_cons_of_mem _ hx)]

theorem claims_congr (h : TablesOk s) (g : TablesOk t) (e : ∀ x, (call x t).claim = (call x s).claim) :
    claims t = claims s := by
  obtain ⟨m, hm⟩ : ∃ m, ∀ x ∈ s.calls ++ t.calls, x.1 < m :=
    ⟨((s.calls ++ t.calls).map Prod.fst).sum + 1, fun x hx =>
      Nat.lt_succ_of_le (List.le_sum_of_mem (List.mem_map_of_mem hx))⟩
  unfold claims
  rw [Table.sum_eq_range (f := Call.claim) rfl h.calls fun x hx => hm x (List.mem_append_left _ hx),
    Table.sum_eq_range (f := Call.claim) rfl g.calls fun x hx => hm x (List.mem_append_right _ hx)]
  exact Finset.sum_congr rfl fun k _ => e k

theorem freePlaces_congr (h : TablesOk s) (g : TablesOk t) (e : ∀ x, (call x t).claim = (call x s).claim) :
    freePlaces t = freePlaces s := by
  unfold freePlaces
  rw [claims_congr h g e]

/-! ## The origin's path released (R83) -/

/-- A call of which only the origin's path over one frame link and one cord is operated. -/
structure OriginPath (id lt n cord : Nat) (s : Part) : Prop where
  noTerm : (call id s).term = none
  xps : (call id s).xps = [(.line lt n, .operated), (.plane n cord .o, .operated)]
  held : (elem (.fl n) s).occ = .held

/-- The line crosspoint is released before the plane crosspoint. -/
theorem releaseOrder_originPath (g : OriginPath id lt n cord s) :
    releaseOrder id s = [.line lt n, .plane n cord .o] := by
  have h1 : onlyFaulty (.line lt n) s = false :=
    onlyFaulty_of_elem (e := .fl n) (by simp [Xp.elems]) (by rw [g.held]; decide)
  have h2 : onlyFaulty (.plane n cord .o) s = false :=
    onlyFaulty_of_elem (e := .fl n) (by simp [Xp.elems]) (by rw [g.held]; decide)
  simp [releaseOrder, operatedXps, g.xps, g.noTerm, h1, h2, Xp.isTerm]

theorem originPath_modCall (h : TablesOk s) (g : OriginPath id lt n cord s) {f : Call → Call}
    (ht : (f (call id s)).term = (call id s).term) (hx : (f (call id s)).xps = (call id s).xps) :
    OriginPath id lt n cord (modCall id f s) :=
  ⟨by rw [call_modCall h, ht, g.noTerm], by rw [call_modCall h, hx, g.xps], by simpa using g.held⟩

/-- The two release orders of the origin's path have been placed. -/
def pathReleasing (id lt n cord : Nat) (s : Part) : Part :=
  placeRelease id (.plane n cord .o) (placeRelease id (.line lt n) s)

theorem placeReleases_originPath (g : OriginPath id lt n cord s) :
    (releaseOrder id s).foldl (fun s x => placeRelease id x s) s = pathReleasing id lt n cord s := by
  rw [releaseOrder_originPath g]
  rfl

theorem pathReleasing_frame (id lt n cord : Nat) (s : Part) :
    pathReleasing id lt n cord s = { s with
      orders := s.orders ++
        [{ id := s.serial, call := id, act := .release (.line lt n) },
          { id := s.serial + 1, call := id, act := .release (.plane n cord .o) }]
      serial := s.serial + 2, calls := (pathReleasing id lt n cord s).calls } := by
  have orders : (pathReleasing id lt n cord s).orders = _ := List.append_assoc s.orders [_] [_]
  conv_lhs => rw [show pathReleasing id lt n cord s = { pathReleasing id lt n cord s with
    orders := (pathReleasing id lt n cord s).orders } from rfl, orders]
  rfl

theorem call_pathReleasing (h : TablesOk s)
    (hx : (call id s).xps = [(.line lt n, .operated), (.plane n cord .o, .operated)]) (x : Nat) :
    call x (pathReleasing id lt n cord s) =
      if x = id then { call id s with xps := [(.line lt n, .releasing), (.plane n cord .o, .releasing)] }
      else call x s := by
  by_cases e : x = id <;> simp [pathReleasing, placeRelease, h.calls, e, hx, setXp]

theorem TablesOk.pathReleasing (h : TablesOk s) : TablesOk (pathReleasing id lt n cord s) :=
  ((((h.modCall _ _).place _ _).modCall _ _).place _ _)

/-- The second step of a release of a call whose set is the origin's path alone. -/
theorem releaseStep2_originPath (h : TablesOk s) (g : OriginPath id lt n cord s)
    (hs : (call id s).set = { fl := some n, cord := some cord }) (ho : (call id s).old = {})
    (hn : (call id s).new = {}) :
    releaseStep2 id s =
      setOcc (.cord cord) .releasing (setOcc (.fl n) .releasing
        (pathReleasing id lt n cord (modCall id (fun c => { c with op := .release2 }) s))) := by
  obtain ⟨u, hu⟩ : ∃ u, u = pathReleasing id lt n cord (modCall id (fun c => { c with op := .release2 }) s) := ⟨_, rfl⟩
  have path := originPath_modCall h g (f := fun c => { c with op := .release2 }) rfl rfl
  have elems : (call id u).elems = [.fl n, .cord cord] := by
    rw [hu, call_pathReleasing (h.modCall _ _) path.xps, if_pos rfl]
    simp [h.calls, Call.elems, ElemSet.elems, hs, ho, hn]
  have orders : ∀ v : Part, v.orders = u.orders →
      releasingElem id (.fl n) v = true ∧ releasingElem id (.cord cord) v = true ∧ ordersOf id v ≠ [] := fun v hv => by
    simp [releasingElem, ordersOf, hv, hu, pathReleasing, placeRelease, Xp.elems]
  have e1 : releaseElem id (.fl n) u = setOcc (.fl n) .releasing u := if_pos (orders u rfl).1
  have e2 : releaseElem id (.cord cord) (setOcc (.fl n) .releasing u) =
      setOcc (.cord cord) .releasing (setOcc (.fl n) .releasing u) := if_pos (orders _ rfl).2.1
  unfold releaseStep2
  simp only [placeReleases_originPath path, ← hu, elems, List.foldl_cons, List.foldl_nil, e1, e2]
  exact if_neg (by simpa using (orders (setOcc (.cord cord) .releasing (setOcc (.fl n) .releasing u)) rfl).2.2)

/-! ## The first step (R82) -/

theorem ringOff_of_silent (h : (call id s).set.ring = false) : ringOff id s = s := by
  cases hc : (call id s).set.cord <;> simp [ringOff, h, hc]

theorem coinOrder_of_noCoin (h : (call id s).coin = none) : coinOrder id s = s := by simp [coinOrder, h]

/-- With nothing to order the second step follows the first at once. -/
theorem releaseStep1_of_none (h : TablesOk s) (hr : (call id s).set.ring = false) (hc : (call id s).coin = none)
    (ho : ordersOf id s = []) :
    releaseStep1 id s = releaseStep2 id (modCall id (fun c => { c with op := .release1 }) s) := by
  obtain ⟨u, hu⟩ : ∃ u, u = modCall id (fun c => { c with op := .release1 }) s := ⟨_, rfl⟩
  have record : call id u = { call id s with op := .release1 } := by rw [hu, call_modCall h]
  unfold releaseStep1
  dsimp only
  rw [← hu, ringOff_of_silent (by rw [record]; exact hr), coinOrder_of_noCoin (by rw [record]; exact hc)]
  exact if_pos (by rw [ordersOf_congr (s := s) (by rw [hu]; rfl), ho]; rfl)

/-- The cord of a coin order is the one whose O end the operated origin path joins. -/
theorem coinCord_originPath {c : Call} (ho : c.origin = some (.line lt))
    (hx : c.xps = [(.line lt n, .operated), (.plane n cord .o, .operated)]) : coinCord c = some cord := by
  simp [coinCord, hx, ho]

theorem coinOrder_of_cord {k : Coin} (hk : (call id s).coin = some k) (hc : coinCord (call id s) = some cord) :
    coinOrder id s = place id (if (call id s).answered then .collect cord else .refund cord) s := by
  simp [coinOrder, hk, hc]

end Sys2Proof.Machine
end
section
/-!
PROOFS. The release of a dialling call that has room (R80, R83), and the first step of a release (R82, R133).
-/

namespace Sys2Proof.Machine

variable {s t : Part} {id lt n cord : Nat}

/-! ## A dialling call is released (R80, R83) -/

/-- A release taken for a call with no order and no reswitch: the part just before it begins. -/
theorem takeRelease_begins (h : TablesOk s) (hr : Releasable id s) (ho : ordersOf id s = [])
    (hw : (call id s).reswitch = false) (why : Reason) :
    ∃ u, takeRelease id why s = beginRelease id u ∧ TablesOk u ∧
      u = { s with calls := u.calls, scan.points := u.scan.points } ∧
      (∀ x, x ≠ id → call x u = call x s) ∧
      call id u =
        { call id s with
          state := .releasing, reason := some why, timer := none, charging := false, relPending := false
          op := .idle } := by
  obtain ⟨active, unreleased, extend, rehunt⟩ := hr
  obtain ⟨v, hv⟩ : ∃ v, v = modCall id (fun c => { c with reason := some why, timer := none, charging := false }) s :=
    ⟨_, rfl⟩
  have only : v = { s with calls := v.calls } := by rw [hv]; rfl
  have tables : TablesOk v := hv ▸ h.modCall _ _
  have record : call id v = { call id s with reason := some why, timer := none, charging := false } := by
    rw [hv, call_modCall h]
  have e : takeRelease id why s = enterReleasing id v := by
    unfold takeRelease
    dsimp only
    rw [active, unreleased, if_neg (by simp), ← hv,
      withdrawExtend_of_unawaited (s := v) .a (by rw [only]; exact extend .a),
      withdrawExtend_of_unawaited (s := v) .b (by rw [only]; exact extend .b),
      dropRehunt_of_none (s := v) (by rw [only]; exact rehunt)]
    exact if_pos (by rw [ordersOf_congr (s := s) (by rw [only]), ho]; rfl)
  have still : (call id v).reswitch = false := by rw [record]; exact hw
  obtain ⟨q, hq⟩ : ∃ q, q = dropPulses id v := ⟨_, rfl⟩
  have points : q = { v with scan.points := q.scan.points } := hq ▸ dropPulses_eq id v
  have hqt : TablesOk q := hq ▸ (low_dropPulses (Low.refl v)).tablesOk tables
  obtain ⟨w, hw'⟩ : ∃ w, w = modCall id (fun c => { c with
      state := .releasing, relPending := false, op := .idle
      set := if c.reswitch then c.new else c.set
      new := if c.reswitch then {} else c.new
      reswitch := false }) q := ⟨_, rfl⟩
  have hwt : TablesOk w := hw' ▸ hqt.modCall _ _
  have only' : w = { s with calls := w.calls, scan.points := w.scan.points } := by
    rw [hw', points, only]
    rfl
  have same : ∀ x, call x (respend id w) = call x w := fun x => call_congr (by rw [respend_eq]) x
  have calls : ∀ x, call x q = call x v := fun x => call_congr (by rw [points]) x
  refine ⟨respend id w, ?_, ?_, ?_, fun x hx => ?_, ?_⟩
  · rw [e, enterReleasing]
    simp only [still, Bool.false_eq_true, if_false, ← hq, ← hw']
    rfl
  · exact (low_spendCall (low_rearmCall (Low.refl w))).tablesOk hwt
  · rw [respend_eq, only']
  · rw [same, hw', call_modCall_of_ne hx, calls, hv, call_modCall_of_ne hx]
  · rw [same, hw', call_modCall hqt, calls, still, record]
    simp [hw]

/-- A due call timer of a kind that the command takes releases its call. -/
theorem expireTimer_due {m : CallTimer} {kinds : List TimerKind} (hm : (call id s).timer = some m)
    (hd : m.limit ≤ m.count) (hk : m.kind ∈ kinds) : expireTimer kinds id s = takeRelease id m.kind.reason s := by
  simp [expireTimer, timerDue, hm, hd, hk]

/-- A call of a line that holds only the origin's path, with no order in the table and nothing charged to a coin
context. -/
structure HoldsPath (id lt n cord : Nat) (s : Part) : Prop extends OriginPath id lt n cord s where
  set : (call id s).set = { fl := some n, cord := some cord }
  noOld : (call id s).old = {}
  noNew : (call id s).new = {}
  noCoin : (call id s).coin = none
  noOrders : ordersOf id s = []

/-- The part once the release of such a call has its claim and its two orders. -/
def pathReleased (id lt n cord : Nat) (s : Part) : Part :=
  setOcc (.cord cord) .releasing (setOcc (.fl n) .releasing
    (pathReleasing id lt n cord (modCall id (fun c => { c with claim := 5, op := .release2 }) s)))

/-- A release with room takes a claim of 5 and, with nothing to order first, places the two release orders. -/
theorem releaseBegun_path (h : TablesOk s) (g : HoldsPath id lt n cord s) (hc : (call id s).claim = 0)
    (hw : s.arb.releaseWait = []) (hf : 5 ≤ freePlaces s) (hb : ReleaseBegun id s t) :
    t = pathReleased id lt n cord s := by
  obtain ⟨u, hu⟩ : ∃ u, u = modCall id (fun c => { c with claim := 5 }) s := ⟨_, rfl⟩
  have tables : TablesOk u := hu ▸ h.modCall _ _
  have record : call id u = { call id s with claim := 5 } := by rw [hu, call_modCall h]
  have path : OriginPath id lt n cord u := hu ▸ originPath_modCall h g.toOriginPath rfl rfl
  obtain ⟨v, hv⟩ : ∃ v, v = modCall id (fun c => { c with op := .release1 }) u := ⟨_, rfl⟩
  have record' : call id v = { call id s with claim := 5, op := .release1 } := by
    rw [hv, call_modCall tables, record]
  have begun : t = releaseStep1 id u := by
    have e : t = _ := hb
    rw [e, if_neg (by omega), if_pos ⟨hw, by omega⟩, hu]
  rw [begun, releaseStep1_of_none tables (by rw [record, g.set]) (by rw [record]; exact g.noCoin)
      ((ordersOf_congr (by rw [hu]; rfl)).trans g.noOrders), ← hv,
    releaseStep2_originPath (hv ▸ tables.modCall _ _) (hv ▸ originPath_modCall tables path rfl rfl)
      (by rw [record']; exact g.set) (by rw [record']; exact g.noOld) (by rw [record']; exact g.noNew), hv, hu,
    modCall_modCall _ _ _ (wf_modCall _ _ h.calls), modCall_modCall _ _ _ h.calls]
  rfl

theorem call_pathReleased (h : TablesOk s) (g : OriginPath id lt n cord s) (x : Nat) :
    call x (pathReleased id lt n cord s) =
      if x = id then
        { call id s with
          claim := 5, op := .release2, xps := [(.line lt n, .releasing), (.plane n cord .o, .releasing)] }
      else call x s := by
  have path := originPath_modCall h g (f := fun c => { c with claim := 5, op := .release2 }) rfl rfl
  unfold pathReleased setOcc
  rw [call_modElem, call_modElem, call_pathReleasing (h.modCall _ _) path.xps]
  by_cases e : x = id <;> simp [e, h.calls]

theorem elem_pathReleased (h : TablesOk s) (e : ElemId) :
    elem e (pathReleased id lt n cord s) =
      if e = .fl n ∨ e = .cord cord then { elem e s with occ := .releasing } else elem e s := by
  by_cases h1 : e = .fl n <;> by_cases h2 : e = .cord cord <;>
    simp_all [pathReleased, pathReleasing, placeRelease, setOcc, h.fls, h.cords]

theorem pathReleased_frame (id lt n cord : Nat) (s : Part) :
    pathReleased id lt n cord s = { s with
      orders := s.orders ++
        [{ id := s.serial, call := id, act := .release (.line lt n) },
          { id := s.serial + 1, call := id, act := .release (.plane n cord .o) }]
      serial := s.serial + 2, calls := (pathReleased id lt n cord s).calls
      net.fls := (pathReleased id lt n cord s).net.fls, net.cords := (pathReleased id lt n cord s).net.cords } := by
  have e : pathReleased id lt n cord s =
      { pathReleasing id lt n cord (modCall id (fun c => { c with claim := 5, op := .release2 }) s) with
        net.fls := (pathReleased id lt n cord s).net.fls
        net.cords := (pathReleased id lt n cord s).net.cords } := rfl
  rw [pathReleasing_frame] at e
  exact e

/-- The clause of O47 on DIAL_TIMEOUT. -/
theorem dialTimeout_releases {s : State} {m : CallTimer} (h : TablesOk s.part) (hr : Releasable id s.part)
    (hm : (call id s.part).timer = some m) (hk : m.kind = .interdigit) (hd : m.limit ≤ m.count)
    (hw : (call id s.part).reswitch = false) (hc : (call id s.part).claim = 0) (g : HoldsPath id lt n cord s.part)
    (hwait : s.part.arb.releaseWait = []) (hf : 5 ≤ freePlaces s.part) :
    ∃ t, exec (.dialTimeout id) s = .next t ∧ t.pending = s.pending ∧
      t.part.orders = s.part.orders ++
        [{ id := s.part.serial, call := id, act := .release (.line lt n) },
          { id := s.part.serial + 1, call := id, act := .release (.plane n cord .o) }] ∧
      t.part.serial = s.part.serial + 2 ∧
      call id t.part =
        { call id s.part with
          state := .releasing, reason := some .dialTimeout, timer := none, charging := false, claim := 5
          op := .release2
          xps := [(.line lt n, .releasing), (.plane n cord .o, .releasing)] } ∧
      (∀ x, x ≠ id → call x t.part = call x s.part) ∧
      elem (.fl n) t.part = { elem (.fl n) s.part with occ := .releasing } ∧
      elem (.cord cord) t.part = { elem (.cord cord) s.part with occ := .releasing } ∧
      (∀ e, e ≠ .fl n → e ≠ .cord cord → elem e t.part = elem e s.part) ∧
      t.part = { s.part with
        orders := t.part.orders, serial := t.part.serial, calls := t.part.calls
        net.fls := t.part.net.fls, net.cords := t.part.net.cords
        scan.points := t.part.scan.points } := by
  obtain ⟨u, begun, tables, frame, others, record⟩ := takeRelease_begins h hr g.noOrders hw .dialTimeout
  have net : u.net = s.part.net := by rw [frame]
  have unpended : (call id s.part).relPending = false := by
    have := hr.2.1
    simp only [Call.released, Bool.or_eq_false_iff] at this
    exact this.1
  have free : freePlaces u = freePlaces s.part := freePlaces_congr h tables fun x => by
    by_cases e : x = id
    · rw [e, record]
    · rw [others x e]
  have path : HoldsPath id lt n cord u := {
    noTerm := by rw [record]; exact g.noTerm
    xps := by rw [record]; exact g.xps
    held := by rw [elem_congr net]; exact g.held
    set := by rw [record]; exact g.set
    noOld := by rw [record]; exact g.noOld
    noNew := by rw [record]; exact g.noNew
    noCoin := by rw [record]; exact g.noCoin
    noOrders := (ordersOf_congr (by rw [frame])).trans g.noOrders }
  have hu := releaseBegun_path tables path (by rw [record]; exact hc) (by rw [frame]; exact hwait) (by rw [free]; exact hf)
    (releaseBegun_beginRelease id u)
  obtain ⟨t, ht⟩ : ∃ t, t = pathReleased id lt n cord u := ⟨_, rfl⟩
  have made : exec (.dialTimeout id) s = .next { s with part := t } := by
    show Host.Outcome.next { s with part := expireTimer [.firstDigit, .interdigit] id s.part } = _
    rw [expireTimer_due hm hd (by rw [hk]; decide), hk, ht, ← hu, ← begun]
    rfl
  have same := pathReleased_frame id lt n cord u
  rw [← ht] at same
  refine ⟨_, made, rfl, ?_⟩
  dsimp only
  refine ⟨?_, ?_, ?_, fun x hx => ?_, ?_, ?_, fun e h1 h2 => ?_, ?_⟩
  · rw [same, frame]
  · rw [same, frame]
  · rw [ht, call_pathReleased tables path.toOriginPath, if_pos rfl, record]
    simp [unpended]
  · rw [ht, call_pathReleased tables path.toOriginPath, if_neg hx, others x hx]
  · rw [ht, elem_pathReleased tables, if_pos (.inl rfl), elem_congr net]
  · rw [ht, elem_pathReleased tables, if_pos (.inr rfl), elem_congr net]
  · rw [ht, elem_pathReleased tables, if_neg (by simp [h1, h2]), elem_congr net]
  · rw [same, frame]

/-! ## The first step of a release (R82) -/

/-- RING OFF of the first step of a release, where the ring is on. -/
def ringOrders (id cord : Nat) (s : Part) : List Order :=
  if (call id s).set.ring then [{ id := s.serial, call := id, act := .ringOff cord }] else []

/-- The coin order of the first step of a release, which follows RING OFF. -/
def coinOrders (id cord : Nat) (s : Part) : List Order :=
  if (call id s).coin = none then []
  else [{ id := s.serial + (ringOrders id cord s).length, call := id
          act := if (call id s).answered then .collect cord else .refund cord }]

/-- The part once the orders of the first step are placed. -/
def firstStepPlaced (id cord : Nat) (s : Part) : Part :=
  { modCall id (fun c => { c with op := .release1, set.ring := false }) s with
    orders := s.orders ++ ringOrders id cord s ++ coinOrders id cord s
    serial := s.serial + (ringOrders id cord s).length + (coinOrders id cord s).length }

theorem releaseStep1_placed (h : TablesOk s) (ho : (call id s).origin = some (.line lt))
    (hc : (call id s).set.cord = some cord)
    (hx : (call id s).xps = [(.line lt n, .operated), (.plane n cord .o, .operated)])
    (asks : (call id s).set.ring = true ∨ (call id s).coin ≠ none) :
    releaseStep1 id s = firstStepPlaced id cord s := by
  obtain ⟨u, hu⟩ : ∃ u, u = modCall id (fun c => { c with op := .release1 }) s := ⟨_, rfl⟩
  have record : call id u = { call id s with op := .release1 } := by rw [hu, call_modCall h]
  obtain ⟨v, hv⟩ : ∃ v, v = ringOff id u := ⟨_, rfl⟩
  have rung : v = { modCall id (fun c => { c with op := .release1, set.ring := false }) s with
      orders := s.orders ++ ringOrders id cord s, serial := s.serial + (ringOrders id cord s).length } := by
    by_cases hr : (call id s).set.ring = true
    · rw [hv, ringOff_of_ring (cord := cord) (by rw [record]; exact hc) (by rw [record]; exact hr), hu,
        modCall_modCall _ _ _ h.calls, ringOrders, if_pos hr]
      rfl
    · have hr : (call id s).set.ring = false := by simpa using hr
      have same : modCall id (fun c => { c with op := .release1, set.ring := false }) s = u := by
        rw [hu]
        exact modCall_congr (by simp [← hr])
      rw [hv, ringOff_of_silent (by rw [record]; exact hr), same,
        show ringOrders id cord s = [] from if_neg (by simp [hr]), List.append_nil, hu]
      rfl
  have record' : call id v = { call id s with op := .release1, set.ring := false } := by
    rw [call_congr (s := modCall id (fun c => { c with op := .release1, set.ring := false }) s) (by rw [rung]),
      call_modCall h]
  have placed : coinOrder id v = firstStepPlaced id cord s := by
    cases hk : (call id s).coin with
    | none =>
      rw [coinOrder_of_noCoin (by rw [record']; exact hk), rung, firstStepPlaced, coinOrders, if_pos hk, List.append_nil]
      rfl
    | some k =>
      rw [coinOrder_of_cord (k := k) (cord := cord) (by rw [record']; exact hk)
        (by rw [record']; exact coinCord_originPath ho hx), record', rung, firstStepPlaced,
        show coinOrders id cord s = _ from if_neg (by simp [hk])]
      rfl
  have waits : ordersOf id (firstStepPlaced id cord s) ≠ [] := by
    rcases asks with hr | hk
    · simp [ordersOf, firstStepPlaced, ringOrders, hr]
    · simp [ordersOf, firstStepPlaced, coinOrders, hk]
  unfold releaseStep1
  dsimp only
  rw [← hu, ← hv, placed]
  exact if_neg (by simpa using waits)

/-! ## A coin call with no cord to its line (R133) -/

theorem coinOrder_of_noCord {k : Coin} (hk : (call id s).coin = some k) (hx : (call id s).xps = []) :
    coinOrder id s = raiseCoinFault id true s := by
  simp [coinOrder, hk, coinCord, hx]

/-- The clause of O47 on COIN FAULT. -/
theorem releaseStep1_coinFault {k : Coin} {c : Ctl} (h : TablesOk s) (hm : MaintRoom s)
    (ho : (call id s).origin = some (.line lt)) (hc : (call id s).owner = some c) (hk : (call id s).coin = some k)
    (hr : (call id s).set.ring = false) (hx : (call id s).xps = []) :
    noticesDue .maint (releaseStep1 id s) =
      noticesDue .maint s ++ [.maint .coinFault 0 ([b8 id] ++ b16 lt ++ [1] ++ b16 k.deposits)] := by
  obtain ⟨u, hu⟩ : ∃ u, u = modCall id (fun c => { c with op := .release1 }) s := ⟨_, rfl⟩
  have record : call id u = { call id s with op := .release1 } := by rw [hu, call_modCall h]
  have line : (call id u).lineOrigin = some lt := by simp [record, Call.lineOrigin, ho]
  obtain ⟨v, hv⟩ : ∃ v, v = enter .maint
      (.maint .coinFault 0 ([b8 id] ++ b16 lt ++ [1] ++ b16 k.deposits)) u := ⟨_, rfl⟩
  have told : coinOrder id (ringOff id u) = v := by
    rw [ringOff_of_silent (by rw [record]; exact hr),
      coinOrder_of_noCord (by rw [record]; exact hk) (by rw [record]; exact hx), raiseCoinFault, line, record, hk,
      raiseMaint_enters (maintRoom_congr (by rw [hu]; rfl) hm), hv]
    rfl
  have due : noticesDue .maint v =
      noticesDue .maint s ++ [.maint .coinFault 0 ([b8 id] ++ b16 lt ++ [1] ++ b16 k.deposits)] := by
    rw [hv, noticesDue_enter, noticesDue_congr (s := s) (by rw [hu]; rfl)]
  have e : releaseStep1 id s = if (ordersOf id v).isEmpty then releaseStep2 id v else v := by
    unfold releaseStep1
    dsimp only
    rw [← hu, told]
  rw [e, ← due]
  split
  · have tables : TablesOk v := by rw [hv, hu]; exact (h.modCall _ _).enter _ _
    exact (maintKept_releaseStep2 tables (c := c) (by rw [hv, call_enter, record]; exact hc)).2
  · rfl

/-! ## The clauses together -/

/-- Settles O47: DIAL_TIMEOUT takes the release as any release is taken, with its claim from the free places, and the
two steps of the release place the orders that the call's crosspoints, ring and coin context ask for. -/
theorem diallingCallIsReleased : Obligations.DiallingCallIsReleased := by
  refine ⟨?_, ?_, ?_⟩
  · intro s id lt n cord m h hr hm hk hd _ _ hterm hset hold hnew hw hcoin hc hx hn _ ho hwait hf
    exact dialTimeout_releases h hr hm hk hd hw hc ⟨⟨hterm, hx, hn⟩, hset, hold, hnew, hcoin, ho⟩ hwait hf
  · intro s id lt n cord h _ ho hc hx asks ring t
    have e : t = firstStepPlaced id cord s := releaseStep1_placed h ho hc hx asks
    have frame : t = { s with orders := t.orders, serial := t.serial, calls := t.calls } := by rw [e]; rfl
    have calls : ∀ x, call x t = call x (modCall id (fun c => { c with op := .release1, set.ring := false }) s) :=
      fun x => call_congr (by rw [e]; rfl) x
    refine ⟨by rw [e]; rfl, ?_, fun x hx => ?_, frame⟩
    · rw [calls, call_modCall h]
    · rw [calls, call_modCall_of_ne hx]
  · intro s id lt k c h hm ho hc hk hr hx
    exact releaseStep1_coinFault h hm ho hc hk hr hx

end Sys2Proof.Machine
end
section
/-!
SUPPORT. The arbiter's choice (R59, R60), the hunt of a route (R68), and a junction taken as the terminating side.
-/

namespace Sys2Proof.Machine

variable {s t : Part} {c d x : Client}

/-! ## The client selected (R60) -/

/-- No client has a priority above 3 (R59). -/
def PrioritiesOk (s : Part) : Prop := ∀ x, priority x s ≤ 3

theorem prioritiesOk_of (h1 : s.timers.prioServer ≤ 3) (h2 : s.timers.prioA ≤ 3) (h3 : s.timers.prioB ≤ 3)
    (h4 : s.timers.prioRelease ≤ 3) : PrioritiesOk s
  | .server => h1
  | .ctl .a => h2
  | .ctl .b => h3
  | .release => h4

/-- The clients stand in their cyclic order from the one after the client last granted. -/
theorem clientsAfter_pairwise (last : Client) :
    (clientsAfter last).Pairwise (fun x y => Client.after last x < Client.after last y) := by
  rcases last with _ | (_ | _) | _ <;> decide

theorem mem_clientsAfter (last x : Client) : x ∈ clientsAfter last := by
  rcases last with _ | (_ | _) | _ <;> rcases x with _ | (_ | _) | _ <;> decide

theorem after_injective {last : Client} (h : Client.after last c = Client.after last d) : c = d := by
  revert h
  rcases last with _ | (_ | _) | _ <;> rcases c with _ | (_ | _) | _ <;> rcases d with _ | (_ | _) | _ <;> decide

/-- The first waiting client of one priority, in the cyclic order after the one last granted at it. -/
def firstWaiting (p : Nat) (s : Part) : Option Client :=
  (clientsAfter (lastGranted p s)).find? (fun c => decide (priority c s = p) && (requestOf c s).isSome)

theorem selected_eq (s : Part) : selected s = [3, 2, 1, 0].findSome? (fun p => firstWaiting p s) := rfl

theorem firstWaiting_eq_none {p : Nat} (h : firstWaiting p s = none) (hx : (requestOf x s).isSome = true) :
    priority x s ≠ p := fun e => by
  simpa [e, hx] using List.find?_eq_none.mp h x (mem_clientsAfter _ x)

theorem firstWaiting_eq_some {p : Nat} (h : firstWaiting p s = some d) :
    priority d s = p ∧ (requestOf d s).isSome = true ∧
      ∀ x, (requestOf x s).isSome = true → x ≠ d → priority x s = p →
        Client.after (lastGranted p s) d < Client.after (lastGranted p s) x := by
  obtain ⟨hd, as, bs, hl, hno⟩ := List.find?_eq_some_iff_append.mp h
  obtain ⟨hp, hw⟩ : priority d s = p ∧ (requestOf d s).isSome = true := by simpa using hd
  refine ⟨hp, hw, fun x hx hne he => ?_⟩
  by_contra hlt
  have ne : Client.after (lastGranted p s) x ≠ Client.after (lastGranted p s) d := fun e => hne (after_injective e)
  have before : x ∈ as :=
    mem_before_of_pairwise (hl ▸ clientsAfter_pairwise (lastGranted p s)) (hl ▸ mem_clientsAfter _ x) (by omega)
  simpa [he, hx] using hno x before

/-- Two clients selected are one. -/
theorem Selected.unique (hc : Selected c s) (hd : Selected d s) : c = d := by
  by_contra hne
  rcases hc.2 d hd.1 (Ne.symm hne) with h1 | ⟨h1, h2⟩
  · rcases hd.2 c hc.1 hne with g1 | ⟨g1, -⟩ <;> omega
  · rcases hd.2 c hc.1 hne with g1 | ⟨-, g2⟩
    · omega
    · rw [h1] at g2
      omega

theorem selected_of_eq_some (hp : PrioritiesOk s) (h : selected s = some d) : Selected d s := by
  rw [selected_eq] at h
  obtain ⟨as, p, bs, hl, hd, hno⟩ := List.findSome?_eq_some_iff.mp h
  obtain ⟨rfl, hw, first⟩ := firstWaiting_eq_some hd
  refine ⟨hw, fun x hx hne => ?_⟩
  rcases Nat.lt_trichotomy (priority x s) (priority d s) with hlt | he | hgt
  · exact .inl hlt
  · exact .inr ⟨he, first x hx hne he⟩
  · have rising : ([3, 2, 1, 0] : List Nat).Pairwise (fun p q => 3 - p < 3 - q) := by decide
    have listed : priority x s ∈ ([3, 2, 1, 0] : List Nat) := by
      have := hp x
      simp only [List.mem_cons, List.not_mem_nil, or_false]
      omega
    have before : priority x s ∈ as := mem_before_of_pairwise (hl ▸ rising) (hl ▸ listed) (by have := hp x; omega)
    exact absurd rfl (firstWaiting_eq_none (hno _ before) hx)

theorem selected_eq_some (hp : PrioritiesOk s) : selected s = some d ↔ Selected d s := by
  refine ⟨selected_of_eq_some hp, fun h => ?_⟩
  cases hs : selected s with
  | some e => rw [(selected_of_eq_some hp hs).unique h]
  | none =>
    have listed : priority d s ∈ ([3, 2, 1, 0] : List Nat) := by
      have := hp d
      simp only [List.mem_cons, List.not_mem_nil, or_false]
      omega
    rw [selected_eq] at hs
    exact absurd rfl (firstWaiting_eq_none (List.findSome?_eq_none_iff.mp hs _ listed) h.1)

/-! ## The client granted (R60) -/

/-- The places that a waiting request of worst case `w` asks for (R60). -/
def Client.asks (x : Client) (w : Nat) : Nat := if x = .release then w else w + 5

theorem fits_eq {w : Nat} (h : requestOf x s = some w) : fits x s = decide (x.asks w ≤ freePlaces s) := by
  cases x <;> simp only [fits, h] <;> rfl

theorem fits_iff (hc : claims s ≤ 64) : fits x s = true ↔ PlacesEnough x s := by
  cases hr : requestOf x s with
  | none => simp [fits, PlacesEnough, hr]
  | some w =>
    have enough : PlacesEnough x s ↔ x.asks w + claims s ≤ 64 := by
      simp [PlacesEnough, hr, Client.asks]
    rw [fits_eq hr, decide_eq_true_iff, enough, freePlaces, Config.orderPlaces]
    omega

/-- The client granted is the one selected, or the release path in its place. -/
theorem grantee_eq_some (hp : PrioritiesOk s) (hc : claims s ≤ 64) (h : grantee s = some c) :
    PlacesEnough c s ∧
      ∃ d, Selected d s ∧ (c = d ∨ c = .release ∧ d ≠ .release ∧ ¬ PlacesEnough d s) := by
  unfold grantee at h
  split at h
  · cases h
  · next d hs =>
    have selected := selected_of_eq_some hp hs
    split at h
    · next hf =>
      cases h
      exact ⟨(fits_iff hc).mp hf, c, selected, .inl rfl⟩
    · next hf =>
      split at h
      · next hr =>
        cases h
        refine ⟨(fits_iff hc).mp hr, d, selected, .inr ⟨rfl, ?_, fun k => hf ((fits_iff hc).mpr k)⟩⟩
        rintro rfl
        exact hf hr
      · cases h

theorem grantee_eq_none (hp : PrioritiesOk s) (hc : claims s ≤ 64) (h : grantee s = none) (hd : Selected d s) :
    ¬ PlacesEnough d s ∧ ¬ PlacesEnough .release s := by
  unfold grantee at h
  rw [(selected_eq_some hp).mpr hd] at h
  dsimp only at h
  rw [← fits_iff hc, ← fits_iff hc]
  split at h
  · cases h
  · next hf =>
    split at h
    · cases h
    · next hr => exact ⟨hf, hr⟩

/-! ## The worst cases (R59) -/

theorem extendWorst_line {e : ExtendRequest} {lo : Nat} (ho : (call e.call s).origin = some (.line lo)) :
    extendWorst e s = if e.allow then 7 else match e.dest with | .line _ => 3 | .route _ => 1 := by
  cases ha : e.allow <;> cases hd : e.dest <;> simp [extendWorst, Call.lineOrigin, Call.answerPlaces, ho, ha, hd]

theorem extendWorst_junction {e : ExtendRequest} {j : Nat} (ho : (call e.call s).origin = some (.junction j)) :
    extendWorst e s = match e.dest with | .line _ => 4 | .route _ => 2 := by
  cases hd : e.dest <;> simp [extendWorst, Call.lineOrigin, Call.answerPlaces, ho, hd]

theorem extendWorst_none {e : ExtendRequest} (ho : (call e.call s).origin = none) :
    extendWorst e s = match e.dest with | .line _ => 3 | .route _ => 1 := by
  cases hd : e.dest <;> simp [extendWorst, Call.lineOrigin, Call.answerPlaces, ho, hd]

/-! ## The hunt of a route (R68) -/

theorem hunt_congr (h : t.net = s.net) (r start : Nat) (onPlane : Nat → Bool) :
    hunt r start onPlane t = hunt r start onPlane s := by
  have hj : t.net.junctions = s.net.junctions := congrArg _ h
  unfold hunt hunts
  simp only [avail_congr h, junction_congr hj]

/-! ## A junction taken as the terminating side (R68) -/

section TakeJunction

variable {id r j cord : Nat}

theorem takeJunction_frame (id r j cord : Nat) (s : Part) :
    takeJunction id r j cord s = { s with
      orders := s.orders ++ [{ id := s.serial, call := id, act := .operate (.junctor j cord .t) }]
      serial := s.serial + 1, calls := (takeJunction id r j cord s).calls
      net.junctions := (takeJunction id r j cord s).net.junctions
      net.routes := (takeJunction id r j cord s).net.routes } := rfl

theorem call_takeJunction (h : TablesOk s) (x : Nat) :
    call x (takeJunction id r j cord s) =
      if x = id then
        { call id s with
          op := .extension, opFailed := false, yielded := false, set := { (call id s).set with tjunction := some j }
          term := some (.junction j), state := .settingTerm
          xps := setXp (.junctor j cord .t) .operating (call id s).xps }
      else call x s := by
  have calls : (takeJunction id r j cord s).calls = (modCall id (fun c =>
      { c with
        op := .extension, opFailed := false, yielded := false, set := { c.set with tjunction := some j }
        term := some (.junction j), state := .settingTerm
        xps := setXp (.junctor j cord .t) .operating c.xps }) s).calls := by
    simp [takeJunction, placeOperate, beginOp, reserve, setOcc, h.calls]
    rfl
  rw [call_congr calls, call_modCall_eq _ _ _ h.calls]

theorem junction_takeJunction (h : TablesOk s) (x : Nat) :
    junction x (takeJunction id r j cord s) =
      if x = j then { junction j s with elem := { (junction j s).elem with occ := .reserved } } else junction x s := by
  refine (junction_congr (s := setOcc (.junction j) .reserved s) rfl x).trans ?_
  by_cases e : x = j <;> simp [setOcc, h.junctions, e]

theorem route_takeJunction (h : TablesOk s) (x : Nat) :
    route x (takeJunction id r j cord s) =
      if x = r then { route r s with hunt := (j + 1) % 48 } else route x s := by
  refine (route_congr (s := modRoute r (fun x => { x with hunt := (j + 1) % 48 }) s) rfl x).trans ?_
  split
  · next e => rw [e, route_modRoute h]
  · next e => exact route_modRoute_of_ne e _

theorem tablesOk_takeJunction (h : TablesOk s) : TablesOk (takeJunction id r j cord s) :=
  have routes : TablesOk (modRoute r (fun x => { x with hunt := (j + 1) % 48 }) (reserve (.junction j) s)) :=
    (low_modRoute (low_reserve (Low.refl s))).tablesOk h
  ((routes.modCall _ _).modCall _ _).placeOperate _ _

end TakeJunction

end Sys2Proof.Machine
end
section
/-!
PROOFS. The arbiter and its grants to the release path and to the Origination Server (R47, R48, R50, R57, R80).
-/

namespace Sys2Proof.Machine

variable {s t v : Part} {id cord w : Nat} {c : Ctl} {o : Party}

/-! ## What a client's request asks for (R59) -/

/-- The clause of O56 on the requests of the four clients. -/
theorem requestOf_spec (s : Part) :
    requestOf .server s = s.orig.request ∧
    (∀ c, (ctl c s).extend = none → requestOf (.ctl c) s = none) ∧
    (∀ c e, (ctl c s).extend = some e →
      requestOf (.ctl c) s =
        some
          (match e.allow, (call e.call s).origin with
            | true, some (.line _) => 7
            | _, some (.junction _) => (match e.dest with | .line _ => 4 | .route _ => 2)
            | _, _ => (match e.dest with | .line _ => 3 | .route _ => 1))) ∧
    (s.arb.releaseWait = [] → requestOf .release s = none) ∧
    ∀ id rest, s.arb.releaseWait = id :: rest → requestOf .release s = some (5 - (call id s).claim) := by
  refine ⟨rfl, fun c h => by simp [requestOf, h], fun c e h => ?_, fun h => by simp [requestOf, h],
    fun id rest h => by simp [requestOf, h, Config.releasePlaces]⟩
  have worst : requestOf (.ctl c) s = some (extendWorst e s) := by simp [requestOf, h]
  rw [worst]
  cases ho : (call e.call s).origin with
  | none => rw [extendWorst_none ho]; cases e.allow <;> cases e.dest <;> rfl
  | some x =>
    cases x with
    | line lo => rw [extendWorst_line ho]; cases e.allow <;> cases e.dest <;> rfl
    | junction j => rw [extendWorst_junction ho]; cases e.allow <;> cases e.dest <;> rfl

/-! ## Grants that end at once -/

/-- With no client to grant, a grant changes nothing (R60). -/
theorem grant_of_none (h : grantee s = none) : grant s = s := by simp [grant, h]

/-- The release path's grant takes the head of the release wait list, with a claim of 5 (R80). -/
theorem grant_release {rest : List Nat} (h : grantee s = some .release) (hw : s.arb.releaseWait = id :: rest) :
    grant s = releaseStep1 id
      (modCall id (fun r => { r with claim := max r.claim 5 })
        { s with
          arb := { last := s.arb.last.set s.timers.prioRelease .release, releaseWait := rest } }) := by
  have granted : grant s = grantRelease (recordGrant .release s) := by simp [grant, h]
  rw [granted, grantRelease, show (recordGrant .release s).arb.releaseWait = id :: rest from hw]
  rfl

theorem grant_server (h : grantee s = some .server) (hr : s.orig.request = some w) :
    grant s = grantServer w (recordGrant .server s) := by
  simp [grant, h, requestOf, hr]

/-- A grant that the server returns unused (R48): it tests for its next request. -/
theorem grant_unused (h : grantee s = some .server) (hr : s.orig.request = some w)
    (hx : ∀ x, chooseWork s = some x → w < x.need s) :
    grant s = { s with
      arb.last := s.arb.last.set s.timers.prioServer .server
      orig.request := (chooseWork s).map (Work.worst s) } := by
  have same := sameWork_serverGranted s
  have unused : grantServer w (recordGrant .server s) = retry (serverGranted s) := by
    unfold grantServer
    dsimp only
    rw [show ({ recordGrant .server s with
      orig := { (recordGrant .server s).orig with request := none } } : Part) = serverGranted s from rfl,
      same.chooseWork]
    cases hc : chooseWork s with
    | none => rfl
    | some x => exact if_pos (by have := hx x hc; cases x <;> exact this)
  rw [grant_server h hr, unused, retry, same.request]
  rfl

/-- A grant with which the server does the work it chooses (R48); it then tests for its next request. -/
theorem grant_performs {x : Work} (h : grantee s = some .server) (hr : s.orig.request = some w)
    (hc : chooseWork s = some x) (hw : x.need s ≤ w) : grant s = retry (perform x (serverGranted s)) := by
  rw [grant_server h hr]
  unfold grantServer
  dsimp only
  rw [show ({ recordGrant .server s with
    orig := { (recordGrant .server s).orig with request := none } } : Part) = serverGranted s from rfl,
    (sameWork_serverGranted s).chooseWork.trans hc]
  exact if_neg (Nat.not_lt.mpr (by cases x <;> exact hw))

/-! ## A marked origin is queued (R50) -/

/-- Everything that queueing an origin changes. -/
theorem enqueue_frame (o : Party) (s : Part) :
    enqueue o s = { s with
      net := (unmark o s).net
      orig := { s.orig with
        queue := s.orig.queue ++ [{ origin := o, limit := 10 * s.timers.waitLimit }]
        pointer := if isMarked o s then partyPoint o else s.orig.pointer } } := by
  have pointer : advancePointer o s =
      { s with orig.pointer := if isMarked o s then partyPoint o else s.orig.pointer } := by
    unfold advancePointer
    split <;> rfl
  unfold enqueue
  rw [pointer]
  cases o <;> rfl

theorem line_unmark (h : TablesOk s) (o : Party) (lt : Nat) :
    line lt (unmark o s) = if o = .line lt then { line lt s with marked := false } else line lt s := by
  cases o with
  | line x =>
    rcases eq_or_ne lt x with rfl | e
    · simp [unmark, h.lines]
    · simp [unmark, e, e.symm, h.lines]
  | junction j => simp [unmark]

theorem junction_unmark (h : TablesOk s) (o : Party) (j : Nat) :
    junction j (unmark o s) = if o = .junction j then { junction j s with marked := false } else junction j s := by
  cases o with
  | line x => simp [unmark]
  | junction x =>
    rcases eq_or_ne j x with rfl | e
    · simp [unmark, h.junctions]
    · simp [unmark, e, e.symm, h.junctions]

/-- The clause of O56 on a marked origin that is queued. -/
theorem granted_enqueue {s : State} {x : Party} (h : TablesOk s.part) (hg : grantee s.part = some .server)
    (hr : s.part.orig.request = some w) (hc : chooseWork s.part = some (.enqueue x)) :
    ∃ t, exec .arbiterGrant s = .next t ∧ t.pending = s.pending ∧
      t.part.orig =
        { s.part.orig with
          queue := s.part.orig.queue ++ [{ origin := x, wait := 0, limit := 10 * s.part.timers.waitLimit }]
          pointer := if isMarked x s.part then partyPoint x else s.part.orig.pointer
          request := (chooseWork t.part).map (Work.worst t.part) } ∧
      (∀ lt, line lt t.part =
        if x = .line lt then { line lt s.part with marked := false } else line lt s.part) ∧
      (∀ j, junction j t.part =
        if x = .junction j then { junction j s.part with marked := false } else junction j s.part) ∧
      t.part = { s.part with
        net.lines := t.part.net.lines, net.junctions := t.part.net.junctions, orig := t.part.orig
        arb.last := s.part.arb.last.set s.part.timers.prioServer .server } := by
  obtain ⟨t, ht⟩ : ∃ t, t = retry (enqueue x (serverGranted s.part)) := ⟨_, rfl⟩
  have made : exec .arbiterGrant s = .next { s with part := t } := by
    show Host.Outcome.next { s with part := grant s.part } = _
    rw [grant_performs hg hr hc (Nat.zero_le _), ht]
    rfl
  have marked : isMarked x (serverGranted s.part) = isMarked x s.part := by cases x <;> rfl
  have frame : t = { serverGranted s.part with
      net := (unmark x (serverGranted s.part)).net
      orig := { s.part.orig with
        queue := s.part.orig.queue ++ [{ origin := x, limit := 10 * s.part.timers.waitLimit }]
        pointer := if isMarked x s.part then partyPoint x else s.part.orig.pointer
        request := t.orig.request } } := by
    rw [ht, enqueue_frame, marked]
    rfl
  have net : t.net = (unmark x s.part).net := by rw [frame]; cases x <;> rfl
  refine ⟨_, made, rfl, ?_⟩
  dsimp only
  refine ⟨?_, fun lt => ?_, fun j => ?_, ?_⟩
  · rw [show (chooseWork t).map (Work.worst t) = t.orig.request by rw [ht]; exact (retry_request _).symm, frame]
  · rw [line_congr (congrArg Net.lines net), line_unmark h]
  · rw [junction_congr (congrArg Net.junctions net), junction_unmark h]
  · rw [frame]
    cases x <;> rfl

/-! ## A re-hunt (R57) -/

/-- The re-hunt chosen is listed and ready. -/
theorem ready_of_chooseWork {x : Rehunt} (h : chooseWork s = some (.rehunt x)) :
    x ∈ s.orig.rehunts ∧ rehuntReady x s = true := by
  unfold chooseWork at h
  split at h
  · next e he =>
    cases h
    exact ⟨List.mem_of_find?_eq_some he, List.find?_some (p := fun e => rehuntReady e s) he⟩
  · split at h
    · cases h
    · split at h
      · next o _ => by_cases hs : canServe o s = true <;> simp [hs] at h
      · cases h

/-- The entry of a re-hunt is MADE, and its call has the claim of a junction extension. -/
def rehuntMade (x : Rehunt) (s : Part) : Part :=
  opClaim x.call 1
    { s with orig.rehunts := s.orig.rehunts.map (fun y => if y.call = x.call then { y with made := true } else y) }

theorem tablesOk_rehuntMade (h : TablesOk s) (x : Rehunt) : TablesOk (rehuntMade x s) :=
  (low_opClaim (low_with_orig (Low.refl s) _)).tablesOk h

theorem call_rehuntMade (h : TablesOk s) (x : Rehunt) (y : Nat) :
    call y (rehuntMade x s) =
      if y = x.call then { call y s with claim := 1 + (call y s).answerPlaces } else call y s := by
  rw [call_congr (s := modCall x.call (fun c => { c with claim := 1 + c.answerPlaces }) s) (t := rehuntMade x s) rfl,
    call_modCall_eq _ _ _ h.calls]
  by_cases e : y = x.call <;> simp [e]

/-- The clause of O56 on a re-hunt that finds a junction. -/
theorem granted_rehunt {s : State} {x : Rehunt} {j : Nat} (h : TablesOk s.part) (hg : grantee s.part = some .server)
    (hr : s.part.orig.request = some w) (hc : chooseWork s.part = some (.rehunt x))
    (hw : 1 + (call x.call s.part).answerPlaces ≤ w) (hk : (call x.call s.part).set.cord = some cord)
    (hj : hunt x.route ((x.junction + 1) % 48) (fun k => decide (k = cord / 8)) s.part = some j) :
    let r := call x.call s.part
    ∃ t, exec .arbiterGrant s = .next t ∧ t.pending = s.pending ∧
      call x.call t.part =
        { r with
          claim := 1 + r.answerPlaces, op := .extension, opFailed := false, yielded := false
          set := { r.set with tjunction := some j }, term := some (.junction j), state := .settingTerm
          xps := setXp (.junctor j cord .t) .operating r.xps } ∧
      (∀ y, y ≠ x.call → call y t.part = call y s.part) ∧
      t.part.orders = s.part.orders ++
        [{ id := s.part.serial, call := x.call, act := .operate (.junctor j cord .t) }] ∧
      t.part.orig.rehunts =
        s.part.orig.rehunts.map (fun y => if y.call = x.call then { y with made := true } else y) ∧
      (junction j t.part).elem.occ = .reserved ∧
      route x.route t.part = { route x.route s.part with hunt := (j + 1) % 48 } ∧
      t.part.orig.request = (chooseWork t.part).map (Work.worst t.part) := by
  intro r
  have granted := tablesOk_serverGranted h
  obtain ⟨v, hv⟩ : ∃ v, v = rehuntMade x (serverGranted s.part) := ⟨_, rfl⟩
  have tables : TablesOk v := hv ▸ tablesOk_rehuntMade granted x
  have record : ∀ y, call y v = if y = x.call then { call y s.part with claim := 1 + (call y s.part).answerPlaces }
      else call y s.part := fun y => by rw [hv, call_rehuntMade granted]; rfl
  obtain ⟨t, ht⟩ : ∃ t, t = retry (takeJunction x.call x.route j cord v) := ⟨_, rfl⟩
  have made : exec .arbiterGrant s = .next { s with part := t } := by
    have hunted : hunt x.route ((x.junction + 1) % 48) (fun k => decide (k = cordPlane cord)) v = some j :=
      (hunt_congr (by rw [hv]; rfl) _ _ _).trans hj
    have e : rehunt x (serverGranted s.part) = takeJunction x.call x.route j cord v := by
      unfold rehunt
      dsimp only
      rw [show opClaim x.call 1 _ = v from hv.symm, record, if_pos rfl]
      simp only [hk, Option.getD_some, Config.junctions, hunted]
    show Host.Outcome.next { s with part := grant s.part } = _
    rw [grant_performs hg hr hc hw, ht, ← e]
    rfl
  have calls : ∀ y, call y t = call y (takeJunction x.call x.route j cord v) := fun y => by rw [ht, call_retry]
  refine ⟨_, made, rfl, ?_⟩
  dsimp only
  refine ⟨?_, fun y hy => ?_, ?_, ?_, ?_, ?_, by rw [ht]; exact retry_request _⟩
  · rw [calls, call_takeJunction tables, if_pos rfl, record, if_pos rfl]
  · rw [calls, call_takeJunction tables, if_neg hy, record, if_neg hy]
  · rw [ht, retry_orders, takeJunction_frame, hv]
    rfl
  · rw [ht, retry_rehunts, takeJunction_frame, hv]
    rfl
  · rw [ht, junction_retry, junction_takeJunction tables, if_pos rfl]
  · rw [ht, route_congr (congrArg Net.routes (retry_net _)), route_takeJunction tables, if_pos rfl, hv]
    rfl

/-! ## An extension whose re-hunt fails (R57, R92) -/

/-- A failed extension has been reversed; `v` is the part once its terminating side and its re-hunt entry have gone,
and nothing is armed at the call's points then. -/
theorem setFailed_told (h : TablesOk v) (hv : dropRehunt id (leaveTerm id (beginOp id .idle s)) = v)
    (g : OwnerTakes id c v) (hw : t = modCall id (Call.failedBack (interdigitLimit v)) v)
    (hq : ∀ p ∈ callPoints (call id t), armed p t = none) :
    setFailed id s =
      disarm (callPoints (call id t))
        (enter (.ctl c) (.call .setFailed id ([b8 id] ++ destFields (call id v).dest)) t) := by
  obtain ⟨x, hx⟩ : ∃ x,
    x = modCall id (fun c => { c with state := .dialling, band := none, dest := none, claim := 0 }) v :=
    ⟨_, rfl⟩
  have record : call id x = { call id v with state := .dialling, band := none, dest := none, claim := 0 } := by
    rw [hx, call_modCall h]
  have takes : OwnerTakes id c x :=
    ⟨by rw [record]; exact g.owner, by rw [record]; exact g.pend, by simpa [hx] using g.room⟩
  have e : setFailed id s = watchCall id
      (enter (.ctl c) (.call .setFailed id ([b8 id] ++ destFields (call id v).dest)) t) := by
    unfold setFailed
    simp only [hv, ← hx]
    rw [raiseCall_enters (k := .setFailed) takes (by decide), startInterdigit, startTimer, modCall_enter, hx,
      modCall_modCall _ _ _ h.calls, hw]
    cases c <;> rfl
  rw [e, watchCall_enter (hw ▸ h.modCall _ _) hq]

/-- The entry of a call in the re-hunt list is removed, and the server tests for its next request. -/
theorem dropRehunt_of_listed (h : ∃ x ∈ s.orig.rehunts, x.call = id) :
    dropRehunt id s = retry { s with orig.rehunts := s.orig.rehunts.filter (fun e => decide (e.call ≠ id)) } := by
  obtain ⟨x, hx, hc⟩ := h
  exact if_pos (List.any_eq_true.mpr ⟨x, hx, decide_eq_true hc⟩)

/-- A call of one cord in an extension without a terminating side: its origin, if it is in the call, is a line, and
its O point shows LOOP with no pulse counted. -/
structure RehuntCall (id cord : Nat) (s : Part) : Prop where
  noTerm : (call id s).term = none
  joined : (call id s).set.cord = some cord
  origin : (call id s).origin = none ∨
    ∃ lo, (call id s).origin = some (.line lo) ∧ lo < 2048 ∧ (line lo s).sup = .inCall id
  silent : (call id s).lineSpeaks = false
  noNew : (call id s).new = {}
  inRange : cord < 96
  named : callOfElem (.cord cord) s = some id
  loop : (point (2048 + cord) s).accepted = .loop
  still : (point (2048 + cord) s).pulses = 0

/-- No event is armed at the points of such a call. -/
theorem RehuntCall.armed_none (g : RehuntCall id cord s) : ∀ p ∈ callPoints (call id s), armed p s = none := by
  have ends : ∀ p ∈ [2048 + cord, 2144 + cord], armed p s = none := by
    simp only [List.mem_cons, List.not_mem_nil, or_false]
    rintro p (rfl | rfl)
    · exact armed_oEnd_of_loop g.inRange g.loop (.inl g.still)
    · exact armed_tEnd_of_call g.inRange g.named (.inl fun lt => by rw [g.noTerm]; exact (Option.some_ne_none _).symm)
  intro p hp
  simp only [callPoints, g.joined, g.noNew, g.noTerm, Option.toList_some, Option.toList_none, List.append_nil,
    List.flatMap_cons, List.flatMap_nil, Option.map_none, List.mem_append, oPoint, tPoint] at hp
  rcases hp with hp | hp
  · exact ends p hp
  · rcases g.origin with ho | ⟨lo, ho, hl, hs⟩
    · simp [ho] at hp
    · obtain rfl : p = lo := by simpa [ho, partyPoint] using hp
      exact armed_line_inCall hl hs g.silent

/-- What no test of such a call reads may change. -/
theorem RehuntCall.of_same (g : RehuntCall id cord s) (h : TablesOk s) (ht : TablesOk t) (net : t.net = s.net)
    (points : t.scan.points = s.scan.points) (others : ∀ x, x ≠ id → call x t = call x s)
    (active : (call id t).active = true)
    (record : ((call id t).term, (call id t).origin, (call id t).lineSpeaks) =
      ((call id s).term, (call id s).origin, (call id s).lineSpeaks))
    (sets : ((call id t).set, (call id t).old, (call id t).new) =
      ((call id s).set, (call id s).old, (call id s).new)) : RehuntCall id cord t := by
  obtain ⟨hterm, horigin, hspeaks⟩ : _ ∧ _ ∧ _ := by simpa using record
  obtain ⟨hset, hold, hnew⟩ : _ ∧ _ ∧ _ := by simpa using sets
  have line : ∀ x, line x t = line x s := line_congr (congrArg Net.lines net)
  have point : ∀ x, point x t = point x s := point_congr points
  exact {
    noTerm := by rw [hterm]; exact g.noTerm
    joined := by rw [hset]; exact g.joined
    origin := by simp only [horigin, line]; exact g.origin
    silent := by rw [hspeaks]; exact g.silent
    noNew := by rw [hnew]; exact g.noNew
    inRange := g.inRange
    named := (callOfElem_of_call h.calls ht.calls _ others
      (by rw [active, (active_of_callOfElem h.calls g.named).1]) (by simp only [Call.elems, hset, hold, hnew])).trans
        g.named
    loop := by rw [point]; exact g.loop
    still := by rw [point]; exact g.still }

/-- Which entries of the re-hunt list are of other calls does not hang on a mark of one call's entry. -/
theorem others_of_made (id : Nat) (l : List Rehunt) :
    (l.map fun y => if y.call = id then { y with made := true } else y).filter (fun y => decide (y.call ≠ id)) =
      l.filter fun y => decide (y.call ≠ id) := by
  induction l with
  | nil => rfl
  | cons y l ih => by_cases hy : y.call = id <;> simp_all

/-- The clause of O56 on a re-hunt that finds no junction. -/
theorem granted_rehunt_fails {s : State} {x : Rehunt} {rt : Nat} (h : TablesOk s.part)
    (hg : grantee s.part = some .server) (hr : s.part.orig.request = some w)
    (hc : chooseWork s.part = some (.rehunt x)) (hw : 1 + (call x.call s.part).answerPlaces ≤ w)
    (hj : hunt x.route ((x.junction + 1) % 48) (fun k => decide (k = cord / 8)) s.part = none)
    (hd : (call x.call s.part).dest = some (.route rt)) (ho : OwnerTakes x.call c s.part)
    (g : RehuntCall x.call cord s.part) :
    ∃ t, exec .arbiterGrant s = .next t ∧ t.pending = s.pending ∧
      (call x.call t.part).state = .dialling ∧ (call x.call t.part).claim = 0 ∧
      (call x.call t.part).band = none ∧
      t.part.orig.rehunts = s.part.orig.rehunts.filter (fun y => decide (y.call ≠ x.call)) ∧
      noticesDue (.ctl c) t.part = noticesDue (.ctl c) s.part ++
        [.call .setFailed x.call ([b8 x.call] ++ [1] ++ b16 rt)] ∧
      t.part.orig.request = (chooseWork t.part).map (Work.worst t.part) := by
  have granted := tablesOk_serverGranted h
  obtain ⟨u, hu⟩ : ∃ u, u = rehuntMade x (serverGranted s.part) := ⟨_, rfl⟩
  have hut : TablesOk u := hu ▸ tablesOk_rehuntMade granted x
  have made : call x.call u = { call x.call s.part with claim := 1 + (call x.call s.part).answerPlaces } := by
    rw [hu, call_rehuntMade granted, if_pos rfl]
    rfl
  obtain ⟨v, hv⟩ : ∃ v, v = dropRehunt x.call (leaveTerm x.call (beginOp x.call .idle u)) := ⟨_, rfl⟩
  have begun : call x.call (beginOp x.call .idle u) =
      { call x.call u with op := .idle, opFailed := false, yielded := false } := call_modCall hut _ _
  have left : leaveTerm x.call (beginOp x.call .idle u) = beginOp x.call .idle u := by
    simp [leaveTerm, begun, made, g.noTerm]
  have listed : ∃ y ∈ (beginOp x.call .idle u).orig.rehunts, y.call = x.call :=
    ⟨{ x with made := true }, by rw [hu]; exact List.mem_map.mpr ⟨x, (ready_of_chooseWork hc).1, if_pos rfl⟩, rfl⟩
  have dropped := hv
  rw [left, dropRehunt_of_listed listed] at dropped
  have hvt : TablesOk v := by
    rw [hv, left]
    exact (low_dropRehunt (Low.refl _)).tablesOk (hut.modCall _ _)
  have calls : ∀ y, call y v = call y (beginOp x.call .idle u) := fun y => by
    rw [dropped, call_retry]
    rfl
  have record : call x.call v = { call x.call s.part with
      claim := 1 + (call x.call s.part).answerPlaces, op := .idle, opFailed := false, yielded := false } := by
    rw [calls, begun, made]
  have others : ∀ y, y ≠ x.call → call y v = call y s.part := fun y hy => by
    rw [calls, beginOp, call_modCall_of_ne hy, hu, call_rehuntMade granted, if_neg hy]
    rfl
  have net : v.net = s.part.net := by rw [dropped, hu]; rfl
  have scan : v.scan = s.part.scan := by rw [dropped, hu]; rfl
  have link : io (.ctl c) v = io (.ctl c) s.part := by rw [dropped, hu]; cases c <;> rfl
  have takes : OwnerTakes x.call c v :=
    ⟨by rw [record]; exact ho.owner, by rw [record]; exact ho.pend, by rw [link]; exact ho.room⟩
  obtain ⟨t, ht⟩ : ∃ t, t = modCall x.call (Call.failedBack (interdigitLimit v)) v := ⟨_, rfl⟩
  have back : call x.call t = Call.failedBack (interdigitLimit v) (call x.call v) := by rw [ht, call_modCall hvt]
  have quiet : RehuntCall x.call cord t := g.of_same h (ht ▸ hvt.modCall _ _) (by rw [ht]; exact net)
    (by rw [ht]; exact congrArg _ scan) (fun y hy => by rw [ht, call_modCall_of_ne hy, others y hy])
    (by rw [back]; rfl) (by rw [back, record]; rfl) (by rw [back, record]; rfl)
  have told := setFailed_told hvt hv.symm takes ht quiet.armed_none
  obtain ⟨q, hq⟩ : ∃ q, q = retry (setFailed x.call u) := ⟨_, rfl⟩
  have exec' : exec .arbiterGrant s = .next { s with part := q } := by
    have hunted : hunt x.route ((x.junction + 1) % 48) (fun k => decide (k = cordPlane cord)) u = none :=
      (hunt_congr (by rw [hu]; rfl) _ _ _).trans hj
    have e : rehunt x (serverGranted s.part) = setFailed x.call u := by
      unfold rehunt
      dsimp only
      rw [show opClaim x.call 1 _ = u from hu.symm, made]
      simp only [g.joined, Option.getD_some, Config.junctions, hunted]
    show Host.Outcome.next { s with part := grant s.part } = _
    rw [grant_performs hg hr hc hw, hq, ← e]
    rfl
  have final : call x.call q = Call.failedBack (interdigitLimit v) (call x.call v) := by
    rw [hq, call_retry, told, call_disarm, call_enter, back]
  refine ⟨_, exec', rfl, ?_⟩
  dsimp only
  refine ⟨by rw [final]; rfl, by rw [final]; rfl, by rw [final]; rfl, ?_, ?_, by rw [hq]; exact retry_request _⟩
  · rw [hq, told, retry_rehunts, orig_disarm, orig_enter, ht, modCall_orig, dropped, retry_rehunts, hu]
    exact others_of_made x.call s.part.orig.rehunts
  · have dest : (call x.call v).dest = some (.route rt) := by rw [record]; exact hd
    rw [hq, noticesDue_congr (io_retry _), told, dest]
    exact noticesDue_announced _ (by rw [ht]; simpa using link)

/-! ## The statement -/

/-- Settles O56: the search of the arbiter finds the first waiting client of the highest priority, and each grant does
the work that its client's request stands for. -/
theorem arbiterKeepsPlacesForReleases : Obligations.ArbiterKeepsPlacesForReleases := by
  refine ⟨fun s c h1 h2 h3 h4 hg hc => grantee_eq_some (prioritiesOk_of h1 h2 h3 h4) hc hg,
    fun s h1 h2 h3 h4 hg hc d hd => grantee_eq_none (prioritiesOk_of h1 h2 h3 h4) hc hg hd, requestOf_spec,
    fun s h => ?_⟩
  have makes : ∀ q, grant s.part = q → Makes .arbiterGrant s q := fun q hq => by rw [← hq]; rfl
  refine ⟨fun hg => makes _ (grant_of_none hg), fun id rest hg hw => makes _ (grant_release hg hw),
    fun w hg hr => ⟨fun hc => ?_, fun x hc hw => ?_, fun x hc => ?_, fun x cord hc hw hk => ⟨fun j hj => ?_, ?_⟩⟩⟩
  · refine makes _ ((grant_unused hg hr fun x hx => by rw [hc] at hx; cases hx).trans ?_)
    rw [hc]
    rfl
  · refine makes _ (grant_unused hg hr fun y hy => ?_)
    rw [hc] at hy
    cases hy
    exact hw
  · have e := granted_enqueue h hg hr hc
    cases x <;> exact e
  · exact granted_rehunt h hg hr hc hw hk hj
  · intro c rt hj hd ho hp hroom horigin hspeaks hnew hcord hnamed hloop hstill
    have ready := rehuntReady_iff.mp (ready_of_chooseWork hc).2
    exact granted_rehunt_fails h hg hr hc hw hj hd ⟨ho, hp, hroom⟩
      ⟨ready.2.1, hk, horigin, hspeaks, hnew, hcord, hnamed, hloop, hstill⟩

end Sys2Proof.Machine
end
section
/-!
SUPPORT. The planes of a reswitch (R72) and the hunt of a route (R68): what each search finds, in its cyclic order.
-/

namespace Sys2Proof.Machine

variable {s : Part}

/-! ## The plane of a reswitch (R72) -/

/-- A reswitch between two frames qualifies on plane `p` with cord `c`: both frame links to the plane are available,
and the cord is one of the plane's, available. -/
def PlaneReached (f1 f2 : Nat) (s : Part) (p c : Nat) : Prop :=
  avail (.fl (12 * f1 + p)) s = true ∧ avail (.fl (12 * f2 + p)) s = true ∧ c / 8 = p ∧ avail (.cord c) s = true

/-- How far a plane stands behind the call's own, cyclically. -/
def planesBehind (k p : Nat) : Nat := (p + 12 - k) % 12

/-- The planes that a reswitch tries: the eleven after the call's own. -/
theorem planesAfter_eq (k : Nat) : (planesFrom (k + 1)).take 11 = (List.range 11).map fun i => (k + 1 + i) % 12 := by
  rw [planesFrom, ← List.map_take, List.take_range]
  rfl

theorem planesAfter_pairwise {k : Nat} (hk : k < 12) :
    ((planesFrom (k + 1)).take 11).Pairwise (fun p q => planesBehind k p < planesBehind k q) := by
  rw [planesAfter_eq]
  refine List.pairwise_map.mpr (List.pairwise_lt_range.imp_of_mem fun hi hj hij => ?_)
  have hi := List.mem_range.mp hi
  have hj := List.mem_range.mp hj
  unfold planesBehind
  omega

theorem mem_planesAfter {k p : Nat} (hk : k < 12) : p ∈ (planesFrom (k + 1)).take 11 ↔ p < 12 ∧ p ≠ k := by
  rw [planesAfter_eq]
  simp only [List.mem_map, List.mem_range]
  constructor
  · rintro ⟨i, hi, rfl⟩
    omega
  · rintro ⟨hp, hne⟩
    exact ⟨(p + 11 - k) % 12, by omega, by omega⟩

/-- What a reswitch finds on one plane. -/
def planeFound (f1 f2 : Nat) (s : Part) (p : Nat) : Option (Nat × Nat) :=
  if avail (.fl (flNumber f1 p)) s && avail (.fl (flNumber f2 p)) s then (lowestCord p s).map (fun c => (p, c)) else none

theorem linePlane_eq (f1 f2 k : Nat) (s : Part) :
    linePlane f1 f2 k s = ((planesFrom (k + 1)).take 11).findSome? (planeFound f1 f2 s) := rfl

theorem planeFound_eq_none {f1 f2 p : Nat} (h : planeFound f1 f2 s p = none) (c : Nat) : ¬ PlaneReached f1 f2 s p c := by
  rintro ⟨h1, h2, hc, ha⟩
  have shut : lowestCord p s = none := by
    simpa [planeFound, flNumber, Config.planes, h1, h2] using h
  exact absurd (lowestCord_eq_none.mp shut c hc) (by rw [ha]; decide)

theorem planeFound_eq_some {f1 f2 p q c : Nat} (h : planeFound f1 f2 s p = some (q, c)) :
    q = p ∧ PlaneReached f1 f2 s p c ∧ ∀ d, d < c → ¬ PlaneReached f1 f2 s p d := by
  unfold planeFound at h
  split at h
  · next hfl =>
    obtain ⟨h1, h2⟩ := Bool.and_eq_true_iff.mp hfl
    obtain ⟨x, hx, e⟩ := Option.map_eq_some_iff.mp h
    obtain ⟨rfl, rfl⟩ := Prod.mk.inj e
    obtain ⟨hc, ha, lower⟩ := lowestCord_eq_some.mp hx
    refine ⟨rfl, ⟨h1, h2, hc, ha⟩, fun d hd hr => ?_⟩
    exact absurd (lower d hr.2.2.1 hd) (by rw [hr.2.2.2]; decide)
  · cases h

/-- The first clause of O30 on the plane that R72 chooses. -/
theorem linePlane_eq_some {f1 f2 k p c : Nat} (hk : k < 12) (h : linePlane f1 f2 k s = some (p, c)) :
    p < 12 ∧ p ≠ k ∧ PlaneReached f1 f2 s p c ∧ (∀ d, d < c → ¬ PlaneReached f1 f2 s p d) ∧
      ∀ q d, q < 12 → q ≠ k → planesBehind k q < planesBehind k p → ¬ PlaneReached f1 f2 s q d := by
  rw [linePlane_eq] at h
  obtain ⟨as, a, bs, hl, ha, hno⟩ := List.findSome?_eq_some_iff.mp h
  obtain ⟨rfl, reached, lower⟩ := planeFound_eq_some ha
  have listed : p ∈ (planesFrom (k + 1)).take 11 := hl ▸ List.mem_append_right _ List.mem_cons_self
  obtain ⟨hp, hne⟩ := (mem_planesAfter hk).mp listed
  refine ⟨hp, hne, reached, lower, fun q d hq hqk hlt => planeFound_eq_none (hno q ?_) d⟩
  exact mem_before_of_pairwise (hl ▸ planesAfter_pairwise hk) (hl ▸ (mem_planesAfter hk).mpr ⟨hq, hqk⟩) hlt

theorem linePlane_eq_none {f1 f2 k q : Nat} (hk : k < 12) (h : linePlane f1 f2 k s = none) (hq : q < 12) (hqk : q ≠ k)
    (d : Nat) : ¬ PlaneReached f1 f2 s q d :=
  planeFound_eq_none (List.findSome?_eq_none_iff.mp h q ((mem_planesAfter hk).mpr ⟨hq, hqk⟩)) d

/-! ## The hunt of a route (R68) -/

/-- A junction fits a hunt: available, of the route, not INCOMING, on a plane that the hunt looks at. -/
def HuntFits (rt : Nat) (onPlane : Nat → Bool) (s : Part) (j : Nat) : Prop :=
  avail (.junction j) s = true ∧ (junction j s).route = some rt ∧ (junction j s).dir ≠ .incoming ∧
    onPlane (j % 12) = true

theorem hunts_iff {rt j : Nat} {onPlane : Nat → Bool} :
    (hunts rt j s && onPlane (junctionPlane j)) = true ↔ HuntFits rt onPlane s j := by
  simp [hunts, HuntFits, junctionPlane, and_assoc]

/-- How far a junction stands behind the start of a hunt, cyclically. -/
def junctionsPast (start j : Nat) : Nat := (j + 48 - start) % 48

theorem junctionsFrom_pairwise {start : Nat} (h : start < 48) :
    (junctionsFrom start).Pairwise (fun i j => junctionsPast start i < junctionsPast start j) := by
  refine List.pairwise_map.mpr (List.pairwise_lt_range.imp_of_mem fun hi hj hij => ?_)
  have hi := List.mem_range.mp hi
  have hj := List.mem_range.mp hj
  unfold junctionsPast Config.junctions at *
  omega

theorem mem_junctionsFrom {start j : Nat} (h : start < 48) : j ∈ junctionsFrom start ↔ j < 48 := by
  simp only [junctionsFrom, Config.junctions, List.mem_map, List.mem_range]
  constructor
  · rintro ⟨i, hi, rfl⟩
    omega
  · intro hj
    exact ⟨(j + 48 - start) % 48, by omega, by omega⟩

/-- The clause of O30 on the junction that a hunt finds. -/
theorem hunt_eq_some {rt start j : Nat} {onPlane : Nat → Bool} (hs : start < 48) (h : hunt rt start onPlane s = some j) :
    j < 48 ∧ HuntFits rt onPlane s j ∧
      ∀ i, i < 48 → junctionsPast start i < junctionsPast start j → ¬ HuntFits rt onPlane s i := by
  obtain ⟨hj, as, bs, hl, hno⟩ := List.find?_eq_some_iff_append.mp h
  refine ⟨(mem_junctionsFrom hs).mp (List.mem_of_find?_eq_some h), hunts_iff.mp hj, fun i hi hlt hf => ?_⟩
  have before : i ∈ as :=
    mem_before_of_pairwise (hl ▸ junctionsFrom_pairwise hs) (hl ▸ (mem_junctionsFrom hs).mpr hi) hlt
  have := hno i before
  rw [hunts_iff.mpr hf] at this
  cases this

theorem hunt_eq_none {rt start i : Nat} {onPlane : Nat → Bool} (hs : start < 48) (h : hunt rt start onPlane s = none)
    (hi : i < 48) : ¬ HuntFits rt onPlane s i := fun hf =>
  absurd (hunts_iff.mpr hf) (List.find?_eq_none.mp h i ((mem_junctionsFrom hs).mpr hi))

/-- A junction hunted is of the part, available and on a plane that the hunt looks at; the start of the hunt does not
matter for that. -/
theorem hunt_fits {rt start j : Nat} {onPlane : Nat → Bool} (h : hunt rt start onPlane s = some j) :
    HuntFits rt onPlane s j := by
  obtain ⟨hj, -⟩ := List.find?_eq_some_iff_append.mp h
  exact hunts_iff.mp hj

end Sys2Proof.Machine
end
section
/-!
PROOFS. The request EXTEND (R66): its refusals and its going in flight.
-/

namespace Sys2Proof.Machine

/-- A controller's request that is taken and comes to a reply has been answered. -/
theorem replies_of_ctlReply {i : Instr} {s : State} {c : Ctl} {tag : Byte} {f : Part → Part} {code : ResultCode}
    {data : List Byte} (hi : exec i s = onPart (receiveCtl c tag f) s) (h : CtlTakes c s.part)
    (hf : f (alive c s.part) = reply (.ctl c) tag code data (alive c s.part)) :
    Replies i s (.ctl c) { tag := tag, code := code, data := data } (alive c s.part) := by
  refine ⟨{ s with part := reply (.ctl c) tag code data (alive c s.part) }, ?_, rfl, answered_reply _ _ _ _ _⟩
  rw [hi, onPart, receiveCtl_of_takes s.part h, hf]

/-! ## The checks of EXTEND -/

section Checks

variable {c : Ctl} {id kind band perm : Byte} {dest : Word16} {s : Part}

/-- The destination named is one that the part does not have. -/
def NoSuchDest (kind : Byte) (dest : Word16) : Prop :=
  (kind = 0 ∧ 2048 ≤ dest.toNat) ∨ (kind = 1 ∧ 8 ≤ dest.toNat)

theorem destOf_zero (n : Nat) : destOf 0 n = some (.line n) := rfl

theorem destOf_one (n : Nat) : destOf 1 n = some (.route n) := rfl

theorem destOf_eq_none {n : Nat} (h : 2 ≤ kind.toNat) : destOf kind n = none := by
  unfold destOf
  split <;> [omega; omega; rfl]

/-- The three kinds of destination byte. -/
theorem destKind (kind : Byte) : kind = 0 ∨ kind = 1 ∨ 2 ≤ kind.toNat := by bv_omega

theorem destMissing_iff : (destOf kind dest.toNat).any (fun x => !x.exists?) = true ↔ NoSuchDest kind dest := by
  rcases destKind kind with rfl | rfl | h
  · rw [destOf_zero]
    show (!decide (dest.toNat < 2048)) = true ↔ _
    simp [NoSuchDest]
  · rw [destOf_one]
    show (!decide (dest.toNat < 8)) = true ↔ _
    simp [NoSuchDest]
  · rw [destOf_eq_none h]
    refine iff_of_false Bool.false_ne_true ?_
    rintro (⟨rfl, -⟩ | ⟨rfl, -⟩) <;> exact absurd h (by decide)

theorem extendCheck_noSuch (h : 128 ≤ id.toNat ∨ NoSuchDest kind dest) :
    extendCheck c id kind dest band perm s = .error .noSuch := by
  unfold extendCheck
  dsimp only
  rcases Nat.lt_or_ge id.toNat 128 with hi | hi
  · rw [if_neg (by simpa [Config.calls] using hi)]
    exact if_pos (destMissing_iff.mpr (h.resolve_left (by omega)))
  · exact if_pos hi

/-- Once call and destination are there, the checks go on to the fields and to the call. -/
theorem extendCheck_of_dest {d : Dest} (h : ¬ (128 ≤ id.toNat ∨ NoSuchDest kind dest))
    (hd : destOf kind dest.toNat = some d) :
    extendCheck c id kind dest band perm s =
      if 16 ≤ band.toNat ∨ 2 ≤ perm.toNat then .error .format
      else if (call id.toNat s).state ≠ .dialling ∨ (call id.toNat s).relPending = true then .error .badState
      else if (call id.toNat s).owner ≠ some c then .error .notOwner
      else .ok d := by
  obtain ⟨hi, hm⟩ := not_or.mp h
  have hm : ¬ (destOf kind dest.toNat).any (fun x => !x.exists?) = true := fun k => hm (destMissing_iff.mp k)
  unfold extendCheck
  dsimp only
  rw [if_neg (show ¬ Config.calls ≤ id.toNat from hi), if_neg hm, hd]

/-- The refusal of a field that has no meaning. -/
theorem extendCheck_format (h : ¬ (128 ≤ id.toNat ∨ NoSuchDest kind dest))
    (hf : 2 ≤ kind.toNat ∨ 16 ≤ band.toNat ∨ 2 ≤ perm.toNat) :
    extendCheck c id kind dest band perm s = .error .format := by
  cases hd : destOf kind dest.toNat with
  | none =>
    obtain ⟨hi, -⟩ := not_or.mp h
    simp [extendCheck, hd, Config.calls, Nat.lt_of_not_le hi]
  | some d =>
    rw [extendCheck_of_dest h hd]
    refine if_pos (hf.resolve_left fun hk => ?_)
    rw [destOf_eq_none hk] at hd
    cases hd

/-- With its fields in order a request is checked against its call. -/
theorem extendCheck_of_wellFormed (h : ¬ (128 ≤ id.toNat ∨ NoSuchDest kind dest))
    (hf : ¬ (2 ≤ kind.toNat ∨ 16 ≤ band.toNat ∨ 2 ≤ perm.toNat)) :
    extendCheck c id kind dest band perm s =
      if (call id.toNat s).state ≠ .dialling ∨ (call id.toNat s).relPending = true then .error .badState
      else if (call id.toNat s).owner ≠ some c then .error .notOwner
      else .ok (if kind = 0 then .line dest.toNat else .route dest.toNat) := by
  obtain ⟨hk, hb⟩ := not_or.mp hf
  rcases destKind kind with rfl | rfl | hk'
  · rw [extendCheck_of_dest h (destOf_zero _)]
    exact if_neg hb
  · rw [extendCheck_of_dest h (destOf_one _)]
    exact if_neg hb
  · exact absurd hk' hk

end Checks

/-- A request refused by the checks is answered with the refusal. -/
theorem extend_refused {s : State} {c : Ctl} {tag id kind band perm : Byte} {dest : Word16} {code : ResultCode}
    (h : CtlTakes c s.part) (hc : extendCheck c id kind dest band perm (alive c s.part) = .error code) :
    Replies (.extend c tag id kind dest band perm) s (.ctl c) { tag := tag, code := code } (alive c s.part) :=
  replies_of_ctlReply (f := extendRequest c tag id kind dest band perm) rfl h (by rw [extendRequest, hc])

/-- A request that passes the checks goes in flight. -/
theorem extend_inFlight {s : State} {c : Ctl} {tag id kind band perm : Byte} {dest : Word16} {d : Dest}
    (h : CtlTakes c s.part) (hc : extendCheck c id kind dest band perm (alive c s.part) = .ok d) :
    Makes (.extend c tag id kind dest band perm) s
      (modCtl c
        (fun p => { p with
          window := 0
          extend := some { tag := tag, call := id.toNat, band := band.toNat, allow := decide (perm = 1), dest := d } })
        s.part) := by
  have allow : decide (perm.toNat = 1) = decide (perm = 1) := decide_eq_decide.mpr (by bv_omega)
  have taken : receiveCtl c tag (extendRequest c tag id kind dest band perm) s.part = _ := receiveCtl_of_takes s.part h
  show onPart (receiveCtl c tag (extendRequest c tag id kind dest band perm)) s = _
  rw [onPart, taken, extendRequest, hc, ← allow]
  exact congrArg (fun q => Host.Outcome.next { s with part := q }) (modCtl_modCtl ..)

/-- The clause of O30 on the request. -/
theorem extend_taken (s : State) (c : Ctl) (tag id kind band perm : Byte) (dest : Word16) (h : CtlTakes c s.part) :
    let r := call id.toNat s.part
    let noSuch := 128 ≤ id.toNat ∨ (kind = 0 ∧ 2048 ≤ dest.toNat) ∨ (kind = 1 ∧ 8 ≤ dest.toNat)
    let format := 2 ≤ kind.toNat ∨ 16 ≤ band.toNat ∨ 2 ≤ perm.toNat
    let badState := r.state ≠ .dialling ∨ r.relPending = true
    (noSuch →
      Replies (.extend c tag id kind dest band perm) s (.ctl c) { tag := tag, code := .noSuch } (alive c s.part)) ∧
    (¬ noSuch → format →
      Replies (.extend c tag id kind dest band perm) s (.ctl c) { tag := tag, code := .format } (alive c s.part)) ∧
    (¬ noSuch → ¬ format → badState →
      Replies (.extend c tag id kind dest band perm) s (.ctl c) { tag := tag, code := .badState } (alive c s.part)) ∧
    (¬ noSuch → ¬ format → ¬ badState → r.owner ≠ some c →
      Replies (.extend c tag id kind dest band perm) s (.ctl c) { tag := tag, code := .notOwner } (alive c s.part)) ∧
    (¬ noSuch → ¬ format → ¬ badState → r.owner = some c →
      Makes (.extend c tag id kind dest band perm) s
        (modCtl c
          (fun p => { p with
            window := 0
            extend := some
              { tag := tag, call := id.toNat, band := band.toNat, allow := decide (perm = 1)
                dest := if kind = 0 then .line dest.toNat else .route dest.toNat } }) s.part)) := by
  intro r noSuch format badState
  have record : call id.toNat (alive c s.part) = r := by cases c <;> rfl
  refine ⟨fun h1 => extend_refused h (extendCheck_noSuch h1),
    fun h1 h2 => extend_refused h (extendCheck_format h1 h2), fun h1 h2 h3 => extend_refused h ?_,
    fun h1 h2 h3 h4 => extend_refused h ?_, fun h1 h2 h3 h4 => extend_inFlight h ?_⟩ <;>
  rw [extendCheck_of_wellFormed h1 h2, record]
  · exact if_pos h3
  · rw [if_neg h3]
    exact if_pos h4
  · rw [if_neg h3]
    exact if_neg (not_not.mpr h4)

end Sys2Proof.Machine
end
section
/-!
SUPPORT. A granted EXTEND (R66): the part its search begins from, the points watched at its reply, and the exits of the
two searches (R67, R68).
-/

namespace Sys2Proof.Machine

variable {s t u v : Part} {c : Ctl} {e : ExtendRequest} {o : Party} {id cord : Nat}

/-! ## Points watched behind a reply (R22) -/

theorem TablesOk.reply (h : TablesOk s) (p : Port) (tag : Byte) (code : ResultCode) (data : List Byte) :
    TablesOk (reply p tag code data s) := (low_reply (Low.refl s)).tablesOk h

theorem call_reply (p : Port) (tag : Byte) (code : ResultCode) (data : List Byte) (x : Nat) :
    call x (reply p tag code data s) = call x s := by simp [Machine.reply]

theorem armed_reply (p : Port) (tag : Byte) (code : ResultCode) (data : List Byte) (q : Nat) :
    armed q (reply p tag code data s) = armed q s := by
  unfold Machine.reply
  exact armed_congr (by simp) (by simp) (by simp) (by simp)

/-- With nothing armed at a call's points, watching them after a reply only drops what was pending. -/
theorem watchCall_reply {p : Port} {tag : Byte} {code : ResultCode} {data : List Byte} (h : TablesOk s)
    (hq : ∀ p ∈ callPoints (call id s), armed p s = none) :
    watchCall id (reply p tag code data s) = disarm (callPoints (call id s)) (reply p tag code data s) := by
  rw [watchCall_quiet (h.reply p tag code data), call_reply]
  rw [call_reply]
  exact fun q hp => (armed_reply ..).trans (hq q hp)

/-- The O point of a cord has no event armed while the calling line's own point speaks (R23). -/
theorem armed_oEnd_of_speaks (hc : cord < 96) (ho : callOfElem (.cord cord) s = some id)
    (hl : (call id s).lineSpeaks = true) : armed (2048 + cord) s = none := by
  simp [armed, pointKind_oEnd hc, ho, hl]

/-- The point of a line IN CALL as the called side has no event armed. -/
theorem armed_line_called {lt : Nat} (hl : lt < 2048) (hs : (line lt s).sup = .inCall id)
    (ho : (call id s).origin ≠ some (.line lt)) : armed lt s = none := by
  have silent : linePointSpeaks lt s = false := by simp [linePointSpeaks, hs, ho]
  simp only [armed, pointKind_line hl, hs, silent]
  split <;> simp

theorem contains_cord {r : Call} (h : r.set.cord = some cord ∨ r.old.cord = some cord ∨ r.new.cord = some cord) :
    r.elems.contains (.cord cord) = true := by
  rcases h with h | h | h <;> simp [Call.elems, ElemSet.elems, h]

/-- A call that names an element goes on being the one that does, while its record does and no other changes. -/
theorem callOfElem_kept {f : ElemId} (h : TablesOk s) (ht : TablesOk t) (ho : callOfElem f s = some id)
    (others : ∀ x, x ≠ id → call x t = call x s) (ha : (call id t).active = true)
    (hc : (call id t).elems.contains f = true) : callOfElem f t = some id := by
  obtain ⟨active, named⟩ := active_of_callOfElem h.calls ho
  refine (callOfElem_of_call h.calls ht.calls f others (by rw [ha, active]) ?_).trans ho
  rw [hc, List.contains_iff_mem.mpr named]

/-! ## The part before the search (R66) -/

/-- The part once a granted EXTEND has left its port and its call has its claim. -/
def extendBegun (c : Ctl) (e : ExtendRequest) (cord : Nat) (s : Part) : Part :=
  modPoint (2048 + cord) (fun p => { p with pulses := 0 })
    (modCall e.call (fun r => { r with claim := extendWorst e s, timer := none })
      (modCtl c (fun p => { p with extend := none }) (recordGrant (.ctl c) s)))

/-- The search of an EXTEND, to a line or to a route. -/
def extendSearch (e : ExtendRequest) (s : Part) : ResultCode × Nat × Part :=
  match e.dest with
  | .line lt => extendLine e.call lt e.allow s
  | .route n => extendRoute e.call n e.allow s

/-- What a search that found its way leaves to be answered. -/
def extendFound (e : ExtendRequest) (places : Nat) (s : Part) : Part :=
  opClaim e.call places (modCall e.call (fun r => { r with band := some e.band, dest := some e.dest }) s)

/-- What a search that failed leaves to be answered. -/
def extendFailed (e : ExtendRequest) (s : Part) : Part := startInterdigit e.call (setClaim e.call 0 s)

/-- What is left to be answered behind a search of an EXTEND. -/
def extendSettled (e : ExtendRequest) (x : ResultCode × Nat × Part) : Part :=
  if x.1 = .done then extendFound e x.2.1 x.2.2 else extendFailed e x.2.2

theorem extendSearch_line {lt : Nat} (hd : e.dest = .line lt) : extendSearch e s = extendLine e.call lt e.allow s := by
  rw [extendSearch, hd]

theorem extendSearch_route {rt : Nat} (hd : e.dest = .route rt) : extendSearch e s = extendRoute e.call rt e.allow s := by
  rw [extendSearch, hd]

theorem grant_extendSearch (g : ExtendGranted c e o cord s) :
    grant s = watchCall e.call (reply (.ctl c) e.tag (extendSearch e (extendBegun c e cord s)).1 []
      (extendSettled e (extendSearch e (extendBegun c e cord s)))) := by
  obtain ⟨w, hw⟩ : ∃ w, w = modCall e.call (fun r => { r with claim := extendWorst e s, timer := none })
      (modCtl c (fun p => { p with extend := none }) (recordGrant (.ctl c) s)) := ⟨_, rfl⟩
  have joined : (call e.call w).set.cord = some cord := by
    have tables : TablesOk (modCtl c (fun p => { p with extend := none }) (recordGrant (.ctl c) s)) :=
      (low_modCtl (Low.refl _)).tablesOk { g.tables with }
    rw [hw, call_modCall tables]
    cases c <;> exact g.joined
  have dropped : dropPulses e.call w = extendBegun c e cord s := by
    rw [extendBegun, ← hw]
    simp only [dropPulses, joined]
    rfl
  have granted : grant s = grantExtend c (extendWorst e s) (recordGrant (.ctl c) s) := by
    simp [grant, g.granted, requestOf, g.waiting]
  have waiting : (ctl c (recordGrant (.ctl c) s)).extend = some e := by cases c <;> exact g.waiting
  rw [granted, grantExtend, waiting]
  dsimp only
  rw [← hw, dropped]
  rfl

theorem tablesOk_extendBegun (h : TablesOk s) : TablesOk (extendBegun c e cord s) :=
  have taken : TablesOk (modCtl c (fun p => { p with extend := none }) (recordGrant (.ctl c) s)) :=
    (low_modCtl (Low.refl _)).tablesOk { h with }
  (taken.modCall _ _).modPoint _ _

@[simp] theorem net_extendBegun : (extendBegun c e cord s).net = s.net := by cases c <;> rfl

theorem extendBegun_frame (c : Ctl) (e : ExtendRequest) (cord : Nat) (s : Part) :
    extendBegun c e cord s = { s with
      arb := { s.arb with last := s.arb.last.set (priority (.ctl c) s) (.ctl c) }
      calls := (extendBegun c e cord s).calls, scan.points := (extendBegun c e cord s).scan.points
      a := (extendBegun c e cord s).a, b := (extendBegun c e cord s).b } := by
  cases c <;> rfl

theorem call_extendBegun (h : TablesOk s) (x : Nat) :
    call x (extendBegun c e cord s) =
      if x = e.call then { call e.call s with claim := extendWorst e s, timer := none } else call x s := by
  have calls : (extendBegun c e cord s).calls =
      (modCall e.call (fun r => { r with claim := extendWorst e s, timer := none }) s).calls := by cases c <;> rfl
  rw [call_congr calls, call_modCall_eq _ _ _ h.calls]

theorem point_extendBegun (h : TablesOk s) (p : Nat) :
    point p (extendBegun c e cord s) =
      if p = 2048 + cord then { point (2048 + cord) s with pulses := 0 } else point p s := by
  have points : (extendBegun c e cord s).scan.points =
      (modPoint (2048 + cord) (fun p => { p with pulses := 0 }) s).scan.points := by cases c <;> rfl
  rw [point_congr points, point_modPoint_eq _ _ _ h.points]

/-- A search of the records that reads neither claim nor timer finds what it found before. -/
theorem findCall_extendBegun {p : Call → Bool} (h : TablesOk s) (hp : p {} = false)
    (same : ∀ (r : Call) (n : Nat), p { r with claim := n, timer := none } = p r) :
    findCall p (extendBegun c e cord s) = findCall p s := by
  refine findCall_congr h.calls (tablesOk_extendBegun h).calls hp fun i => ?_
  rw [call_extendBegun h]
  split
  · next hi => rw [hi, same]
  · rfl

theorem callOf_extendBegun (h : TablesOk s) (x : Party) : callOf x (extendBegun c e cord s) = callOf x s :=
  findCall_extendBegun h rfl fun _ _ => rfl

theorem callOfElem_extendBegun (h : TablesOk s) (f : ElemId) :
    callOfElem f (extendBegun c e cord s) = callOfElem f s :=
  findCall_extendBegun h rfl fun _ _ => rfl

theorem ctl_extendBegun : ctl c (extendBegun c e cord s) = { ctl c s with extend := none } := by cases c <;> rfl

theorem ctl_otherCtl_extendBegun : ctl (otherCtl c) (extendBegun c e cord s) = ctl (otherCtl c) s := by
  cases c <;> rfl

/-! ## The exits of the search to a line (R67, R72) -/

theorem linePlane_congr (h : t.net = s.net) (f1 f2 k : Nat) : linePlane f1 f2 k t = linePlane f1 f2 k s := by
  unfold linePlane
  simp only [avail_congr h, lowestCord_congr h]

section Line

variable {lt lo : Nat} {allow : Bool}

theorem extendLine_of_out (h : (line lt s).out = true) : extendLine id lt allow s = (.unavailable, 0, s) := if_pos h

/-- The line of an EXTEND is there to be called: neither out of service nor in use. -/
structure LineFree (lt : Nat) (s : Part) : Prop where
  there : (line lt s).out = false
  unnamed : callOf (.line lt) s = none
  idle : (line lt s).sup = .idle

theorem LineFree.begun (g : LineFree lt s) (h : TablesOk s) : LineFree lt (extendBegun c e cord s) where
  there := by rw [line_congr (congrArg Net.lines net_extendBegun)]; exact g.there
  unnamed := (callOf_extendBegun h _).trans g.unnamed
  idle := by rw [line_congr (congrArg Net.lines net_extendBegun)]; exact g.idle

theorem extendLine_of_busy (h : (line lt s).out = false) (hb : callOf (.line lt) s ≠ none ∨ (line lt s).sup ≠ .idle) :
    extendLine id lt allow s = (.lineBusy, 0, s) := by
  unfold extendLine
  dsimp only
  rw [h, if_neg Bool.false_ne_true]
  exact if_pos (hb.imp_left Option.isSome_iff_ne_none.mpr)

theorem extendLine_of_sameFrame (h : LineFree lt s) (ho : (call id s).origin = some (.line lo)) (hf : lo / 64 = lt / 64) :
    extendLine id lt allow s = (.unavailable, 0, s) := by
  unfold extendLine
  dsimp only
  rw [h.there, if_neg Bool.false_ne_true, if_neg (by simp [h.unnamed, h.idle])]
  have same : lineFrame lo = lineFrame lt := hf
  exact if_pos (by simp [Call.lineOrigin, ho, same])

/-- The calling line, if the call is of a line, is of another frame. -/
def OtherFrame (o : Party) (lt : Nat) : Prop := ∀ lo, o = .line lo → lo / 64 ≠ lt / 64

/-- The reswitch that a search to a line turns to, where it may and where a plane qualifies. -/
def lineMove (id lt cord : Nat) (allow : Bool) (o : Party) (s : Part) : ResultCode × Nat × Part :=
  match allow, o with
  | true, .line lo =>
    match linePlane (lo / 64) (lt / 64) (cord / 8) s with
    | some (p, x) => (.done, 7, reswitch id lo p x (.line lt) s)
    | none => (.congested, 0, s)
  | _, _ => (.congested, 0, s)

/-- Once the line is there to be called, the search looks for a way to it. -/
theorem extendLine_searches (h : LineFree lt s) (ho : (call id s).origin = some o) (hf : OtherFrame o lt)
    (hc : (call id s).set.cord = some cord) :
    extendLine id lt allow s =
      if avail (.fl (12 * (lt / 64) + cord / 8)) s then
        (.done, 3, takeLine id lt (12 * (lt / 64) + cord / 8) cord s)
      else lineMove id lt cord allow o s := by
  have frames : ¬ (call id s).lineOrigin.any (fun lo => decide (lineFrame lo = lineFrame lt)) = true := by
    cases o with
    | line lo =>
      have hne : lineFrame lo ≠ lineFrame lt := hf lo rfl
      simp [Call.lineOrigin, ho, hne]
    | junction j => simp [Call.lineOrigin, ho]
  unfold extendLine
  dsimp only
  rw [h.there, if_neg Bool.false_ne_true, if_neg (by simp [h.unnamed, h.idle]), if_neg frames, hc]
  cases o <;> cases allow <;> simp only [Call.lineOrigin, ho] <;> rfl

theorem lineMove_congested {allow : Bool} (h : allow = false ∨ (∃ j, o = .junction j) ∨
      ∃ lo, o = .line lo ∧ linePlane (lo / 64) (lt / 64) (cord / 8) s = none) :
    lineMove id lt cord allow o s = (.congested, 0, s) := by
  rcases h with rfl | ⟨j, rfl⟩ | ⟨lo, rfl, hp⟩
  · rfl
  · cases allow <;> rfl
  · cases allow with
    | false => rfl
    | true => simp [lineMove, hp]

theorem lineMove_reswitch {k x : Nat} (hp : linePlane (lo / 64) (lt / 64) (cord / 8) s = some (k, x)) :
    lineMove id lt cord true (.line lo) s = (.done, 7, reswitch id lo k x (.line lt) s) := by
  simp [lineMove, hp]

end Line

/-! ## The exits of the search to a route (R68, R72) -/

section Route

variable {rt lo j : Nat} {allow : Bool}

/-- The reswitch that a search to a route turns to, where it may and where a junction, a cord and a frame link are
found. -/
def routeMove (id rt cord : Nat) (allow : Bool) (o : Party) (s : Part) : ResultCode × Nat × Part :=
  match allow, o, hunt rt (route rt s).hunt (fun k => decide (k ≠ cord / 8)) s with
  | true, .line lo, some j =>
    match lowestCord (j % 12) s with
    | some x =>
      if avail (.fl (12 * (lo / 64) + j % 12)) s then
        (.done, 7, reswitch id lo (j % 12) x (.junction j) (modRoute rt (fun r => { r with hunt := (j + 1) % 48 }) s))
      else (.congested, 0, s)
    | none => (.congested, 0, s)
  | _, _, _ => (.congested, 0, s)

theorem extendRoute_hunted (hc : (call id s).set.cord = some cord)
    (hj : hunt rt (route rt s).hunt (fun k => decide (k = cord / 8)) s = some j) :
    extendRoute id rt allow s = (.done, 1, takeJunction id rt j cord s) := by
  have hunted : hunt rt (route rt s).hunt (fun k => decide (k = cordPlane cord)) s = some j := hj
  simp only [extendRoute, hc, Option.getD_some, hunted]

theorem extendRoute_unhunted (ho : (call id s).origin = some o) (hc : (call id s).set.cord = some cord)
    (hn : hunt rt (route rt s).hunt (fun k => decide (k = cord / 8)) s = none) :
    extendRoute id rt allow s = routeMove id rt cord allow o s := by
  have unhunted : hunt rt (route rt s).hunt (fun k => decide (k = cordPlane cord)) s = none := hn
  obtain ⟨other, hm⟩ : ∃ other, hunt rt (route rt s).hunt (fun k => decide (k ≠ cord / 8)) s = other := ⟨_, rfl⟩
  have hm' : hunt rt (route rt s).hunt (fun k => decide (k ≠ cordPlane cord)) s = other := hm
  simp only [extendRoute, hc, Option.getD_some, unhunted, hm', routeMove, hm]
  cases o <;> cases allow <;> cases other <;> simp only [Call.lineOrigin, ho]
  rfl

theorem routeMove_congested (h : allow = false ∨ (∃ j, o = .junction j) ∨
      hunt rt (route rt s).hunt (fun k => decide (k ≠ cord / 8)) s = none ∨
      ∃ lo j, o = .line lo ∧ hunt rt (route rt s).hunt (fun k => decide (k ≠ cord / 8)) s = some j ∧
        (lowestCord (j % 12) s = none ∨ avail (.fl (12 * (lo / 64) + j % 12)) s = false)) :
    routeMove id rt cord allow o s = (.congested, 0, s) := by
  rcases h with rfl | ⟨j, rfl⟩ | hn | ⟨lo, j, rfl, hj, hx⟩
  · rfl
  · cases allow <;> rfl
  · cases o <;> cases allow <;> simp only [routeMove, hn]
  · cases allow with
    | false => rfl
    | true =>
      rcases hx with hx | hx
      · simp only [routeMove, hj, hx]
      · cases hl : lowestCord (j % 12) s <;> simp only [routeMove, hj, hl, hx]
        rfl

theorem routeMove_reswitch {x : Nat} (hj : hunt rt (route rt s).hunt (fun k => decide (k ≠ cord / 8)) s = some j)
    (hx : lowestCord (j % 12) s = some x) (ha : avail (.fl (12 * (lo / 64) + j % 12)) s = true) :
    routeMove id rt cord true (.line lo) s =
      (.done, 7,
        reswitch id lo (j % 12) x (.junction j) (modRoute rt (fun r => { r with hunt := (j + 1) % 48 }) s)) := by
  simp only [routeMove, hj, hx, ha, if_true]

end Route

end Sys2Proof.Machine
end
section
/-!
SUPPORT. What the search of an extension takes: a line with its frame link (R67), and the new path of a reswitch
(R72, R73).
-/

namespace Sys2Proof.Machine

variable {s t : Part} {id lt n lo n0 k x cord : Nat} {term : Party}

/-! ## The called line (R24, R67) -/

/-- A line is IN CALL as the called side, and the cord's T point shows what its own point showed. -/
def lineCalled (id lt cord : Nat) (s : Part) : Part :=
  modPoint (2144 + cord) (fun _ => { point lt s with pulses := 0, pending := none })
    (modLine lt (fun l => { l with sup := .inCall id }) s)

/-- Outside a scan the hand-over to the T point of a call that is not ANSWERED arms nothing. -/
theorem callLine_eq (h : TablesOk s) (hs : s.scan.pos = none) (hc : cord < 96)
    (ho : callOfElem (.cord cord) s = some id) (hst : (call id s).state ≠ .answered) :
    callLine id lt cord s = lineCalled id lt cord s :=
  handOver_quiet (h.modLine lt _).points hs
    (armed_tEnd_of_call (id := id) hc (by simpa using ho) (.inr (by simpa using hst)))

/-- The record and the frame link of a line taken as the called side. -/
def lineJoined (id lt n : Nat) (s : Part) : Part :=
  modCall id
    (fun c => { c with
      set := { c.set with tfl := some n, ring := true }, term := some (.line lt), state := .settingTerm })
    (beginOp id .extension (setOcc (.fl n) .reserved s))

/-- Everything that the taking of a line brings about. -/
def lineTaken (id lt n cord : Nat) (s : Part) : Part :=
  place id (.ringOn cord)
    (placeOperate id (.line lt n) (placeOperate id (.plane n cord .t) (lineCalled id lt cord (lineJoined id lt n s))))

theorem call_lineJoined (h : TablesOk s) (y : Nat) :
    call y (lineJoined id lt n s) =
      if y = id then
        { call id s with
          op := .extension, opFailed := false, yielded := false
          set := { (call id s).set with tfl := some n, ring := true }
          term := some (.line lt), state := .settingTerm }
      else call y s := by
  by_cases e : y = id <;> simp [lineJoined, beginOp, setOcc, h.calls, e]

theorem tablesOk_lineJoined (h : TablesOk s) : TablesOk (lineJoined id lt n s) :=
  ((h.modElem _ _).modCall _ _).modCall _ _

theorem takeLine_eq (h : TablesOk s) (hs : s.scan.pos = none) (hc : cord < 96)
    (ho : callOfElem (.cord cord) s = some id) (hj : (call id s).set.cord = some cord) :
    takeLine id lt n cord s = lineTaken id lt n cord s := by
  have record := call_lineJoined (lt := lt) (n := n) (id := id) h id
  rw [if_pos rfl] at record
  have named : callOfElem (.cord cord) (lineJoined id lt n s) = some id :=
    callOfElem_kept h (tablesOk_lineJoined h) ho (fun y hy => by rw [call_lineJoined h, if_neg hy])
      (by rw [record]; rfl) (contains_cord (.inl (by rw [record]; exact hj)))
  have called := callLine_eq (lt := lt) (tablesOk_lineJoined h) hs hc named (by rw [record]; exact CallState.noConfusion)
  unfold lineTaken
  rw [← called]
  rfl

theorem lineTaken_frame (id lt n cord : Nat) (s : Part) :
    lineTaken id lt n cord s = { s with
      orders := (lineTaken id lt n cord s).orders, serial := s.serial + 3, calls := (lineTaken id lt n cord s).calls
      net.fls := (lineTaken id lt n cord s).net.fls, net.lines := (lineTaken id lt n cord s).net.lines
      scan.points := (lineTaken id lt n cord s).scan.points } := by
  obtain ⟨v, hv⟩ : ∃ v, v = lineCalled id lt cord (lineJoined id lt n s) := ⟨_, rfl⟩
  have called : v = { s with
      calls := v.calls, net.fls := v.net.fls, net.lines := v.net.lines, scan.points := v.scan.points } := by
    rw [hv]
    rfl
  obtain ⟨w, hw⟩ : ∃ w, w = lineTaken id lt n cord s := ⟨_, rfl⟩
  have placed : w = { v with orders := w.orders, serial := v.serial + 3, calls := w.calls } := by
    rw [hw, lineTaken, ← hv]
    rfl
  rw [← hw, placed, called]

theorem orders_lineTaken :
    (lineTaken id lt n cord s).orders = s.orders ++
      [{ id := s.serial, call := id, act := .operate (.plane n cord .t) },
        { id := s.serial + 1, call := id, act := .operate (.line lt n) },
        { id := s.serial + 2, call := id, act := .ringOn cord }] := by
  simp [lineTaken, placeOperate, place, lineCalled, lineJoined, beginOp, setOcc]

theorem tablesOk_lineTaken (h : TablesOk s) : TablesOk (lineTaken id lt n cord s) :=
  (((((tablesOk_lineJoined h).modLine _ _).modPoint _ _).placeOperate _ _).placeOperate _ _).place _ _

theorem call_lineTaken (h : TablesOk s) (y : Nat) :
    call y (lineTaken id lt n cord s) =
      if y = id then
        { call id s with
          op := .extension, opFailed := false, yielded := false
          set := { (call id s).set with tfl := some n, ring := true }
          term := some (.line lt), state := .settingTerm
          xps := setXp (.line lt n) .operating (setXp (.plane n cord .t) .operating (call id s).xps) }
      else call y s := by
  have joined := call_lineJoined (lt := lt) (n := n) (id := id) h
  by_cases e : y = id <;>
    simp [lineTaken, placeOperate, lineCalled, joined, (tablesOk_lineJoined (id := id) (lt := lt) (n := n) h).calls, e]

theorem elem_lineTaken (h : TablesOk s) (f : ElemId) :
    elem f (lineTaken id lt n cord s) = if f = .fl n then { elem f s with occ := .reserved } else elem f s := by
  by_cases e : f = .fl n <;>
    simp [lineTaken, placeOperate, lineCalled, lineJoined, beginOp, setOcc, h.fls, e]

theorem line_lineTaken (h : TablesOk s) (y : Nat) :
    line y (lineTaken id lt n cord s) = if y = lt then { line lt s with sup := .inCall id } else line y s := by
  by_cases e : y = lt <;>
    simp [lineTaken, placeOperate, lineCalled, lineJoined, beginOp, setOcc, h.lines, e]

theorem point_lineTaken (h : TablesOk s) (p : Nat) :
    point p (lineTaken id lt n cord s) =
      if p = 2144 + cord then { point lt s with pulses := 0, pending := none } else point p s := by
  by_cases e : p = 2144 + cord <;>
    simp [lineTaken, placeOperate, lineCalled, lineJoined, beginOp, setOcc, h.points, e]

/-! ## A reswitch (R72, R73) -/

/-- The element by which the new plane of a reswitch reaches the terminating side. -/
def termElem (k : Nat) : Party → ElemId
  | .line lt => .fl (12 * (lt / 64) + k)
  | .junction j => .junction j

/-- The new set of a reswitch. -/
def reswitchSet (lo k x : Nat) (term : Party) : ElemSet :=
  { fl := some (12 * (lo / 64) + k), cord := some x
    tfl := match term with | .line lt => some (12 * (lt / 64) + k) | .junction _ => none
    tjunction := match term with | .line _ => none | .junction j => some j }

/-- The record and the new elements of a reswitch. -/
def reswitchTaken (id lo k x : Nat) (term : Party) (s : Part) : Part :=
  modCall id
    (fun c => { c with
      new := reswitchSet lo k x term, old := c.set, set := {}, reswitch := true, lineSpeaks := true, term := some term
      state := .settingTerm })
    (beginOp id .reswitch1 (reserve (termElem k term) (reserve (.cord x) (reserve (.fl (12 * (lo / 64) + k)) s))))

/-- The terminating side of a reswitch: a line becomes IN CALL, a junction does not change. -/
def termCalled (id x : Nat) : Party → Part → Part
  | .line lt, s => lineCalled id lt x s
  | .junction _, s => s

/-- The two origin crosspoints are ordered released, and the elements of the old set are RELEASING. -/
def originMoving (id lo n0 cord : Nat) (s : Part) : Part :=
  setOcc (.cord cord) .releasing (setOcc (.fl n0) .releasing (pathReleasing id lo n0 cord s))

/-- The calling line's point speaks, loaded from the old O point, and nothing is armed there. -/
def lineSpeaking (lo cord : Nat) (s : Part) : Part :=
  modPoint (2048 + cord) (fun p => { p with pending := none })
    (modPoint lo (fun _ => { point (2048 + cord) s with pulses := 0, pending := none }) s)

/-- Everything that the first step of a reswitch brings about. -/
def reswitched (id lo n0 cord k x : Nat) (term : Party) (s : Part) : Part :=
  lineSpeaking lo cord (originMoving id lo n0 cord (termCalled id x term (reswitchTaken id lo k x term s)))

/-- A call of a line with only its origin's path, whose O point shows LOOP, may move to cord `x`. -/
structure Movable (id lo n0 cord x : Nat) (s : Part) : Prop extends OriginPath id lo n0 cord s where
  set : (call id s).set = { fl := some n0, cord := some cord }
  origin : (call id s).origin = some (.line lo)
  lineRange : lo < 2048
  cordRange : cord < 96
  newRange : x < 96
  named : callOfElem (.cord cord) s = some id
  unnamed : callOfElem (.cord x) s = none
  loop : (point (2048 + cord) s).accepted = .loop
  between : s.scan.pos = none

theorem Movable.ne (g : Movable id lo n0 cord x s) : x ≠ cord := by
  rintro rfl
  exact absurd (g.unnamed.symm.trans g.named) (Option.some_ne_none _).symm

theorem tablesOk_reswitchTaken (h : TablesOk s) : TablesOk (reswitchTaken id lo k x term s) :=
  ((((h.reserve _).reserve _).reserve _).modCall _ _).modCall _ _

theorem calls_reserve (f : ElemId) (s : Part) : (reserve f s).calls = s.calls := by cases f <;> rfl

theorem call_reswitchTaken (h : TablesOk s) (y : Nat) :
    call y (reswitchTaken id lo k x term s) =
      if y = id then
        { call id s with
          op := .reswitch1, opFailed := false, yielded := false
          new := reswitchSet lo k x term, old := (call id s).set, set := {}, reswitch := true, lineSpeaks := true
          term := some term, state := .settingTerm }
      else call y s := by
  have calls : (reserve (termElem k term) (reserve (.cord x) (reserve (.fl (12 * (lo / 64) + k)) s))).calls = s.calls := by
    simp only [calls_reserve]
  by_cases e : y = id <;> simp [reswitchTaken, beginOp, call_congr calls, calls, h.calls, e]

theorem tablesOk_termCalled (h : TablesOk s) : TablesOk (termCalled id x term s) := by
  cases term with
  | line lt =>
    unfold termCalled lineCalled
    exact (h.modLine _ _).modPoint _ _
  | junction j => exact h

theorem calls_termCalled : (termCalled id x term s).calls = s.calls := by cases term <;> rfl

theorem tablesOk_originMoving (h : TablesOk s) : TablesOk (originMoving id lo n0 cord s) := by
  unfold originMoving setOcc
  exact (h.pathReleasing.modElem _ _).modElem _ _

theorem tablesOk_reswitched (h : TablesOk s) : TablesOk (reswitched id lo n0 cord k x term s) := by
  unfold reswitched lineSpeaking
  exact ((tablesOk_originMoving (tablesOk_termCalled (tablesOk_reswitchTaken h))).modPoint _ _).modPoint _ _

/-- The record of a call whose reswitch has begun. -/
def Call.moving (lo n0 cord k x : Nat) (term : Party) (r : Call) : Call :=
  { r with
    op := .reswitch1, opFailed := false, yielded := false
    new := reswitchSet lo k x term, old := r.set, set := {}, reswitch := true, lineSpeaks := true
    term := some term, state := .settingTerm
    xps := [(.line lo n0, .releasing), (.plane n0 cord .o, .releasing)] }

theorem call_originMoving (h : TablesOk s) (g : OriginPath id lo n0 cord s) (y : Nat) :
    call y (originMoving id lo n0 cord (termCalled id x term (reswitchTaken id lo k x term s))) =
      if y = id then (call id s).moving lo n0 cord k x term else call y s := by
  have taken : ∀ y, call y (termCalled id x term (reswitchTaken id lo k x term s)) = _ := fun y =>
    (call_congr calls_termCalled y).trans (call_reswitchTaken h y)
  have moved := call_pathReleasing (lt := lo) (n := n0) (cord := cord)
    (tablesOk_termCalled (id := id) (x := x) (term := term)
      (tablesOk_reswitchTaken (id := id) (lo := lo) (k := k) (x := x) (term := term) h))
    (by rw [taken, if_pos rfl]; exact g.xps) y
  unfold originMoving setOcc
  rw [call_modElem, call_modElem, moved, taken, taken]
  by_cases e : y = id
  · simp only [e, if_true]
    rfl
  · simp only [e, if_false]

theorem call_reswitched (h : TablesOk s) (g : OriginPath id lo n0 cord s) (y : Nat) :
    call y (reswitched id lo n0 cord k x term s) =
      if y = id then (call id s).moving lo n0 cord k x term else call y s := by
  unfold reswitched lineSpeaking
  rw [call_modPoint, call_modPoint, call_originMoving h g]

/-- While the reswitch is on, its call names the cord it moves to and the one it leaves. -/
theorem callOfElem_moving (h : TablesOk s) (ht : TablesOk t) (g : Movable id lo n0 cord x s)
    (record : (call id t).active = true) (sets : (call id t).old.cord = some cord ∧ (call id t).new.cord = some x)
    (others : ∀ y, y ≠ id → call y t = call y s) :
    callOfElem (.cord cord) t = some id ∧ callOfElem (.cord x) t = some id := by
  refine ⟨callOfElem_kept h ht g.named others record (contains_cord (.inr (.inl sets.1))), ?_⟩
  refine (findCall_eq_some ht.calls rfl).mpr ⟨?_, fun y hy => ?_⟩
  · rw [record, contains_cord (.inr (.inr sets.2))]
    rfl
  · rw [others y (Nat.ne_of_lt hy)]
    exact not_of_findCall_eq_none rfl g.unnamed y

theorem point_reswitchTaken (h : TablesOk s) (p : Nat) :
    point p (reswitchTaken id lo k x term s) =
      if p = 2048 + x ∨ p = 2144 + x ∨ p = 2240 + x then {} else point p s := by
  have reserved : ∀ v : Part, point p (reserve (termElem k term) v) = point p v := fun v => by
    cases term <;> simp [termElem, reserve, setOcc]
  unfold reswitchTaken beginOp
  rw [point_modCall, point_modCall, reserved]
  exact point_pathTaken h (12 * (lo / 64) + k) x p

theorem point_originMoving (p : Nat) : point p (originMoving id lo n0 cord s) = point p s := by
  simp [originMoving, setOcc, pathReleasing, placeRelease]

theorem point_termCalled (h : TablesOk s) (p : Nat) :
    point p (termCalled id x term s) =
      match term with
      | .line lt => if p = 2144 + x then { point lt s with pulses := 0, pending := none } else point p s
      | .junction _ => point p s := by
  cases term with
  | line lt => by_cases e : p = 2144 + x <;> simp [termCalled, lineCalled, h.points, e]
  | junction j => rfl

/-- The O point of the cord that the call leaves, before the calling line's point speaks. -/
theorem point_oEnd_moving (h : TablesOk s) (g : Movable id lo n0 cord x s) :
    point (2048 + cord) (originMoving id lo n0 cord (termCalled id x term (reswitchTaken id lo k x term s))) =
      point (2048 + cord) s := by
  have hne := g.ne
  have hc := g.cordRange
  have hx := g.newRange
  have taken : point (2048 + cord) (reswitchTaken id lo k x term s) = point (2048 + cord) s := by
    rw [point_reswitchTaken h]
    exact if_neg (by omega)
  rw [point_originMoving, point_termCalled (tablesOk_reswitchTaken h)]
  cases term with
  | line lt =>
    dsimp only
    rw [if_neg (by omega), taken]
  | junction j => exact taken

/-- Outside a scan the terminating line of a reswitch is handed over with nothing armed. -/
theorem callTerm_eq (h : TablesOk s) (g : Movable id lo n0 cord x s) {lt : Nat} :
    callLine id lt x (reswitchTaken id lo k x (.line lt) s) = lineCalled id lt x (reswitchTaken id lo k x (.line lt) s) := by
  have tables := tablesOk_reswitchTaken (id := id) (lo := lo) (k := k) (x := x) (term := .line lt) h
  have record := call_reswitchTaken (lo := lo) (k := k) (x := x) (term := .line lt) (id := id) h id
  rw [if_pos rfl] at record
  have named := (callOfElem_moving h tables g (by rw [record]; rfl) (by rw [record, g.set]; exact ⟨rfl, rfl⟩)
    fun y hy => by rw [call_reswitchTaken h, if_neg hy]).2
  exact callLine_eq tables (by cases h : s.scan.pos <;> exact g.between) g.newRange named
    (by rw [record]; exact CallState.noConfusion)

/-- The first step of a reswitch, up to the hand-over to the calling line's point. -/
theorem reswitch_shape (h : TablesOk s) (g : Movable id lo n0 cord x s) :
    reswitch id lo k x term s = rearm (2048 + cord) (handOver (2048 + cord) lo
      (originMoving id lo n0 cord (termCalled id x term (reswitchTaken id lo k x term s)))) := by
  have calls : ∀ f : ElemId,
      (call id (reserve f (reserve (.cord x) (reserve (.fl (flNumber (lineFrame lo) k)) s)))).set =
        { fl := some n0, cord := some cord } := fun f => by
    rw [call_congr (s := s) (by simp only [calls_reserve]), g.set]
  cases term with
  | line lt =>
    unfold termCalled
    dsimp only
    rw [← callTerm_eq h g]
    unfold reswitch
    simp only [releaseOrder_originPath g.toOriginPath, calls]
    rfl
  | junction j =>
    unfold reswitch
    simp only [releaseOrder_originPath g.toOriginPath, calls]
    rfl

theorem reswitch_eq (h : TablesOk s) (g : Movable id lo n0 cord x s) :
    reswitch id lo k x term s = reswitched id lo n0 cord k x term s := by
  obtain ⟨w, hw⟩ : ∃ w, w = originMoving id lo n0 cord (termCalled id x term (reswitchTaken id lo k x term s)) :=
    ⟨_, rfl⟩
  have tables : TablesOk w := hw ▸ tablesOk_originMoving (tablesOk_termCalled (tablesOk_reswitchTaken h))
  have loop : (point (2048 + cord) w).accepted = .loop := by rw [hw, point_oEnd_moving h g]; exact g.loop
  have between : w.scan.pos = none := by
    rw [hw]
    cases term <;> exact g.between
  have record : ∀ y, call y w = if y = id then (call id s).moving lo n0 cord k x term else call y s := fun y => by
    rw [hw, call_originMoving h g.toOriginPath]
  have handed := handOver_quiet (src := 2048 + cord) (dst := lo) tables.points between
    (armed_line_of_ne g.lineRange (by rw [point_modPoint_eq _ _ _ tables.points, if_pos rfl]; simp [loop]))
  have named : callOfElem (.cord cord) w = some id :=
    (callOfElem_moving h tables g (by rw [record, if_pos rfl]; rfl)
      (by rw [record, if_pos rfl]; exact ⟨by simp [Call.moving, g.set], rfl⟩)
      fun y hy => by rw [record, if_neg hy]).1
  have silent : armed (2048 + cord) (handOver (2048 + cord) lo w) = none := by
    rw [handed]
    exact armed_oEnd_of_speaks (id := id) g.cordRange (by simpa using named)
      (by rw [call_modPoint, record, if_pos rfl]; rfl)
  rw [reswitch_shape h g, ← hw, rearm_eq, silent, handed, reswitched, lineSpeaking, ← hw]

/-! ## What a reswitch leaves of the elements, the parties and the points -/

theorem elem_setOcc (h : TablesOk s) (f : ElemId) (occ : Occupancy) (y : ElemId) :
    elem y (setOcc f occ s) = if y = f then { elem y s with occ := occ } else elem y s := by
  split
  · next e => rw [e, setOcc, elem_modElem h]
  · next e => exact elem_modElem_of_ne e _

theorem elem_reserve (h : TablesOk s) (f y : ElemId) :
    elem y (reserve f s) = if y = f then { elem y s with occ := .reserved } else elem y s := by
  rw [← elem_setOcc h]
  cases f with
  | fl n => rfl
  | cord n => simp [reserve, resetPoint]
  | junction n => rfl

theorem line_reserve (f : ElemId) (y : Nat) (s : Part) : line y (reserve f s) = line y s := by cases f <;> rfl

theorem junction_reserve (h : TablesOk s) (f : ElemId) (y : Nat) :
    junction y (reserve f s) =
      if f = .junction y then { junction y s with elem := { (junction y s).elem with occ := .reserved } }
      else junction y s := by
  cases f with
  | fl n => rfl
  | cord n => rfl
  | junction n =>
    by_cases e : n = y
    · subst e
      simp [reserve, setOcc, h.junctions]
    · simp [reserve, setOcc, h.junctions, e, Ne.symm e]

theorem elem_termCalled (f : ElemId) : elem f (termCalled id x term s) = elem f s := by
  cases term <;> simp [termCalled, lineCalled]

theorem elem_reswitchTaken (h : TablesOk s) (f : ElemId) :
    elem f (reswitchTaken id lo k x term s) =
      if f = .fl (12 * (lo / 64) + k) ∨ f = .cord x ∨ f = termElem k term then { elem f s with occ := .reserved }
      else elem f s := by
  unfold reswitchTaken beginOp
  rw [elem_modCall, elem_modCall, elem_reserve ((h.reserve _).reserve _), elem_reserve (h.reserve _),
    elem_reserve h]
  grind

theorem elem_reswitched (h : TablesOk s) (f : ElemId) :
    elem f (reswitched id lo n0 cord k x term s) =
      if f = .fl n0 ∨ f = .cord cord then { elem f s with occ := .releasing }
      else if f = .fl (12 * (lo / 64) + k) ∨ f = .cord x ∨ f = termElem k term then { elem f s with occ := .reserved }
      else elem f s := by
  have tables := tablesOk_termCalled (id := id) (x := x) (term := term)
    (tablesOk_reswitchTaken (id := id) (lo := lo) (k := k) (x := x) (term := term) h)
  have placed : ∀ f, elem f (pathReleasing id lo n0 cord (termCalled id x term (reswitchTaken id lo k x term s))) =
      elem f (reswitchTaken id lo k x term s) := fun f => by
    unfold pathReleasing placeRelease
    rw [elem_place, elem_modCall, elem_place, elem_modCall, elem_termCalled]
  unfold reswitched lineSpeaking originMoving
  have placing := tables.pathReleasing (id := id) (lt := lo) (n := n0) (cord := cord)
  have freeing : TablesOk (setOcc (.fl n0) .releasing
      (pathReleasing id lo n0 cord (termCalled id x term (reswitchTaken id lo k x term s)))) := placing.modElem _ _
  rw [elem_modPoint, elem_modPoint, elem_setOcc freeing, elem_setOcc placing, placed, elem_reswitchTaken h]
  grind

theorem line_reswitched (h : TablesOk s) (y : Nat) :
    line y (reswitched id lo n0 cord k x term s) =
      if term = .line y then { line y s with sup := .inCall id } else line y s := by
  have tables := tablesOk_reswitchTaken (id := id) (lo := lo) (k := k) (x := x) (term := term) h
  have taken : ∀ y, line y (reswitchTaken id lo k x term s) = line y s := fun y => by
    simp [reswitchTaken, beginOp, line_reserve]
  have moved : line y (reswitched id lo n0 cord k x term s) =
      line y (termCalled id x term (reswitchTaken id lo k x term s)) := by
    simp [reswitched, lineSpeaking, originMoving, setOcc, pathReleasing, placeRelease]
  rw [moved]
  cases term with
  | line lt =>
    by_cases e : y = lt
    · simp [termCalled, lineCalled, tables.lines, taken, e]
    · simp [termCalled, lineCalled, tables.lines, taken, e, Ne.symm e]
  | junction j => simp [termCalled, taken]

theorem junction_reswitched (h : TablesOk s) (y : Nat) :
    junction y (reswitched id lo n0 cord k x term s) =
      if term = .junction y then { junction y s with elem := { (junction y s).elem with occ := .reserved } }
      else junction y s := by
  have moved : junction y (reswitched id lo n0 cord k x term s) =
      junction y (termCalled id x term (reswitchTaken id lo k x term s)) := by
    simp [reswitched, lineSpeaking, originMoving, setOcc, pathReleasing, placeRelease]
  have called : junction y (termCalled id x term (reswitchTaken id lo k x term s)) =
      junction y (reswitchTaken id lo k x term s) := by
    cases term <;> simp [termCalled, lineCalled]
  have taken : junction y (reswitchTaken id lo k x term s) = junction y (reserve (termElem k term) s) := by
    unfold reswitchTaken beginOp
    rw [junction_modCall, junction_modCall, junction_reserve ((h.reserve _).reserve _), junction_reserve (h.reserve _),
      junction_reserve h, junction_reserve h, if_neg (show ElemId.cord x ≠ .junction y from ElemId.noConfusion),
      if_neg (show ElemId.fl (12 * (lo / 64) + k) ≠ .junction y from ElemId.noConfusion)]
  rw [moved, called, taken, junction_reserve h]
  cases term <;> simp [termElem]

/-- What the T point of a reswitch's cord shows: a called line's point, or nothing before a junction. -/
def handed (term : Party) (s : Part) : ScanEntry :=
  match term with
  | .line lt => { point lt s with pulses := 0, pending := none }
  | .junction _ => {}

theorem point_reswitched (h : TablesOk s) (g : Movable id lo n0 cord x s)
    (ht : ∀ lt, term = .line lt → lt < 2048) (p : Nat) :
    point p (reswitched id lo n0 cord k x term s) =
      if p = 2048 + cord then { point (2048 + cord) s with pending := none }
      else if p = lo then { point (2048 + cord) s with pulses := 0, pending := none }
      else if p = 2144 + x then handed term s
      else if p = 2048 + x ∨ p = 2240 + x then {}
      else point p s := by
  obtain ⟨w, hw⟩ : ∃ w, w = originMoving id lo n0 cord (termCalled id x term (reswitchTaken id lo k x term s)) :=
    ⟨_, rfl⟩
  have tables : TablesOk w := hw ▸ tablesOk_originMoving (tablesOk_termCalled (tablesOk_reswitchTaken h))
  have oEnd : point (2048 + cord) w = point (2048 + cord) s := by rw [hw, point_oEnd_moving h g]
  have shown : ∀ p, point p w =
      if p = 2144 + x then handed term s else if p = 2048 + x ∨ p = 2240 + x then {} else point p s := fun p => by
    rw [hw, point_originMoving, point_termCalled (tablesOk_reswitchTaken h)]
    cases term with
    | line lt =>
      have hlt := ht lt rfl
      have own : point lt (reswitchTaken id lo k x (.line lt) s) = point lt s := by
        rw [point_reswitchTaken h]
        exact if_neg (by omega)
      dsimp only [handed]
      rw [own, point_reswitchTaken h]
      grind
    | junction j =>
      dsimp only [handed]
      rw [point_reswitchTaken h]
      grind
  have hlo := g.lineRange
  unfold reswitched lineSpeaking
  rw [← hw, point_modPoint_eq _ _ _ (tables.modPoint _ _).points, point_modPoint_eq _ _ _ tables.points,
    point_modPoint_eq _ _ _ tables.points, oEnd, shown, if_neg (show 2048 + cord ≠ lo by omega)]

theorem reserve_frame (f : ElemId) (s : Part) :
    reserve f s = { s with
      net.fls := (reserve f s).net.fls, net.cords := (reserve f s).net.cords
      net.junctions := (reserve f s).net.junctions, scan.points := (reserve f s).scan.points } := by
  cases f <;> rfl

theorem reswitchTaken_frame (id lo k x : Nat) (term : Party) (s : Part) :
    reswitchTaken id lo k x term s = { s with
      calls := (reswitchTaken id lo k x term s).calls, net.fls := (reswitchTaken id lo k x term s).net.fls
      net.cords := (reswitchTaken id lo k x term s).net.cords
      net.junctions := (reswitchTaken id lo k x term s).net.junctions
      scan.points := (reswitchTaken id lo k x term s).scan.points } := by
  obtain ⟨a, ha⟩ : ∃ a, a = reserve (.fl (12 * (lo / 64) + k)) s := ⟨_, rfl⟩
  obtain ⟨b, hb⟩ : ∃ b, b = reserve (.cord x) a := ⟨_, rfl⟩
  obtain ⟨d, hd⟩ : ∃ d, d = reserve (termElem k term) b := ⟨_, rfl⟩
  obtain ⟨v, hv⟩ : ∃ v, v = reswitchTaken id lo k x term s := ⟨_, rfl⟩
  have fa : a = _ := ha.trans (reserve_frame ..)
  have fb : b = _ := hb.trans (reserve_frame ..)
  have fd : d = _ := hd.trans (reserve_frame ..)
  rw [← ha] at fa
  rw [← hb] at fb
  rw [← hd] at fd
  have fv : v = { d with calls := v.calls } := by
    rw [hv, reswitchTaken, ← ha, ← hb, ← hd]
    rfl
  rw [← hv, fv, fd, fb, fa]

theorem termCalled_frame (id x : Nat) (term : Party) (s : Part) :
    termCalled id x term s = { s with
      net.lines := (termCalled id x term s).net.lines, scan.points := (termCalled id x term s).scan.points } := by
  cases term <;> rfl

/-- Everything that the first step of a reswitch leaves unchanged. -/
theorem reswitched_frame (id lo n0 cord k x : Nat) (term : Party) (s : Part) :
    reswitched id lo n0 cord k x term s = { s with
      orders := s.orders ++
        [{ id := s.serial, call := id, act := .release (.line lo n0) },
          { id := s.serial + 1, call := id, act := .release (.plane n0 cord .o) }]
      serial := s.serial + 2, calls := (reswitched id lo n0 cord k x term s).calls
      net.fls := (reswitched id lo n0 cord k x term s).net.fls
      net.cords := (reswitched id lo n0 cord k x term s).net.cords
      net.lines := (reswitched id lo n0 cord k x term s).net.lines
      net.junctions := (reswitched id lo n0 cord k x term s).net.junctions
      scan.points := (reswitched id lo n0 cord k x term s).scan.points } := by
  obtain ⟨v, hv⟩ : ∃ v, v = reswitchTaken id lo k x term s := ⟨_, rfl⟩
  obtain ⟨w, hw⟩ : ∃ w, w = termCalled id x term v := ⟨_, rfl⟩
  obtain ⟨q, hq⟩ : ∃ q, q = pathReleasing id lo n0 cord w := ⟨_, rfl⟩
  obtain ⟨r, hr⟩ : ∃ r, r = reswitched id lo n0 cord k x term s := ⟨_, rfl⟩
  have taken : v = _ := hv.trans (reswitchTaken_frame ..)
  have called : w = _ := hw.trans (termCalled_frame ..)
  have released : q = _ := hq.trans (pathReleasing_frame ..)
  rw [← hv] at taken
  rw [← hw] at called
  rw [← hq] at released
  have spoken : r = { q with net.fls := r.net.fls, net.cords := r.net.cords, scan.points := r.scan.points } := by
    rw [hr, reswitched, originMoving, ← hv, ← hw, ← hq]
    rfl
  rw [← hr, spoken, released, called, taken]

end Sys2Proof.Machine
end
section
/-!
PROOFS. The grant of an EXTEND (R66): the reply, and the call refused.
-/

namespace Sys2Proof.Machine

variable {s t v : Part} {c : Ctl} {e : ExtendRequest} {o : Party} {cord : Nat} {code : ResultCode}

/-! ## The answer of a grant -/

/-- A granted EXTEND has left its port and has been answered, and its controller is the last granted at its
priority. -/
def ExtendReplied (c : Ctl) (e : ExtendRequest) (code : ResultCode) (s t : Part) : Prop :=
  repliesDue (.ctl c) t = repliesDue (.ctl c) s ++ [{ tag := e.tag, code := code }] ∧
    (ctl c t).io.queue = (ctl c s).io.queue ∧
    ctl c t = { ctl c s with extend := none, io := (ctl c t).io } ∧
    ctl (otherCtl c) t = ctl (otherCtl c) s ∧
    t.arb = { s.arb with
      last := s.arb.last.set (match c with | .a => s.timers.prioA | .b => s.timers.prioB) (.ctl c) }

/-- The part once a grant has been answered and nothing is armed at its call's points. -/
def extendAnswered (c : Ctl) (e : ExtendRequest) (code : ResultCode) (ps : List Nat) (v : Part) : Part :=
  disarm ps (reply (.ctl c) e.tag code [] v)

theorem extendAnswered_frame (c : Ctl) (e : ExtendRequest) (code : ResultCode) (ps : List Nat) (v : Part) :
    extendAnswered c e code ps v = { v with
      scan.points := (extendAnswered c e code ps v).scan.points
      a := (extendAnswered c e code ps v).a, b := (extendAnswered c e code ps v).b } := by
  obtain ⟨q, hq⟩ : ∃ q, q = reply (.ctl c) e.tag code [] v := ⟨_, rfl⟩
  have sent : q = { v with a := q.a, b := q.b } := by
    rw [hq]
    cases c <;> rfl
  obtain ⟨t, ht⟩ : ∃ t, t = extendAnswered c e code ps v := ⟨_, rfl⟩
  have quiet : t = { q with scan.points := t.scan.points } := by
    rw [ht, extendAnswered, ← hq]
    exact disarm_eq ps q
  rw [← ht, quiet, sent]

@[simp] theorem call_extendAnswered (ps : List Nat) (x : Nat) :
    call x (extendAnswered c e code ps v) = call x v := call_congr (by rw [extendAnswered_frame]) x

@[simp] theorem net_extendAnswered (ps : List Nat) : (extendAnswered c e code ps v).net = v.net := by
  rw [extendAnswered_frame]

theorem point_extendAnswered (h : TablesOk v) (ps : List Nat) (p : Nat) :
    point p (extendAnswered c e code ps v) = if p ∈ ps then { point p v with pending := none } else point p v := by
  have points : ∀ p, point p (reply (.ctl c) e.tag code [] v) = point p v := fun p => by simp [reply]
  rw [extendAnswered, point_disarm (h.reply ..).points, points]

/-- The part before the reply keeps of the port and the arbiter what the grant has left there. -/
structure PortsBegun (c : Ctl) (e : ExtendRequest) (cord : Nat) (s v : Part) : Prop where
  a : v.a = (extendBegun c e cord s).a
  b : v.b = (extendBegun c e cord s).b
  arb : v.arb = (extendBegun c e cord s).arb

theorem extendReplied_of (g : PortsBegun c e cord s v) (ps : List Nat) :
    ExtendReplied c e code s (extendAnswered c e code ps v) := by
  have ports : ∀ d, ctl d v = ctl d (extendBegun c e cord s) := fun d => by
    cases d
    · exact g.a
    · exact g.b
  have own : io (.ctl c) v = io (.ctl c) s := by
    show (ctl c v).io = (ctl c s).io
    rw [ports, ctl_extendBegun]
  obtain ⟨due, queue, -⟩ := answered_reply v (.ctl c) e.tag code []
  have ctls : ∀ d, ctl d (extendAnswered c e code ps v) = ctl d (reply (.ctl c) e.tag code [] v) := fun d => by
    rw [extendAnswered, disarm_eq]
    cases d <;> rfl
  refine ⟨?_, ?_, ?_, ?_, ?_⟩
  · have sent : repliesDue (.ctl c) (extendAnswered c e code ps v) =
        repliesDue (.ctl c) (reply (.ctl c) e.tag code [] v) := by
      simp only [repliesDue, io, ctls]
    rw [sent, due]
    simp only [repliesDue, own]
  · rw [ctls]
    refine queue.trans ?_
    rw [own]
    rfl
  · rw [ctls]
    have changed : ctl c (reply (.ctl c) e.tag code [] v) =
        { ctl c v with io := (ctl c (reply (.ctl c) e.tag code [] v)).io } := by
      cases c <;> rfl
    rw [changed, ports, ctl_extendBegun]
  · rw [ctls]
    have kept : ctl (otherCtl c) (reply (.ctl c) e.tag code [] v) = ctl (otherCtl c) v := by cases c <;> rfl
    rw [kept, ports, ctl_otherCtl_extendBegun]
  · rw [extendAnswered_frame]
    refine g.arb.trans ?_
    rw [extendBegun_frame]
    cases c <;> rfl

/-! ## The call's points at the answer -/

/-- A call that keeps its origin's path, and is not ANSWERED, has nothing armed at its cord's points and its origin's
once its pulse count is dropped. -/
theorem ExtendGranted.callQuiet (g : ExtendGranted c e o cord s) (h : TablesOk v)
    (others : ∀ x, x ≠ e.call → call x v = call x s) (active : (call e.call v).active = true)
    (unanswered : (call e.call v).state ≠ .answered)
    (kept : ((call e.call v).origin, (call e.call v).lineSpeaks, (call e.call v).set.cord, (call e.call v).new) =
      ((call e.call s).origin, (call e.call s).lineSpeaks, (call e.call s).set.cord, (call e.call s).new))
    (party : OriginInCall e.call o v) (shown : point (2048 + cord) v = { point (2048 + cord) s with pulses := 0 }) :
    CallQuiet e.call cord o v := by
  obtain ⟨origin, speaks, joined, new⟩ : _ ∧ _ ∧ _ ∧ _ := by simpa using kept
  have joined : (call e.call v).set.cord = some cord := joined.trans g.joined
  exact {
    origin := origin.trans g.origin
    originQuiet := by
      cases o with
      | line lo => exact armed_line_inCall party.1 party.2 (speaks.trans g.speaks)
      | junction j => exact armed_junction_of_ne (by rw [party.2.2]; exact PointState.noConfusion)
    joined := joined
    cordRange := g.inRange
    new := new.trans g.noNew
    named := callOfElem_kept g.tables h g.named others active (contains_cord (.inl joined))
    loop := by rw [shown]; exact g.loop
    still := .inl (by rw [shown])
    state := unanswered }

/-- A search that finds its way, with nothing armed at the call's points. -/
theorem grant_found {places : Nat} (g : ExtendGranted c e o cord s)
    (hs : extendSearch e (extendBegun c e cord s) = (.done, places, t)) (hv : v = extendFound e places t)
    (h : TablesOk v) (quiet : ∀ p ∈ callPoints (call e.call v), armed p v = none) :
    grant s = extendAnswered c e .done (callPoints (call e.call v)) v := by
  have settled : extendSettled e (extendSearch e (extendBegun c e cord s)) = v := by
    rw [hs, hv]
    exact if_pos rfl
  rw [grant_extendSearch g, settled, hs, watchCall_reply h quiet]
  rfl

/-! ## A refusal -/

/-- A granted EXTEND is refused: the call is in DIALLING again with its INTERDIGIT timer, and its pulse count has been
dropped (R67, R68). -/
def ExtendRefused (c : Ctl) (e : ExtendRequest) (o : Party) (cord : Nat) (code : ResultCode) (s t : Part) : Prop :=
  ExtendReplied c e code s t ∧
    call e.call t =
      { call e.call s with claim := 0, timer := some { kind := .interdigit, limit := interdigitLimit s } } ∧
    (∀ x, x ≠ e.call → call x t = call x s) ∧
    point (2048 + cord) t = { point (2048 + cord) s with pulses := 0, pending := none } ∧
    point (2144 + cord) t = { point (2144 + cord) s with pending := none } ∧
    point (partyPoint o) t = { point (partyPoint o) s with pending := none } ∧
    (∀ p, p ≠ 2048 + cord → p ≠ 2144 + cord → p ≠ partyPoint o → point p t = point p s) ∧
    t = { s with arb := t.arb, calls := t.calls, scan.points := t.scan.points, a := t.a, b := t.b }

theorem call_extendFailed (h : TablesOk v) (x : Nat) :
    call x (extendFailed e v) =
      if x = e.call then
        { call e.call v with claim := 0, timer := some { kind := .interdigit, limit := interdigitLimit v } }
      else call x v := by
  unfold extendFailed startInterdigit startTimer setClaim
  rw [call_modCall_eq _ _ _ (h.modCall _ _).calls, call_modCall_eq _ _ _ h.calls, call_modCall_eq _ _ _ h.calls]
  by_cases hx : x = e.call
  · simp only [hx, if_true]
    rfl
  · simp only [hx, if_false]

theorem tablesOk_extendFailed (h : TablesOk v) : TablesOk (extendFailed e v) := by
  unfold extendFailed startInterdigit startTimer setClaim
  exact (h.modCall _ _).modCall _ _

theorem partyPoint_ne_oEnd (g : ExtendGranted c e o cord s) : partyPoint o ≠ 2048 + cord := by
  have hc := g.inRange
  have party := g.party
  cases o with
  | line lo =>
    have := party.1
    show lo ≠ _
    omega
  | junction j =>
    show 2336 + j ≠ _
    omega

theorem grant_refuses (g : ExtendGranted c e o cord s) (hcode : code ≠ .done)
    (hs : extendSearch e (extendBegun c e cord s) = (code, 0, extendBegun c e cord s)) :
    ExtendRefused c e o cord code s (grant s) := by
  have begun : TablesOk (extendBegun c e cord s) := tablesOk_extendBegun g.tables
  obtain ⟨v, hv⟩ : ∃ v, v = extendFailed e (extendBegun c e cord s) := ⟨_, rfl⟩
  have only : v = { extendBegun c e cord s with calls := v.calls } := by rw [hv]; rfl
  have tables : TablesOk v := hv ▸ tablesOk_extendFailed begun
  have limit : interdigitLimit (extendBegun c e cord s) = interdigitLimit s := by rw [extendBegun_frame]; rfl
  have record : call e.call v =
      { call e.call s with claim := 0, timer := some { kind := .interdigit, limit := interdigitLimit s } } := by
    rw [hv, call_extendFailed begun, if_pos rfl, call_extendBegun g.tables, if_pos rfl, limit]
  have others : ∀ x, x ≠ e.call → call x v = call x s := fun x hx => by
    rw [hv, call_extendFailed begun, if_neg hx, call_extendBegun g.tables, if_neg hx]
  have net : v.net = s.net := (congrArg Part.net only).trans (net_extendBegun (c := c) (e := e) (cord := cord))
  have points : ∀ p, point p v = if p = 2048 + cord then { point (2048 + cord) s with pulses := 0 } else point p s :=
    fun p => by rw [point_congr (s := extendBegun c e cord s) (by rw [only]), point_extendBegun g.tables]
  have party : OriginInCall e.call o v := by
    have party := g.party
    cases o with
    | line lo => exact ⟨party.1, by rw [line_congr (congrArg Net.lines net)]; exact party.2⟩
    | junction j =>
      have ne : 2336 + j ≠ 2048 + cord := partyPoint_ne_oEnd g
      exact ⟨party.1, by rw [junction_congr (congrArg Net.junctions net)]; exact party.2.1,
        by rw [points, if_neg ne]; exact party.2.2⟩
  have quiet := g.callQuiet tables others (by rw [record]; simp [Call.active, g.dialling])
    (by rw [record]; simp [g.dialling]) (by rw [record]) party (by rw [points, if_pos rfl])
  have told : callPoints (call e.call v) = [2048 + cord, 2144 + cord, partyPoint o] := by
    rw [quiet.callPoints_eq, record, g.noTerm]
    rfl
  have granted : grant s = extendAnswered c e code [2048 + cord, 2144 + cord, partyPoint o] v := by
    have settled : extendSettled e (extendSearch e (extendBegun c e cord s)) = v := by
      rw [hs, hv]
      exact if_neg hcode
    rw [grant_extendSearch g, settled, hs, watchCall_reply tables (quiet.armed_none fun x hx => ?_), told]
    · rfl
    · rw [record, g.noTerm] at hx
      cases hx
  have shown : ∀ p, point p (grant s) = if p ∈ [2048 + cord, 2144 + cord, partyPoint o] then
      { point p v with pending := none } else point p v := fun p => by rw [granted, point_extendAnswered tables]
  have ne := partyPoint_ne_oEnd g
  refine ⟨?_, ?_, fun x hx => ?_, ?_, ?_, ?_, fun p h1 h2 h3 => ?_, ?_⟩
  · rw [granted]
    exact extendReplied_of ⟨by rw [only], by rw [only], by rw [only]⟩ _
  · rw [granted, call_extendAnswered, record]
  · rw [granted, call_extendAnswered, others x hx]
  · rw [shown, points, if_pos (by simp), if_pos rfl]
  · rw [shown, points, if_pos (by simp), if_neg (by omega)]
  · rw [shown, points, if_pos (by simp), if_neg ne]
  · rw [shown, points, if_neg (by simp [h1, h2, h3]), if_neg h1]
  · rw [granted]
    obtain ⟨t, ht⟩ : ∃ t, t = extendAnswered c e code [2048 + cord, 2144 + cord, partyPoint o] v := ⟨_, rfl⟩
    have frame : t = _ := ht.trans (extendAnswered_frame ..)
    rw [← ht] at frame ⊢
    obtain ⟨u, hu⟩ : ∃ u, u = extendBegun c e cord s := ⟨_, rfl⟩
    have start : u = _ := hu.trans (extendBegun_frame ..)
    rw [← hu] at start only
    rw [frame, only, start]

end Sys2Proof.Machine
end
section
/-!
PROOFS. The grants of an EXTEND on the call's own plane: to a line (R67) and to a route (R68).
-/

namespace Sys2Proof.Machine

variable {s t u v : Part} {c : Ctl} {e : ExtendRequest} {o : Party} {cord lt rt j n : Nat}

/-! ## What a search that found its way leaves -/

/-- The places that a call holds for the answer to its origin (R61). -/
def answerPlacesOf : Party → Nat
  | .line _ => 0
  | .junction _ => 1

theorem answerPlaces_of_origin {r : Call} (h : r.origin = some o) : r.answerPlaces = answerPlacesOf o := by
  cases o <;> simp [Call.answerPlaces, answerPlacesOf, h]

/-- The record of a call whose EXTEND has been granted and whose orders are out. -/
def Call.placed (e : ExtendRequest) (claim : Nat) (r : Call) : Call :=
  { r with
    timer := none, band := some e.band, dest := some e.dest, state := .settingTerm, claim := claim
    op := .extension, opFailed := false, yielded := false }

theorem call_extendFound {places : Nat} (h : TablesOk v) (x : Nat) :
    call x (extendFound e places v) =
      if x = e.call then
        { call e.call v with
          band := some e.band, dest := some e.dest, claim := places + (call e.call v).answerPlaces }
      else call x v := by
  unfold extendFound opClaim
  rw [call_modCall_eq _ _ _ (h.modCall _ _).calls, call_modCall_eq _ _ _ h.calls, call_modCall_eq _ _ _ h.calls]
  by_cases hx : x = e.call
  · simp only [hx, if_true]
    rfl
  · simp only [hx, if_false]

theorem tablesOk_extendFound {places : Nat} (h : TablesOk v) : TablesOk (extendFound e places v) := by
  unfold extendFound opClaim
  exact (h.modCall _ _).modCall _ _

theorem extendFound_frame (e : ExtendRequest) (places : Nat) (v : Part) :
    extendFound e places v = { v with calls := (extendFound e places v).calls } := rfl

theorem ExtendGranted.begun_joined (g : ExtendGranted c e o cord s) :
    (call e.call (extendBegun c e cord s)).set.cord = some cord := by
  rw [call_extendBegun g.tables, if_pos rfl]
  exact g.joined

theorem ExtendGranted.begun_origin (g : ExtendGranted c e o cord s) :
    (call e.call (extendBegun c e cord s)).origin = some o := by
  rw [call_extendBegun g.tables, if_pos rfl]
  exact g.origin

theorem ExtendGranted.begun_named (g : ExtendGranted c e o cord s) :
    callOfElem (.cord cord) (extendBegun c e cord s) = some e.call :=
  (callOfElem_extendBegun g.tables _).trans g.named

theorem begun_between (g : ExtendGranted c e o cord s) : (extendBegun c e cord s).scan.pos = none := by
  rw [extendBegun_frame]
  exact g.between

/-! ## To a line (R67) -/

/-- A granted EXTEND takes a line through the frame link on the call's plane. -/
def LineGranted (c : Ctl) (e : ExtendRequest) (o : Party) (cord lt n : Nat) (s t : Part) : Prop :=
  ExtendReplied c e .done s t ∧
    call e.call t =
      { (call e.call s).placed e (3 + answerPlacesOf o) with
        set := { (call e.call s).set with ring := true, tfl := some n }, term := some (.line lt)
        xps := setXp (.line lt n) .operating (setXp (.plane n cord .t) .operating (call e.call s).xps) } ∧
    (∀ x, x ≠ e.call → call x t = call x s) ∧
    t.orders = s.orders ++
      [{ id := s.serial, call := e.call, act := .operate (.plane n cord .t) },
        { id := s.serial + 1, call := e.call, act := .operate (.line lt n) },
        { id := s.serial + 2, call := e.call, act := .ringOn cord }] ∧
    elem (.fl n) t = { elem (.fl n) s with occ := .reserved } ∧
    (∀ f, f ≠ .fl n → elem f t = elem f s) ∧
    line lt t = { line lt s with sup := .inCall e.call } ∧
    (∀ x, x ≠ lt → line x t = line x s) ∧
    point (2144 + cord) t = { point lt s with pulses := 0, pending := none } ∧
    point (2048 + cord) t = { point (2048 + cord) s with pulses := 0, pending := none } ∧
    point (partyPoint o) t = { point (partyPoint o) s with pending := none } ∧
    point lt t = { point lt s with pending := none } ∧
    (∀ p, p ≠ 2048 + cord → p ≠ 2144 + cord → p ≠ partyPoint o → p ≠ lt → point p t = point p s) ∧
    t = { s with
      arb := t.arb, calls := t.calls, scan.points := t.scan.points
      net.fls := t.net.fls, net.lines := t.net.lines, orders := t.orders
      serial := s.serial + 3, a := t.a, b := t.b }

/-- The line called is not the calling one. -/
theorem origin_ne_idle (g : ExtendGranted c e o cord s) (h : (line lt s).sup = .idle) : o ≠ .line lt := by
  rintro rfl
  have sup : (line lt s).sup = .inCall e.call := g.party.2
  rw [h] at sup
  cases sup

theorem partyPoint_ne_tEnd (g : ExtendGranted c e o cord s) : partyPoint o ≠ 2144 + cord := by
  have hc := g.inRange
  have party := g.party
  cases o with
  | line lo =>
    have := party.1
    show lo ≠ _
    omega
  | junction j =>
    show 2336 + j ≠ _
    omega

/-- The part to be answered once a line has been taken. -/
def lineFound (c : Ctl) (e : ExtendRequest) (cord lt n : Nat) (s : Part) : Part :=
  extendFound e 3 (lineTaken e.call lt n cord (extendBegun c e cord s))

theorem tablesOk_lineFound (h : TablesOk s) : TablesOk (lineFound c e cord lt n s) :=
  tablesOk_extendFound (tablesOk_lineTaken (tablesOk_extendBegun h))

theorem extendSearch_takesLine (g : ExtendGranted c e o cord s) (hd : e.dest = .line lt)
    (hs : extendLine e.call lt e.allow (extendBegun c e cord s) =
      (.done, 3, takeLine e.call lt n cord (extendBegun c e cord s))) :
    extendSearch e (extendBegun c e cord s) = (.done, 3, lineTaken e.call lt n cord (extendBegun c e cord s)) := by
  rw [← takeLine_eq (tablesOk_extendBegun g.tables) (begun_between g) g.inRange g.begun_named g.begun_joined, ← hs,
    extendSearch_line hd]

theorem call_lineFound (g : ExtendGranted c e o cord s) (x : Nat) :
    call x (lineFound c e cord lt n s) =
      if x = e.call then
        { (call e.call s).placed e (3 + answerPlacesOf o) with
          set := { (call e.call s).set with ring := true, tfl := some n }, term := some (.line lt)
          xps := setXp (.line lt n) .operating (setXp (.plane n cord .t) .operating (call e.call s).xps) }
      else call x s := by
  have begun := tablesOk_extendBegun (c := c) (e := e) (cord := cord) g.tables
  unfold lineFound
  rw [call_extendFound (tablesOk_lineTaken begun), call_lineTaken begun, call_lineTaken begun,
    call_extendBegun g.tables, call_extendBegun g.tables, ← answerPlaces_of_origin g.origin]
  by_cases hx : x = e.call
  · simp only [hx, if_true]
    rfl
  · simp only [hx, if_false]

theorem line_lineFound (h : TablesOk s) (y : Nat) :
    line y (lineFound c e cord lt n s) = if y = lt then { line lt s with sup := .inCall e.call } else line y s := by
  have same : ∀ y, line y (extendBegun c e cord s) = line y s := line_congr (congrArg Net.lines net_extendBegun)
  have found := line_lineTaken (id := e.call) (lt := lt) (n := n) (cord := cord)
    (tablesOk_extendBegun (c := c) (e := e) (cord := cord) h) y
  rw [same, same] at found
  exact found

theorem elem_lineFound (h : TablesOk s) (f : ElemId) :
    elem f (lineFound c e cord lt n s) = if f = .fl n then { elem f s with occ := .reserved } else elem f s := by
  have same : elem f (extendBegun c e cord s) = elem f s := elem_congr net_extendBegun f
  have found := elem_lineTaken (id := e.call) (lt := lt) (n := n) (cord := cord)
    (tablesOk_extendBegun (c := c) (e := e) (cord := cord) h) f
  rw [same] at found
  have net : (lineFound c e cord lt n s).net = (lineTaken e.call lt n cord (extendBegun c e cord s)).net := rfl
  exact (elem_congr net f).trans found

theorem point_lineFound (h : TablesOk s) (hlt : lt < 2048) (p : Nat) :
    point p (lineFound c e cord lt n s) =
      if p = 2144 + cord then { point lt s with pulses := 0, pending := none }
      else if p = 2048 + cord then { point (2048 + cord) s with pulses := 0 } else point p s := by
  have found := point_lineTaken (id := e.call) (lt := lt) (n := n) (cord := cord)
    (tablesOk_extendBegun (c := c) (e := e) (cord := cord) h) p
  rw [point_extendBegun h, point_extendBegun h, if_neg (show lt ≠ 2048 + cord by omega)] at found
  exact found

theorem lineFound_frame (c : Ctl) (e : ExtendRequest) (cord lt n : Nat) (s : Part) :
    lineFound c e cord lt n s = { extendBegun c e cord s with
      orders := s.orders ++
        [{ id := s.serial, call := e.call, act := .operate (.plane n cord .t) },
          { id := s.serial + 1, call := e.call, act := .operate (.line lt n) },
          { id := s.serial + 2, call := e.call, act := .ringOn cord }]
      serial := s.serial + 3, calls := (lineFound c e cord lt n s).calls
      net := { s.net with
        fls := (lineFound c e cord lt n s).net.fls, lines := (lineFound c e cord lt n s).net.lines }
      scan.points := (lineFound c e cord lt n s).scan.points } := by
  obtain ⟨u, hu⟩ : ∃ u, u = extendBegun c e cord s := ⟨_, rfl⟩
  obtain ⟨w, hw⟩ : ∃ w, w = lineTaken e.call lt n cord u := ⟨_, rfl⟩
  obtain ⟨v, hv⟩ : ∃ v, v = lineFound c e cord lt n s := ⟨_, rfl⟩
  have start : u = _ := hu.trans (extendBegun_frame ..)
  have placed : w = _ := hw.trans (lineTaken_frame ..)
  have orders : w.orders = _ := (congrArg Part.orders hw).trans orders_lineTaken
  have only : v = { w with calls := v.calls } := by
    rw [hv, lineFound, ← hu, ← hw]
    rfl
  rw [← hu] at start
  rw [← hw, orders] at placed
  rw [← hv, only, placed, ← hu, start]

theorem partyInCall_congr (g : ExtendGranted c e o cord s)
    (lines : ∀ lo, o = .line lo → line lo v = line lo s)
    (junctions : ∀ j, o = .junction j → (junction j v).sup = (junction j s).sup)
    (own : point (partyPoint o) v = point (partyPoint o) s) : OriginInCall e.call o v := by
  have party := g.party
  cases o with
  | line lo => exact ⟨party.1, by rw [lines lo rfl]; exact party.2⟩
  | junction j =>
    have own : point (2336 + j) v = point (2336 + j) s := own
    exact ⟨party.1, by rw [junctions j rfl]; exact party.2.1, by rw [own]; exact party.2.2⟩

theorem grant_takesLine (g : ExtendGranted c e o cord s) (hd : e.dest = .line lt) (hlt : lt < 2048)
    (hs : extendLine e.call lt e.allow (extendBegun c e cord s) =
      (.done, 3, takeLine e.call lt n cord (extendBegun c e cord s)))
    (idle : (line lt s).sup = .idle) : LineGranted c e o cord lt n s (grant s) := by
  obtain ⟨v, hv⟩ : ∃ v, v = lineFound c e cord lt n s := ⟨_, rfl⟩
  have tables : TablesOk v := hv ▸ tablesOk_lineFound g.tables
  have frame : v = _ := hv.trans (lineFound_frame ..)
  rw [← hv] at frame
  have calls : ∀ x, call x v = _ := fun x => hv ▸ call_lineFound g x
  have lines : ∀ y, line y v = _ := fun y => hv ▸ line_lineFound g.tables y
  have elems : ∀ f, elem f v = _ := fun f => hv ▸ elem_lineFound g.tables f
  have points : ∀ p, point p v = _ := fun p => hv ▸ point_lineFound g.tables hlt p
  have hcord := g.inRange
  have hne : o ≠ .line lt := origin_ne_idle g idle
  have own : point (partyPoint o) v = point (partyPoint o) s := by
    rw [points, if_neg (partyPoint_ne_tEnd g), if_neg (partyPoint_ne_oEnd g)]
  have party : OriginInCall e.call o v := by
    refine partyInCall_congr g (fun lo ho => ?_) (fun j _ => ?_) own
    · rw [lines, if_neg fun h => hne (ho.trans (congrArg Party.line h))]
    · rw [junction_congr (s := s) (by rw [frame])]
  have quiet := g.callQuiet tables (fun x hx => by rw [calls, if_neg hx]) (by rw [calls, if_pos rfl]; rfl)
    (by rw [calls, if_pos rfl]; exact CallState.noConfusion) (by rw [calls, if_pos rfl]; rfl) party
    (by rw [points, if_neg (by omega), if_pos rfl])
  have told : callPoints (call e.call v) = [2048 + cord, 2144 + cord, partyPoint o, lt] := by
    rw [quiet.callPoints_eq, calls, if_pos rfl]
    rfl
  have granted : grant s = extendAnswered c e .done [2048 + cord, 2144 + cord, partyPoint o, lt] v := by
    rw [grant_found g (extendSearch_takesLine g hd hs) hv tables (quiet.armed_none fun x hx => ?_), told]
    obtain rfl : .line lt = x := by
      rw [calls, if_pos rfl] at hx
      exact Option.some.inj hx
    refine armed_line_called (lt := lt) (id := e.call) hlt (by rw [lines, if_pos rfl]) ?_
    rw [quiet.origin]
    exact fun h => hne (Option.some.inj h)
  have shown : ∀ p, point p (grant s) = if p ∈ [2048 + cord, 2144 + cord, partyPoint o, lt] then
      { point p v with pending := none } else point p v := fun p => by rw [granted, point_extendAnswered tables]
  have after : (grant s).net = v.net := by rw [granted, net_extendAnswered]
  obtain ⟨t, ht⟩ : ∃ t, t = grant s := ⟨_, rfl⟩
  have whole : t = _ := (ht.trans granted).trans (extendAnswered_frame ..)
  rw [← granted, ← ht] at whole
  rw [← ht] at shown after ⊢
  obtain ⟨u, hu⟩ : ∃ u, u = extendBegun c e cord s := ⟨_, rfl⟩
  have start : u = _ := hu.trans (extendBegun_frame ..)
  rw [← hu] at frame start
  refine ⟨?_, ?_, fun x hx => ?_, ?_, ?_, fun f hf => ?_, ?_, fun x hx => ?_, ?_, ?_, ?_, ?_, fun p h1 h2 h3 h4 => ?_, ?_⟩
  · rw [ht, granted]
    exact extendReplied_of ⟨by rw [frame, hu], by rw [frame, hu], by rw [frame, hu]⟩ _
  · rw [ht, granted, call_extendAnswered, calls, if_pos rfl]
  · rw [ht, granted, call_extendAnswered, calls, if_neg hx]
  · rw [whole, frame]
  · rw [elem_congr after, elems, if_pos rfl]
  · rw [elem_congr after, elems, if_neg hf]
  · rw [line_congr (congrArg Net.lines after), lines, if_pos rfl]
  · rw [line_congr (congrArg Net.lines after), lines, if_neg hx]
  · rw [shown, points, if_pos (by simp), if_pos rfl]
  · rw [shown, points, if_pos (by simp), if_neg (by omega), if_pos rfl]
  · rw [shown, own, if_pos (by simp)]
  · rw [shown, points, if_pos (by simp), if_neg (by omega), if_neg (by omega)]
  · rw [shown, points, if_neg (by simp [h1, h2, h3, h4]), if_neg h2, if_neg h1]
  · rw [whole, frame, start]

end Sys2Proof.Machine
end
section
/-!
PROOFS. The grant of an EXTEND to a route on the call's own plane (R68).
-/

namespace Sys2Proof.Machine

variable {s t v : Part} {c : Ctl} {e : ExtendRequest} {o : Party} {cord rt j : Nat}

/-- A granted EXTEND takes the junction hunted on the call's plane. -/
def RouteGranted (c : Ctl) (e : ExtendRequest) (o : Party) (cord rt j : Nat) (s t : Part) : Prop :=
  ExtendReplied c e .done s t ∧
    call e.call t =
      { (call e.call s).placed e (1 + answerPlacesOf o) with
        set := { (call e.call s).set with tjunction := some j }, term := some (.junction j)
        xps := setXp (.junctor j cord .t) .operating (call e.call s).xps } ∧
    (∀ x, x ≠ e.call → call x t = call x s) ∧
    t.orders = s.orders ++ [{ id := s.serial, call := e.call, act := .operate (.junctor j cord .t) }] ∧
    junction j t = { junction j s with elem := { (junction j s).elem with occ := .reserved } } ∧
    (∀ x, x ≠ j → junction x t = junction x s) ∧
    route rt t = { route rt s with hunt := (j + 1) % 48 } ∧
    (∀ x, x ≠ rt → route x t = route x s) ∧
    point (2048 + cord) t = { point (2048 + cord) s with pulses := 0, pending := none } ∧
    point (2144 + cord) t = { point (2144 + cord) s with pending := none } ∧
    point (partyPoint o) t = { point (partyPoint o) s with pending := none } ∧
    point (2336 + j) t = { point (2336 + j) s with pending := none } ∧
    (∀ p, p ≠ 2048 + cord → p ≠ 2144 + cord → p ≠ partyPoint o → p ≠ 2336 + j → point p t = point p s) ∧
    t = { s with
      arb := t.arb, calls := t.calls, scan.points := t.scan.points
      net.junctions := t.net.junctions, net.routes := t.net.routes, orders := t.orders
      serial := s.serial + 1, a := t.a, b := t.b }

/-- An available junction is in no call (R3). -/
theorem idle_of_avail (h : avail (.junction j) s = true) : (junction j s).sup = .idle := by
  obtain ⟨-, idle⟩ := Bool.and_eq_true_iff.mp h
  exact of_decide_eq_true idle

/-- The part to be answered once a junction has been taken. -/
def junctionFound (c : Ctl) (e : ExtendRequest) (cord rt j : Nat) (s : Part) : Part :=
  extendFound e 1 (takeJunction e.call rt j cord (extendBegun c e cord s))

theorem tablesOk_junctionFound (h : TablesOk s) : TablesOk (junctionFound c e cord rt j s) :=
  tablesOk_extendFound (tablesOk_takeJunction (tablesOk_extendBegun h))

theorem extendSearch_takesJunction (g : ExtendGranted c e o cord s) (hd : e.dest = .route rt)
    (hj : hunt rt (route rt s).hunt (fun k => decide (k = cord / 8)) s = some j) :
    extendSearch e (extendBegun c e cord s) = (.done, 1, takeJunction e.call rt j cord (extendBegun c e cord s)) := by
  have hunted : hunt rt (route rt (extendBegun c e cord s)).hunt (fun k => decide (k = cord / 8))
      (extendBegun c e cord s) = some j := by
    rw [hunt_congr net_extendBegun, route_congr (s := s) (congrArg Net.routes net_extendBegun), hj]
  rw [← extendRoute_hunted (allow := e.allow) g.begun_joined hunted, extendSearch_route hd]

theorem call_junctionFound (g : ExtendGranted c e o cord s) (x : Nat) :
    call x (junctionFound c e cord rt j s) =
      if x = e.call then
        { (call e.call s).placed e (1 + answerPlacesOf o) with
          set := { (call e.call s).set with tjunction := some j }, term := some (.junction j)
          xps := setXp (.junctor j cord .t) .operating (call e.call s).xps }
      else call x s := by
  have begun := tablesOk_extendBegun (c := c) (e := e) (cord := cord) g.tables
  unfold junctionFound
  rw [call_extendFound (tablesOk_takeJunction begun), call_takeJunction begun, call_takeJunction begun,
    call_extendBegun g.tables, call_extendBegun g.tables, ← answerPlaces_of_origin g.origin]
  by_cases hx : x = e.call
  · simp only [hx, if_true]
    rfl
  · simp only [hx, if_false]

theorem junction_junctionFound (h : TablesOk s) (y : Nat) :
    junction y (junctionFound c e cord rt j s) =
      if y = j then { junction j s with elem := { (junction j s).elem with occ := .reserved } } else junction y s := by
  have same : ∀ y, junction y (extendBegun c e cord s) = junction y s :=
    junction_congr (congrArg Net.junctions net_extendBegun)
  have found := junction_takeJunction (id := e.call) (r := rt) (j := j) (cord := cord)
    (tablesOk_extendBegun (c := c) (e := e) (cord := cord) h) y
  rw [same, same] at found
  exact found

theorem route_junctionFound (h : TablesOk s) (y : Nat) :
    route y (junctionFound c e cord rt j s) =
      if y = rt then { route rt s with hunt := (j + 1) % 48 } else route y s := by
  have same : ∀ y, route y (extendBegun c e cord s) = route y s := route_congr (congrArg Net.routes net_extendBegun)
  have found := route_takeJunction (id := e.call) (r := rt) (j := j) (cord := cord)
    (tablesOk_extendBegun (c := c) (e := e) (cord := cord) h) y
  rw [same, same] at found
  exact found

theorem junctionFound_frame (c : Ctl) (e : ExtendRequest) (cord rt j : Nat) (s : Part) :
    junctionFound c e cord rt j s = { extendBegun c e cord s with
      orders := s.orders ++ [{ id := s.serial, call := e.call, act := .operate (.junctor j cord .t) }]
      serial := s.serial + 1, calls := (junctionFound c e cord rt j s).calls
      net := { s.net with
        junctions := (junctionFound c e cord rt j s).net.junctions
        routes := (junctionFound c e cord rt j s).net.routes } } := by
  obtain ⟨u, hu⟩ : ∃ u, u = extendBegun c e cord s := ⟨_, rfl⟩
  obtain ⟨w, hw⟩ : ∃ w, w = takeJunction e.call rt j cord u := ⟨_, rfl⟩
  obtain ⟨v, hv⟩ : ∃ v, v = junctionFound c e cord rt j s := ⟨_, rfl⟩
  have start : u = _ := hu.trans (extendBegun_frame ..)
  have placed : w = _ := hw.trans (takeJunction_frame ..)
  have only : v = { w with calls := v.calls } := by
    rw [hv, junctionFound, ← hu, ← hw]
    rfl
  rw [← hu] at start
  rw [← hw] at placed
  rw [← hv, only, placed, ← hu, start]

theorem point_junctionFound (h : TablesOk s) (p : Nat) :
    point p (junctionFound c e cord rt j s) =
      if p = 2048 + cord then { point (2048 + cord) s with pulses := 0 } else point p s := by
  rw [point_congr (s := extendBegun c e cord s) (by rw [junctionFound_frame]), point_extendBegun h]

theorem grant_takesJunction (g : ExtendGranted c e o cord s) (hd : e.dest = .route rt)
    (hj : hunt rt (route rt s).hunt (fun k => decide (k = cord / 8)) s = some j) :
    RouteGranted c e o cord rt j s (grant s) := by
  obtain ⟨v, hv⟩ : ∃ v, v = junctionFound c e cord rt j s := ⟨_, rfl⟩
  have tables : TablesOk v := hv ▸ tablesOk_junctionFound g.tables
  have frame : v = _ := hv.trans (junctionFound_frame ..)
  rw [← hv] at frame
  have calls : ∀ x, call x v = _ := fun x => hv ▸ call_junctionFound g x
  have junctions : ∀ y, junction y v = _ := fun y => hv ▸ junction_junctionFound g.tables y
  have routes : ∀ y, route y v = _ := fun y => hv ▸ route_junctionFound g.tables y
  have points : ∀ p, point p v = _ := fun p => hv ▸ point_junctionFound g.tables p
  have hcord := g.inRange
  have own : point (partyPoint o) v = point (partyPoint o) s := by rw [points, if_neg (partyPoint_ne_oEnd g)]
  have supervised : ∀ y, (junction y v).sup = (junction y s).sup := fun y => by
    rw [junctions]
    split
    · next e => rw [e]
    · rfl
  have party : OriginInCall e.call o v :=
    partyInCall_congr g (fun lo _ => by rw [line_congr (s := s) (by rw [frame])]) (fun y _ => supervised y) own
  have quiet := g.callQuiet tables (fun x hx => by rw [calls, if_neg hx]) (by rw [calls, if_pos rfl]; rfl)
    (by rw [calls, if_pos rfl]; exact CallState.noConfusion) (by rw [calls, if_pos rfl]; rfl) party
    (by rw [points, if_pos rfl])
  have told : callPoints (call e.call v) = [2048 + cord, 2144 + cord, partyPoint o, 2336 + j] := by
    rw [quiet.callPoints_eq, calls, if_pos rfl]
    rfl
  have granted : grant s = extendAnswered c e .done [2048 + cord, 2144 + cord, partyPoint o, 2336 + j] v := by
    rw [grant_found g (extendSearch_takesJunction g hd hj) hv tables (quiet.armed_none fun x hx => ?_), told]
    obtain rfl : .junction j = x := by
      rw [calls, if_pos rfl] at hx
      exact Option.some.inj hx
    refine armed_junction_idle (j := j) ?_
    rw [supervised]
    exact idle_of_avail (hunt_fits hj).1
  have shown : ∀ p, point p (grant s) = if p ∈ [2048 + cord, 2144 + cord, partyPoint o, 2336 + j] then
      { point p v with pending := none } else point p v := fun p => by rw [granted, point_extendAnswered tables]
  have after : (grant s).net = v.net := by rw [granted, net_extendAnswered]
  obtain ⟨t, ht⟩ : ∃ t, t = grant s := ⟨_, rfl⟩
  have whole : t = _ := (ht.trans granted).trans (extendAnswered_frame ..)
  rw [← granted, ← ht] at whole
  rw [← ht] at shown after ⊢
  obtain ⟨u, hu⟩ : ∃ u, u = extendBegun c e cord s := ⟨_, rfl⟩
  have start : u = _ := hu.trans (extendBegun_frame ..)
  rw [← hu] at frame start
  refine ⟨?_, ?_, fun x hx => ?_, ?_, ?_, fun x hx => ?_, ?_, fun x hx => ?_, ?_, ?_, ?_, ?_, fun p h1 h2 h3 h4 => ?_, ?_⟩
  · rw [ht, granted]
    exact extendReplied_of ⟨by rw [frame, hu], by rw [frame, hu], by rw [frame, hu]⟩ _
  · rw [ht, granted, call_extendAnswered, calls, if_pos rfl]
  · rw [ht, granted, call_extendAnswered, calls, if_neg hx]
  · rw [whole, frame]
  · rw [junction_congr (congrArg Net.junctions after), junctions, if_pos rfl]
  · rw [junction_congr (congrArg Net.junctions after), junctions, if_neg hx]
  · rw [route_congr (congrArg Net.routes after), routes, if_pos rfl]
  · rw [route_congr (congrArg Net.routes after), routes, if_neg hx]
  · rw [shown, points, if_pos (by simp), if_pos rfl]
  · rw [shown, points, if_pos (by simp), if_neg (by omega)]
  · rw [shown, own, if_pos (by simp)]
  · rw [shown, points, if_pos (by simp), if_neg (by omega)]
  · rw [shown, points, if_neg (by simp [h1, h2, h3, h4]), if_neg h1]
  · rw [whole, frame, start]

end Sys2Proof.Machine
end
section
/-!
PROOFS. The grants of an EXTEND that reswitch its call (R72, R73), toward a line or a route.
-/

namespace Sys2Proof.Machine

variable {s t b v : Part} {c : Ctl} {e : ExtendRequest} {cord lt lo rt j n0 k x : Nat} {term : Party}

/-! ## What a reswitch moves -/

/-- A granted EXTEND of a call of line `lo`, which only its origin's path holds, may move it to cord `x` of plane
`k`. -/
structure ExtendMovable (c : Ctl) (e : ExtendRequest) (lo n0 cord k x : Nat) (s : Part) : Prop
    extends ExtendGranted c e (.line lo) cord s where
  set : (call e.call s).set = { fl := some n0, cord := some cord }
  xps : (call e.call s).xps = [(.line lo n0, .operated), (.plane n0 cord .o, .operated)]
  held : (elem (.fl n0) s).occ = .held
  unnamed : callOfElem (.cord x) s = none
  newRange : x < 96
  reached : avail (.fl (12 * (lo / 64) + k)) s = true

theorem ExtendMovable.movable (g : ExtendMovable c e lo n0 cord k x s) : Movable e.call lo n0 cord x s where
  noTerm := g.noTerm
  xps := g.xps
  held := g.held
  set := g.set
  origin := g.origin
  lineRange := g.party.1
  cordRange := g.inRange
  newRange := g.newRange
  named := g.named
  unnamed := g.unnamed
  loop := g.loop
  between := g.between

/-- A reswitch begins from the part before the search, where only a route's hunt pointer may have moved. -/
structure MoveBase (c : Ctl) (e : ExtendRequest) (cord : Nat) (s b : Part) : Prop where
  tables : TablesOk b
  same : b = { extendBegun c e cord s with net.routes := b.net.routes }

theorem MoveBase.call_eq (m : MoveBase c e cord s b) (y : Nat) : call y b = call y (extendBegun c e cord s) :=
  call_congr (by rw [m.same]) y

theorem MoveBase.point_eq (m : MoveBase c e cord s b) (p : Nat) : point p b = point p (extendBegun c e cord s) :=
  point_congr (by rw [m.same]) p

theorem MoveBase.line_eq (m : MoveBase c e cord s b) (y : Nat) : line y b = line y s := by
  refine line_congr ?_ y
  rw [m.same, ← net_extendBegun (c := c) (e := e) (cord := cord) (s := s)]

theorem MoveBase.junction_eq (m : MoveBase c e cord s b) (y : Nat) : junction y b = junction y s := by
  refine junction_congr ?_ y
  rw [m.same, ← net_extendBegun (c := c) (e := e) (cord := cord) (s := s)]

theorem MoveBase.elem_eq (m : MoveBase c e cord s b) (f : ElemId) : elem f b = elem f s := by
  have routes : ∀ r, elem f { extendBegun c e cord s with net.routes := r } = elem f (extendBegun c e cord s) := fun r => by
    cases f <;> rfl
  rw [m.same, routes, elem_congr net_extendBegun]

theorem MoveBase.movable (m : MoveBase c e cord s b) (h : TablesOk s) (g : Movable e.call lo n0 cord x s) :
    Movable e.call lo n0 cord x b := by
  have record : call e.call b = { call e.call s with claim := extendWorst e s, timer := none } := by
    rw [m.call_eq, call_extendBegun h, if_pos rfl]
  have calls : ∀ f, callOfElem f b = callOfElem f s := fun f =>
    (callOfElem_congr (by rw [m.same])).trans (callOfElem_extendBegun h f)
  exact {
    noTerm := by rw [record]; exact g.noTerm
    xps := by rw [record]; exact g.xps
    held := by rw [m.elem_eq]; exact g.held
    set := by rw [record]; exact g.set
    origin := by rw [record]; exact g.origin
    lineRange := g.lineRange
    cordRange := g.cordRange
    newRange := g.newRange
    named := by rw [calls]; exact g.named
    unnamed := by rw [calls]; exact g.unnamed
    loop := by rw [m.point_eq, point_extendBegun h, if_pos rfl]; exact g.loop
    between := by
      rw [m.same, extendBegun_frame]
      exact g.between }

/-- The part to be answered once a reswitch has begun. -/
def moveFound (e : ExtendRequest) (lo n0 cord k x : Nat) (term : Party) (b : Part) : Part :=
  extendFound e 7 (reswitched e.call lo n0 cord k x term b)

theorem tablesOk_moveFound (h : TablesOk b) : TablesOk (moveFound e lo n0 cord k x term b) :=
  tablesOk_extendFound (tablesOk_reswitched h)

theorem call_moveFound (m : MoveBase c e cord s b) (g : ExtendMovable c e lo n0 cord k x s) (y : Nat) :
    call y (moveFound e lo n0 cord k x term b) =
      if y = e.call then ((call e.call s).placed e 7).moving lo n0 cord k x term else call y s := by
  have path := (m.movable g.tables g.movable).toOriginPath
  have moved := call_reswitched (k := k) (x := x) (term := term) m.tables path
  have places : ((call e.call (extendBegun c e cord s)).moving lo n0 cord k x term).answerPlaces = 0 :=
    answerPlaces_of_origin (o := .line lo) g.begun_origin
  unfold moveFound
  rw [call_extendFound (tablesOk_reswitched m.tables), moved, moved, if_pos rfl, m.call_eq, m.call_eq, places,
    call_extendBegun g.tables, call_extendBegun g.tables]
  by_cases hy : y = e.call
  · simp only [hy, if_true]
    rfl
  · simp only [hy, if_false]

theorem net_moveFound (e : ExtendRequest) (lo n0 cord k x : Nat) (term : Party) (b : Part) :
    (moveFound e lo n0 cord k x term b).net = (reswitched e.call lo n0 cord k x term b).net := by
  rw [moveFound, extendFound_frame]

theorem line_moveFound (m : MoveBase c e cord s b) (y : Nat) :
    line y (moveFound e lo n0 cord k x term b) =
      if term = .line y then { line y s with sup := .inCall e.call } else line y s := by
  rw [line_congr (congrArg Net.lines (net_moveFound ..)), line_reswitched m.tables, m.line_eq]

theorem junction_moveFound (m : MoveBase c e cord s b) (y : Nat) :
    junction y (moveFound e lo n0 cord k x term b) =
      if term = .junction y then { junction y s with elem := { (junction y s).elem with occ := .reserved } }
      else junction y s := by
  rw [junction_congr (congrArg Net.junctions (net_moveFound ..)), junction_reswitched m.tables, m.junction_eq]

theorem elem_moveFound (m : MoveBase c e cord s b) (f : ElemId) :
    elem f (moveFound e lo n0 cord k x term b) =
      if f = .fl n0 ∨ f = .cord cord then { elem f s with occ := .releasing }
      else if f = .fl (12 * (lo / 64) + k) ∨ f = .cord x ∨ f = termElem k term then { elem f s with occ := .reserved }
      else elem f s := by
  rw [elem_congr (net_moveFound ..), elem_reswitched m.tables, m.elem_eq]

theorem point_moveFound (m : MoveBase c e cord s b) (g : ExtendMovable c e lo n0 cord k x s)
    (ht : ∀ lt, term = .line lt → lt < 2048) (p : Nat) :
    point p (moveFound e lo n0 cord k x term b) =
      if p = 2048 + cord ∨ p = lo then { point (2048 + cord) s with pulses := 0, pending := none }
      else if p = 2144 + x then handed term s
      else if p = 2048 + x ∨ p = 2240 + x then {}
      else point p s := by
  have handed_eq : handed term b = handed term s := by
    cases term with
    | line lt =>
      have := ht lt rfl
      simp only [handed, m.point_eq, point_extendBegun g.tables, if_neg (show lt ≠ 2048 + cord by omega)]
    | junction j => rfl
  have same : point p (moveFound e lo n0 cord k x term b) = point p (reswitched e.call lo n0 cord k x term b) :=
    point_congr (by rw [moveFound, extendFound_frame]) p
  rw [same, point_reswitched m.tables (m.movable g.tables g.movable) ht, handed_eq, m.point_eq, m.point_eq,
    point_extendBegun g.tables, point_extendBegun g.tables, if_pos rfl]
  by_cases h1 : p = 2048 + cord
  · simp only [h1, if_true, true_or]
  · simp only [h1, if_false, false_or]

theorem moveFound_frame (m : MoveBase c e cord s b) :
    moveFound e lo n0 cord k x term b = { extendBegun c e cord s with
      orders := s.orders ++
        [{ id := s.serial, call := e.call, act := .release (.line lo n0) },
          { id := s.serial + 1, call := e.call, act := .release (.plane n0 cord .o) }]
      serial := s.serial + 2, calls := (moveFound e lo n0 cord k x term b).calls
      net := { s.net with
        fls := (moveFound e lo n0 cord k x term b).net.fls, cords := (moveFound e lo n0 cord k x term b).net.cords
        lines := (moveFound e lo n0 cord k x term b).net.lines
        junctions := (moveFound e lo n0 cord k x term b).net.junctions, routes := b.net.routes }
      scan.points := (moveFound e lo n0 cord k x term b).scan.points } := by
  obtain ⟨u, hu⟩ : ∃ u, u = extendBegun c e cord s := ⟨_, rfl⟩
  obtain ⟨w, hw⟩ : ∃ w, w = reswitched e.call lo n0 cord k x term b := ⟨_, rfl⟩
  obtain ⟨v, hv⟩ : ∃ v, v = moveFound e lo n0 cord k x term b := ⟨_, rfl⟩
  have start : u = _ := hu.trans (extendBegun_frame ..)
  have moved : w = _ := hw.trans (reswitched_frame ..)
  have base := m.same
  have only : v = { w with calls := v.calls } := by
    rw [hv, moveFound, ← hw]
    rfl
  rw [← hu] at start base
  rw [← hw] at moved
  rw [← hv, only, moved, ← hu, base, start]

end Sys2Proof.Machine
end
section
/-!
PROOFS. What a reswitch's grant leaves (R72, R73): the parts that do not hang on the terminating side, and the two
terminating sides.
-/

namespace Sys2Proof.Machine

variable {s t b v : Part} {c : Ctl} {e : ExtendRequest} {cord lt lo rt j n0 k x : Nat} {term : Party}

/-- The call's path moves from its frame link and cord to those of plane `k`. -/
def PathMoving (e : ExtendRequest) (lo n0 cord k x : Nat) (s t : Part) : Prop :=
  (∀ y, y ≠ e.call → call y t = call y s) ∧
    t.orders = s.orders ++
      [{ id := s.serial, call := e.call, act := .release (.line lo n0) },
        { id := s.serial + 1, call := e.call, act := .release (.plane n0 cord .o) }] ∧
    elem (.fl (12 * (lo / 64) + k)) t = { elem (.fl (12 * (lo / 64) + k)) s with occ := .reserved } ∧
    elem (.cord x) t = { elem (.cord x) s with occ := .reserved } ∧
    elem (.fl n0) t = { elem (.fl n0) s with occ := .releasing } ∧
    elem (.cord cord) t = { elem (.cord cord) s with occ := .releasing } ∧
    (∀ y, y ≠ x → y ≠ cord → elem (.cord y) t = elem (.cord y) s) ∧
    point lo t = { point (2048 + cord) s with pulses := 0, pending := none } ∧
    point (2048 + cord) t = { point (2048 + cord) s with pulses := 0, pending := none } ∧
    point (2048 + x) t = {} ∧ point (2240 + x) t = {}

/-- An available element is FREE. -/
theorem free_of_avail {f : ElemId} (h : avail f s = true) : (elem f s).occ = .free := by
  obtain ⟨free, -⟩ := Bool.and_eq_true_iff.mp h
  exact (of_decide_eq_true free).2

theorem ne_of_avail {m : Nat} (h : avail (.fl m) s = true) (hh : (elem (.fl n0) s).occ = .held) : m ≠ n0 := by
  rintro rfl
  have := free_of_avail h
  rw [hh] at this
  cases this

/-- Nothing is armed at the points of a call whose reswitch has begun, where nothing is at its terminating side. -/
theorem armed_none_moving (h : TablesOk s) (ht : TablesOk t) (g : Movable e.call lo n0 cord x s)
    (record : ∃ r, call e.call t = (Call.placed e 7 r).moving lo n0 cord k x term ∧
      r.set.cord = some cord ∧ r.origin = some (.line lo))
    (others : ∀ y, y ≠ e.call → call y t = call y s) (loop : (point lo t).accepted = .loop)
    (quiet : armed (partyPoint term) t = none) :
    callPoints (call e.call t) = [2048 + x, 2144 + x, lo, partyPoint term] ∧
      ∀ p ∈ callPoints (call e.call t), armed p t = none := by
  obtain ⟨r, moving, joined, origin⟩ := record
  have told : callPoints (call e.call t) = [2048 + x, 2144 + x, lo, partyPoint term] := by
    simp [callPoints, moving, Call.moving, Call.placed, reswitchSet, origin, oPoint, tPoint, partyPoint]
  have named : callOfElem (.cord x) t = some e.call :=
    (callOfElem_moving h ht g (by rw [moving]; rfl)
      (by rw [moving]; exact ⟨joined, rfl⟩) others).2
  refine ⟨told, ?_⟩
  rw [told]
  simp only [List.mem_cons, List.not_mem_nil, or_false]
  rintro p (rfl | rfl | rfl | rfl)
  · exact armed_oEnd_of_speaks g.newRange named (by rw [moving]; rfl)
  · exact armed_tEnd_of_call g.newRange named (.inr (by rw [moving]; exact CallState.noConfusion))
  · exact armed_line_of_ne g.lineRange (by rw [loop]; exact PointState.noConfusion)
  · exact quiet

/-- The grant of an EXTEND that reswitches, where nothing is armed at the terminating side's point. -/
theorem grant_moves (g : ExtendMovable c e lo n0 cord k x s) (m : MoveBase c e cord s b)
    (ht : ∀ lt, term = .line lt → lt < 2048)
    (hs : extendSearch e (extendBegun c e cord s) = (.done, 7, reswitch e.call lo k x term b))
    (quiet : armed (partyPoint term) (moveFound e lo n0 cord k x term b) = none) :
    grant s = extendAnswered c e .done [2048 + x, 2144 + x, lo, partyPoint term]
      (moveFound e lo n0 cord k x term b) := by
  have tables : TablesOk (moveFound e lo n0 cord k x term b) := tablesOk_moveFound m.tables
  have loop : (point lo (moveFound e lo n0 cord k x term b)).accepted = .loop := by
    rw [point_moveFound m g ht, if_pos (.inr rfl)]
    exact g.loop
  obtain ⟨told, unarmed⟩ := armed_none_moving (k := k) (term := term) g.tables tables g.movable
    ⟨call e.call s, by rw [call_moveFound m g, if_pos rfl], g.joined, g.origin⟩
    (fun y hy => by rw [call_moveFound m g, if_neg hy]) loop quiet
  rw [reswitch_eq m.tables (m.movable g.tables g.movable)] at hs
  rw [grant_found g.toExtendGranted hs rfl tables unarmed]
  exact congrArg (extendAnswered c e .done · _) told

/-- What holds of both reswitches: the reply, the record and the path that moves. -/
theorem moved_of (g : ExtendMovable c e lo n0 cord k x s) (m : MoveBase c e cord s b)
    (ht : ∀ lt, term = .line lt → lt < 2048) (hv : v = moveFound e lo n0 cord k x term b)
    (hg : t = extendAnswered c e .done [2048 + x, 2144 + x, lo, partyPoint term] v) (hne : x ≠ cord) :
    ExtendReplied c e .done s t ∧
      call e.call t = ((call e.call s).placed e 7).moving lo n0 cord k x term ∧ PathMoving e lo n0 cord k x s t := by
  have tables : TablesOk v := hv ▸ tablesOk_moveFound m.tables
  have frame : v = _ := hv.trans (moveFound_frame m)
  rw [← hv] at frame
  have calls : ∀ y, call y v = _ := fun y => hv ▸ call_moveFound m g y
  have elems : ∀ f, elem f v = _ := fun f => hv ▸ elem_moveFound m f
  have points : ∀ p, point p v = _ := fun p => hv ▸ point_moveFound m g ht p
  have linked : 12 * (lo / 64) + k ≠ n0 := ne_of_avail g.reached g.held
  have hlo := g.party.1
  have hx := g.newRange
  have hcord := g.inRange
  have shown : ∀ p, point p t = if p ∈ [2048 + x, 2144 + x, lo, partyPoint term] then
      { point p v with pending := none } else point p v := fun p => by rw [hg, point_extendAnswered tables]
  have left : point (2048 + cord) v = { point (2048 + cord) s with pulses := 0, pending := none } := by
    rw [points, if_pos (.inl rfl)]
  have coin : point (2240 + x) v = {} := by rw [points, if_neg (by omega), if_neg (by omega), if_pos (.inr rfl)]
  have after : t.net = v.net := by rw [hg, net_extendAnswered]
  refine ⟨?_, ?_, fun y hy => ?_, ?_, ?_, ?_, ?_, ?_, fun y h1 h2 => ?_, ?_, ?_, ?_, ?_⟩
  · rw [hg]
    exact extendReplied_of ⟨by rw [frame], by rw [frame], by rw [frame]⟩ _
  · rw [hg, call_extendAnswered, calls, if_pos rfl]
  · rw [hg, call_extendAnswered, calls, if_neg hy]
  · rw [hg, extendAnswered_frame, frame]
  · rw [elem_congr after, elems, if_neg (by simp [linked]), if_pos (by simp)]
  · rw [elem_congr after, elems, if_neg (by simp [hne]), if_pos (by simp)]
  · rw [elem_congr after, elems, if_pos (by simp)]
  · rw [elem_congr after, elems, if_pos (by simp)]
  · rw [elem_congr after, elems, if_neg (by simp [h2]), if_neg]
    cases term <;> simp [termElem, h1]
  · rw [shown, points, if_pos (by simp), if_pos (.inr rfl)]
  · rw [shown, left]
    split <;> rfl
  · rw [shown, points, if_pos (by simp), if_neg (by omega), if_neg (by omega), if_pos (.inl rfl)]
  · rw [shown, coin]
    split <;> rfl

/-! ## Toward a line -/

/-- A reswitch toward a line leaves the junctions. -/
theorem junctions_moveFound : (moveFound e lo n0 cord k x (.line lt) b).net.junctions = b.net.junctions := by
  rw [net_moveFound, reswitched, lineSpeaking, originMoving, pathReleasing, termCalled, lineCalled, reswitchTaken]
  rfl

/-- A granted EXTEND to a line reswitches its call. -/
def LineMoved (c : Ctl) (e : ExtendRequest) (lo n0 cord k x lt : Nat) (s t : Part) : Prop :=
  (ExtendReplied c e .done s t ∧
    call e.call t = ((call e.call s).placed e 7).moving lo n0 cord k x (.line lt) ∧
    PathMoving e lo n0 cord k x s t) ∧
    elem (.fl (12 * (lt / 64) + k)) t = { elem (.fl (12 * (lt / 64) + k)) s with occ := .reserved } ∧
    (∀ y, y ≠ n0 → y ≠ 12 * (lo / 64) + k → y ≠ 12 * (lt / 64) + k → elem (.fl y) t = elem (.fl y) s) ∧
    line lt t = { line lt s with sup := .inCall e.call } ∧
    (∀ y, y ≠ lt → line y t = line y s) ∧
    point (2144 + x) t = { point lt s with pulses := 0, pending := none } ∧
    point lt t = { point lt s with pending := none } ∧
    (∀ p, p ≠ lo → p ≠ 2048 + cord → p ≠ 2048 + x → p ≠ 2144 + x → p ≠ 2240 + x → p ≠ lt →
      point p t = point p s) ∧
    t = { s with
      arb := t.arb, calls := t.calls, scan.points := t.scan.points
      net.fls := t.net.fls, net.cords := t.net.cords, net.lines := t.net.lines
      orders := t.orders, serial := s.serial + 2, a := t.a, b := t.b }

theorem moveBase_begun (h : TablesOk s) : MoveBase c e cord s (extendBegun c e cord s) :=
  ⟨tablesOk_extendBegun h, rfl⟩

theorem extendSearch_movesLine (g : ExtendGranted c e (.line lo) cord s) (hd : e.dest = .line lt)
    (free : LineFree lt s) (frames : lo / 64 ≠ lt / 64)
    (shut : avail (.fl (12 * (lt / 64) + cord / 8)) s = false) (allow : e.allow = true)
    (plane : linePlane (lo / 64) (lt / 64) (cord / 8) s = some (k, x)) :
    extendSearch e (extendBegun c e cord s) =
      (.done, 7, reswitch e.call lo k x (.line lt) (extendBegun c e cord s)) := by
  have net := net_extendBegun (s := s) (c := c) (e := e) (cord := cord)
  have apart : OtherFrame (.line lo) lt := by
    rintro _ ⟨⟩
    exact frames
  rw [extendSearch_line hd, extendLine_searches (free.begun g.tables) g.begun_origin apart g.begun_joined, avail_congr net,
    if_neg (by simp [shut]), allow]
  exact lineMove_reswitch ((linePlane_congr net ..).trans plane)

theorem grant_movesLine (g : ExtendMovable c e lo n0 cord k x s) (hlt : lt < 2048) (hne : x ≠ cord)
    (hs : extendSearch e (extendBegun c e cord s) =
      (.done, 7, reswitch e.call lo k x (.line lt) (extendBegun c e cord s)))
    (idle : (line lt s).sup = .idle)
    (reached : avail (.fl (12 * (lt / 64) + k)) s = true) :
    LineMoved c e lo n0 cord k x lt s (grant s) := by
  have m : MoveBase c e cord s (extendBegun c e cord s) := moveBase_begun g.tables
  have ht : ∀ y, Party.line lt = .line y → y < 2048 := by
    rintro _ ⟨⟩
    exact hlt
  have other : Party.line lo ≠ .line lt := origin_ne_idle g.toExtendGranted idle
  have differs : lo ≠ lt := fun h => other (congrArg Party.line h)
  obtain ⟨v, hv⟩ : ∃ v, v = moveFound e lo n0 cord k x (.line lt) (extendBegun c e cord s) := ⟨_, rfl⟩
  have tables : TablesOk v := hv ▸ tablesOk_moveFound m.tables
  have calls : ∀ y, call y v = _ := fun y => hv ▸ call_moveFound m g y
  have lines : ∀ y, line y v = _ := fun y => hv ▸ line_moveFound m y
  have elems : ∀ f, elem f v = _ := fun f => hv ▸ elem_moveFound m f
  have points : ∀ p, point p v = _ := fun p => hv ▸ point_moveFound m g ht p
  have quiet : armed lt v = none := by
    refine armed_line_called (id := e.call) hlt (by rw [lines, if_pos rfl]) ?_
    rw [calls, if_pos rfl]
    exact fun h => other (g.origin.symm.trans h |> Option.some.inj)
  have granted : grant s = extendAnswered c e .done [2048 + x, 2144 + x, lo, lt] v := by
    rw [hv]
    exact grant_moves g m ht hs (hv ▸ quiet)
  have common := moved_of g m ht hv granted hne
  have linked : 12 * (lt / 64) + k ≠ n0 := ne_of_avail reached g.held
  have hcord := g.inRange
  have hlo := g.party.1
  have shown : ∀ p, point p (grant s) = if p ∈ [2048 + x, 2144 + x, lo, lt] then
      { point p v with pending := none } else point p v := fun p => by rw [granted, point_extendAnswered tables]
  have after : (grant s).net = v.net := by rw [granted, net_extendAnswered]
  have junctions : v.net.junctions = s.net.junctions := by
    rw [hv, junctions_moveFound, net_extendBegun]
  have frame : v = _ := hv.trans (moveFound_frame m)
  rw [← hv, junctions, net_extendBegun] at frame
  obtain ⟨t, ht⟩ : ∃ t, t = grant s := ⟨_, rfl⟩
  have whole : t = _ := (ht.trans granted).trans (extendAnswered_frame ..)
  rw [← granted, ← ht] at whole
  rw [← ht] at shown after common ⊢
  obtain ⟨u, hu⟩ : ∃ u, u = extendBegun c e cord s := ⟨_, rfl⟩
  have start : u = _ := hu.trans (extendBegun_frame ..)
  rw [← hu] at frame start
  refine ⟨common, ?_, fun y h1 h2 h3 => ?_, ?_, fun y hy => ?_, ?_, ?_, fun p h1 h2 h3 h4 h5 h6 => ?_, ?_⟩
  · rw [elem_congr after, elems, if_neg (by simp [linked]), if_pos (by simp [termElem])]
  · rw [elem_congr after, elems, if_neg (by simp [h1]), if_neg (by simp [h2, h3, termElem])]
  · rw [line_congr (congrArg Net.lines after), lines, if_pos rfl]
  · rw [line_congr (congrArg Net.lines after), lines, if_neg (by simp [Ne.symm hy])]
  · rw [shown, points, if_pos (by simp), if_neg (by omega), if_pos rfl]
    rfl
  · rw [shown, points, if_pos (by simp), if_neg (by omega), if_neg (by omega), if_neg (by omega)]
  · rw [shown, points, if_neg (by simp [h1, h3, h4, h6]), if_neg (by simp [h1, h2]), if_neg h4, if_neg (by simp [h3, h5])]
  · rw [whole, frame, start]

/-! ## Toward a route -/

/-- A granted EXTEND to a route reswitches its call. -/
def RouteMoved (c : Ctl) (e : ExtendRequest) (lo n0 cord x rt j : Nat) (s t : Part) : Prop :=
  (ExtendReplied c e .done s t ∧
    call e.call t = ((call e.call s).placed e 7).moving lo n0 cord (j % 12) x (.junction j) ∧
    PathMoving e lo n0 cord (j % 12) x s t) ∧
    (∀ y, y ≠ n0 → y ≠ 12 * (lo / 64) + j % 12 → elem (.fl y) t = elem (.fl y) s) ∧
    junction j t = { junction j s with elem := { (junction j s).elem with occ := .reserved } } ∧
    (∀ y, y ≠ j → junction y t = junction y s) ∧
    route rt t = { route rt s with hunt := (j + 1) % 48 } ∧
    (∀ y, y ≠ rt → route y t = route y s) ∧
    point (2144 + x) t = {} ∧ point (2336 + j) t = { point (2336 + j) s with pending := none } ∧
    (∀ p, p ≠ lo → p ≠ 2048 + cord → p ≠ 2048 + x → p ≠ 2144 + x → p ≠ 2240 + x → p ≠ 2336 + j →
      point p t = point p s) ∧
    t = { s with
      arb := t.arb, calls := t.calls, scan.points := t.scan.points
      net.fls := t.net.fls, net.cords := t.net.cords
      net.junctions := t.net.junctions, net.routes := t.net.routes
      orders := t.orders, serial := s.serial + 2, a := t.a, b := t.b }

/-- A reswitch toward a junction leaves the lines. -/
theorem lines_moveFound : (moveFound e lo n0 cord k x (.junction j) b).net.lines = b.net.lines := by
  rw [net_moveFound, reswitched, lineSpeaking, originMoving, pathReleasing, termCalled, reswitchTaken]
  rfl

/-- The part before a reswitch toward a route, whose hunt pointer stands behind the junction hunted. -/
def huntAdvanced (c : Ctl) (e : ExtendRequest) (cord rt j : Nat) (s : Part) : Part :=
  modRoute rt (fun r => { r with hunt := (j + 1) % 48 }) (extendBegun c e cord s)

theorem moveBase_huntAdvanced (h : TablesOk s) : MoveBase c e cord s (huntAdvanced c e cord rt j s) :=
  ⟨(low_modRoute (Low.refl _)).tablesOk (tablesOk_extendBegun h), rfl⟩

theorem route_huntAdvanced (h : TablesOk s) (y : Nat) :
    route y (huntAdvanced c e cord rt j s) =
      if y = rt then { route rt s with hunt := (j + 1) % 48 } else route y s := by
  have same : ∀ y, route y (extendBegun c e cord s) = route y s := route_congr (congrArg Net.routes net_extendBegun)
  unfold huntAdvanced
  split
  · next hy => rw [hy, route_modRoute (tablesOk_extendBegun h), same]
  · next hy => rw [route_modRoute_of_ne hy, same]

theorem extendSearch_movesRoute (g : ExtendGranted c e (.line lo) cord s) (hd : e.dest = .route rt)
    (unhunted : hunt rt (route rt s).hunt (fun k => decide (k = cord / 8)) s = none) (allow : e.allow = true)
    (hj : hunt rt (route rt s).hunt (fun k => decide (k ≠ cord / 8)) s = some j)
    (hx : lowestCord (j % 12) s = some x) (reached : avail (.fl (12 * (lo / 64) + j % 12)) s = true) :
    extendSearch e (extendBegun c e cord s) =
      (.done, 7, reswitch e.call lo (j % 12) x (.junction j) (huntAdvanced c e cord rt j s)) := by
  have net := net_extendBegun (s := s) (c := c) (e := e) (cord := cord)
  have pointer : route rt (extendBegun c e cord s) = route rt s := route_congr (congrArg Net.routes net) rt
  rw [extendSearch_route hd, extendRoute_unhunted g.begun_origin g.begun_joined
    (by rw [pointer, hunt_congr net, unhunted]), allow]
  exact routeMove_reswitch (by rw [pointer, hunt_congr net, hj]) (by rw [lowestCord_congr net, hx])
    (by rw [avail_congr net, reached])

theorem grant_movesRoute (g : ExtendMovable c e lo n0 cord (j % 12) x s) (hne : x ≠ cord)
    (hs : extendSearch e (extendBegun c e cord s) =
      (.done, 7, reswitch e.call lo (j % 12) x (.junction j) (huntAdvanced c e cord rt j s)))
    (idle : (junction j s).sup = .idle) : RouteMoved c e lo n0 cord x rt j s (grant s) := by
  have m : MoveBase c e cord s (huntAdvanced c e cord rt j s) := moveBase_huntAdvanced g.tables
  have ht : ∀ y, Party.junction j = .line y → y < 2048 := by
    rintro _ ⟨⟩
  obtain ⟨v, hv⟩ : ∃ v, v = moveFound e lo n0 cord (j % 12) x (.junction j) (huntAdvanced c e cord rt j s) := ⟨_, rfl⟩
  have tables : TablesOk v := hv ▸ tablesOk_moveFound m.tables
  have junctions : ∀ y, junction y v = _ := fun y => hv ▸ junction_moveFound m y
  have elems : ∀ f, elem f v = _ := fun f => hv ▸ elem_moveFound m f
  have points : ∀ p, point p v = _ := fun p => hv ▸ point_moveFound m g ht p
  have quiet : armed (2336 + j) v = none := by
    refine armed_junction_idle ?_
    rw [junctions, if_pos rfl]
    exact idle
  have granted : grant s = extendAnswered c e .done [2048 + x, 2144 + x, lo, 2336 + j] v := by
    rw [hv]
    exact grant_moves g m ht hs (hv ▸ quiet)
  have common := moved_of g m ht hv granted hne
  have hcord := g.inRange
  have hx := g.newRange
  have hlo := g.party.1
  have shown : ∀ p, point p (grant s) = if p ∈ [2048 + x, 2144 + x, lo, 2336 + j] then
      { point p v with pending := none } else point p v := fun p => by rw [granted, point_extendAnswered tables]
  have after : (grant s).net = v.net := by rw [granted, net_extendAnswered]
  have lines : v.net.lines = s.net.lines := by
    rw [hv, lines_moveFound, ← net_extendBegun (c := c) (e := e) (cord := cord) (s := s)]
    rfl
  have frame : v = _ := hv.trans (moveFound_frame m)
  rw [← hv, lines] at frame
  have routes : ∀ y, route y v = if y = rt then { route rt s with hunt := (j + 1) % 48 } else route y s := fun y => by
    rw [← route_huntAdvanced (c := c) (e := e) (cord := cord) g.tables]
    exact route_congr (by rw [frame]) y
  obtain ⟨t, ht⟩ : ∃ t, t = grant s := ⟨_, rfl⟩
  have whole : t = _ := (ht.trans granted).trans (extendAnswered_frame ..)
  rw [← granted, ← ht] at whole
  rw [← ht] at shown after common ⊢
  obtain ⟨u, hu⟩ : ∃ u, u = extendBegun c e cord s := ⟨_, rfl⟩
  have start : u = _ := hu.trans (extendBegun_frame ..)
  rw [← hu] at frame start
  refine ⟨common, fun y h1 h2 => ?_, ?_, fun y hy => ?_, ?_, fun y hy => ?_, ?_, ?_, fun p h1 h2 h3 h4 h5 h6 => ?_, ?_⟩
  · rw [elem_congr after, elems, if_neg (by simp [h1]), if_neg (by simp [h2, termElem])]
  · rw [junction_congr (congrArg Net.junctions after), junctions, if_pos rfl]
  · rw [junction_congr (congrArg Net.junctions after), junctions, if_neg (by simp [Ne.symm hy])]
  · rw [route_congr (congrArg Net.routes after), routes, if_pos rfl]
  · rw [route_congr (congrArg Net.routes after), routes, if_neg hy]
  · rw [shown, points, if_pos (by simp), if_neg (by omega), if_pos rfl]
    rfl
  · rw [shown, points, if_pos (by simp), if_neg (by omega), if_neg (by omega), if_neg (by omega)]
  · rw [shown, points, if_neg (by simp [h1, h3, h4, h6]), if_neg (by simp [h1, h2]), if_neg h4, if_neg (by simp [h3, h5])]
  · rw [whole, frame, start]

end Sys2Proof.Machine
end
section
/-!
PROOFS. EXTEND (R66): the refusals of its grant, and the statement.
-/

namespace Sys2Proof.Machine

variable {s : Part} {c : Ctl} {e : ExtendRequest} {o : Party} {cord lt rt : Nat}

/-! ## The refusals of a grant to a line (R67) -/

theorem line_begun (lt : Nat) : line lt (extendBegun c e cord s) = line lt s :=
  line_congr (congrArg Net.lines net_extendBegun) lt

theorem lineFree_of (there : ¬ ((line lt s).cls = .unequipped ∨ (line lt s).admin = .busyOut))
    (idle : ¬ (callOf (.line lt) s ≠ none ∨ (line lt s).sup ≠ .idle)) : LineFree lt s := by
  obtain ⟨unnamed, idle⟩ := not_or.mp idle
  exact ⟨decide_eq_false there, not_not.mp unnamed, not_not.mp idle⟩

theorem refused_of_out (g : ExtendGranted c e o cord s) (hd : e.dest = .line lt)
    (h : (line lt s).cls = .unequipped ∨ (line lt s).admin = .busyOut) :
    ExtendRefused c e o cord .unavailable s (grant s) :=
  grant_refuses g ResultCode.noConfusion
    ((extendSearch_line hd).trans (extendLine_of_out (by rw [line_begun]; exact decide_eq_true h)))

theorem refused_of_busy (g : ExtendGranted c e o cord s) (hd : e.dest = .line lt)
    (there : ¬ ((line lt s).cls = .unequipped ∨ (line lt s).admin = .busyOut))
    (h : callOf (.line lt) s ≠ none ∨ (line lt s).sup ≠ .idle) : ExtendRefused c e o cord .lineBusy s (grant s) := by
  refine grant_refuses g ResultCode.noConfusion ((extendSearch_line hd).trans (extendLine_of_busy ?_ ?_))
  · rw [line_begun]
    exact decide_eq_false there
  · rw [line_begun, callOf_extendBegun g.tables]
    exact h

theorem refused_of_sameFrame {lo : Nat} (g : ExtendGranted c e (.line lo) cord s) (hd : e.dest = .line lt)
    (free : LineFree lt s) (h : lo / 64 = lt / 64) : ExtendRefused c e (.line lo) cord .unavailable s (grant s) :=
  grant_refuses g ResultCode.noConfusion
    ((extendSearch_line hd).trans (extendLine_of_sameFrame (free.begun g.tables) g.begun_origin h))

theorem refused_of_noPlane (g : ExtendGranted c e o cord s) (hd : e.dest = .line lt) (free : LineFree lt s)
    (frames : OtherFrame o lt) (shut : avail (.fl (12 * (lt / 64) + cord / 8)) s = false)
    (h : e.allow = false ∨ (∃ j, o = .junction j) ∨
      ∃ lo, o = .line lo ∧ linePlane (lo / 64) (lt / 64) (cord / 8) s = none) :
    ExtendRefused c e o cord .congested s (grant s) := by
  have net := net_extendBegun (s := s) (c := c) (e := e) (cord := cord)
  refine grant_refuses g ResultCode.noConfusion ((extendSearch_line hd).trans ?_)
  rw [extendLine_searches (free.begun g.tables) g.begun_origin frames g.begun_joined, avail_congr net,
    if_neg (by simp [shut])]
  refine lineMove_congested ?_
  simpa only [linePlane_congr net] using h

/-- The grant to a line that is reached on the call's plane. -/
theorem granted_line (g : ExtendGranted c e o cord s) (hd : e.dest = .line lt) (hlt : lt < 2048) (free : LineFree lt s)
    (frames : OtherFrame o lt) (open_ : avail (.fl (12 * (lt / 64) + cord / 8)) s = true) :
    LineGranted c e o cord lt (12 * (lt / 64) + cord / 8) s (grant s) := by
  refine grant_takesLine g hd hlt ?_ free.idle
  rw [extendLine_searches (free.begun g.tables) g.begun_origin frames g.begun_joined, avail_congr net_extendBegun,
    if_pos open_]

/-! ## The refusals of a grant to a route (R68) -/

theorem refused_of_noJunction (g : ExtendGranted c e o cord s) (hd : e.dest = .route rt)
    (unhunted : hunt rt (route rt s).hunt (fun k => decide (k = cord / 8)) s = none)
    (h : e.allow = false ∨ (∃ j, o = .junction j) ∨
      hunt rt (route rt s).hunt (fun k => decide (k ≠ cord / 8)) s = none ∨
      ∃ lo j, o = .line lo ∧ hunt rt (route rt s).hunt (fun k => decide (k ≠ cord / 8)) s = some j ∧
        (lowestCord (j % 12) s = none ∨ avail (.fl (12 * (lo / 64) + j % 12)) s = false)) :
    ExtendRefused c e o cord .congested s (grant s) := by
  have net := net_extendBegun (s := s) (c := c) (e := e) (cord := cord)
  have pointer : route rt (extendBegun c e cord s) = route rt s := route_congr (congrArg Net.routes net) rt
  refine grant_refuses g ResultCode.noConfusion ((extendSearch_route hd).trans ?_)
  rw [extendRoute_unhunted g.begun_origin g.begun_joined (by rw [pointer, hunt_congr net, unhunted])]
  refine routeMove_congested ?_
  simpa only [pointer, hunt_congr net, lowestCord_congr net, avail_congr net] using h

/-! ## A reswitch -/

/-- The reswitch toward a line that a plane of R72 lets through. -/
theorem moved_line {lo n0 k x : Nat} (g : ExtendGranted c e (.line lo) cord s) (hd : e.dest = .line lt) (hlt : lt < 2048)
    (free : LineFree lt s) (frames : lo / 64 ≠ lt / 64)
    (shut : avail (.fl (12 * (lt / 64) + cord / 8)) s = false) (allow : e.allow = true)
    (set : (call e.call s).set = { fl := some n0, cord := some cord })
    (xps : (call e.call s).xps = [(.line lo n0, .operated), (.plane n0 cord .o, .operated)])
    (held : (elem (.fl n0) s).occ = .held) (unnamed : callOfElem (.cord x) s = none)
    (plane : linePlane (lo / 64) (lt / 64) (cord / 8) s = some (k, x)) : LineMoved c e lo n0 cord k x lt s (grant s) := by
  have hcord := g.inRange
  obtain ⟨hk, hne, ⟨h1, h2, hx, -⟩, -, -⟩ := linePlane_eq_some (by omega) plane
  have g' : ExtendMovable c e lo n0 cord k x s :=
    { g with set := set, xps := xps, held := held, unnamed := unnamed, newRange := by omega, reached := h1 }
  exact grant_movesLine g' hlt (by rintro rfl; exact hne hx.symm)
    (extendSearch_movesLine g hd free frames shut allow plane) free.idle h2

/-- The reswitch toward a route whose junction has its plane, cord and frame link. -/
theorem moved_route {lo n0 j x : Nat} (g : ExtendGranted c e (.line lo) cord s) (hd : e.dest = .route rt)
    (unhunted : hunt rt (route rt s).hunt (fun k => decide (k = cord / 8)) s = none) (allow : e.allow = true)
    (set : (call e.call s).set = { fl := some n0, cord := some cord })
    (xps : (call e.call s).xps = [(.line lo n0, .operated), (.plane n0 cord .o, .operated)])
    (held : (elem (.fl n0) s).occ = .held) (unnamed : callOfElem (.cord x) s = none)
    (hj : hunt rt (route rt s).hunt (fun k => decide (k ≠ cord / 8)) s = some j)
    (hx : lowestCord (j % 12) s = some x) (reached : avail (.fl (12 * (lo / 64) + j % 12)) s = true) :
    RouteMoved c e lo n0 cord x rt j s (grant s) := by
  obtain ⟨hk, -, -⟩ := lowestCord_eq_some.mp hx
  have fits := hunt_fits hj
  have away : j % 12 ≠ cord / 8 := of_decide_eq_true fits.2.2.2
  have g' : ExtendMovable c e lo n0 cord (j % 12) x s :=
    { g with set := set, xps := xps, held := held, unnamed := unnamed, newRange := by omega, reached := reached }
  exact grant_movesRoute g' (by rintro rfl; exact away hk.symm)
    (extendSearch_movesRoute g hd unhunted allow hj hx reached) (idle_of_avail fits.1)

/-! ## The statement -/

/-- Settles O30: the request is checked in order and goes in flight; its grant takes one of the exits of the search, and
each leaves its call with nothing armed at its points. -/
theorem extend : Obligations.Extend := by
  refine ⟨extend_taken, fun s c e o cord g => ⟨fun lt hd hlt => ?_, fun rt hd => ?_⟩,
    fun s f1 f2 k hk => ⟨fun p c h => linePlane_eq_some hk h, fun h q d hq hqk => linePlane_eq_none hk h hq hqk d⟩,
    fun s rt start onPlane hs => ⟨fun j h => hunt_eq_some hs h, fun h i hi => hunt_eq_none hs h hi⟩⟩
  · refine ⟨fun out => ⟨_, rfl, rfl, refused_of_out g hd out⟩,
      fun there busy => ⟨_, rfl, rfl, refused_of_busy g hd there busy⟩, fun there free same => ?_,
      fun there free apart shut h => ⟨_, rfl, rfl, ?_⟩, fun there free apart open_ => ⟨_, rfl, rfl, ?_⟩,
      fun lo n0 k x there free apart shut allow movable plane => ?_⟩
    · obtain ⟨lo, rfl, frames⟩ := same
      exact ⟨_, rfl, rfl, refused_of_sameFrame g hd (lineFree_of there free) frames⟩
    · exact refused_of_noPlane g hd (lineFree_of there free) (fun lo ho hf => apart ⟨lo, ho, hf⟩) shut h
    · exact granted_line g hd hlt (lineFree_of there free) (fun lo ho hf => apart ⟨lo, ho, hf⟩) open_
    · obtain ⟨rfl, set, xps, held, unnamed⟩ := movable
      obtain ⟨⟨replied, record, moving⟩, rest⟩ := moved_line g hd hlt (lineFree_of there free)
        (fun hf => apart ⟨lo, rfl, hf⟩) shut allow set xps held unnamed plane
      exact ⟨_, rfl, rfl, replied, record, moving, rest⟩
  · refine ⟨fun unhunted h => ⟨_, rfl, rfl, refused_of_noJunction g hd unhunted h⟩,
      fun j hj => ⟨_, rfl, rfl, grant_takesJunction g hd hj⟩,
      fun lo n0 j x unhunted allow movable hj hx reached => ?_⟩
    obtain ⟨rfl, set, xps, held, unnamed⟩ := movable
    obtain ⟨⟨replied, record, moving⟩, rest⟩ := moved_route g hd unhunted allow set xps held unnamed hj hx reached
    exact ⟨_, rfl, rfl, replied, record, moving, rest⟩

end Sys2Proof.Machine
end

section
/-!
PROOFS. The releases that follow an expiry or a clear (R35, R36, R88, R98, R128).
-/

namespace Sys2Proof.Machine

variable {s : Part} {id : Nat}

/-! ## Expiries (R88, R91, R93, R95, R128) -/

/-- A call timer that is not due, or not of the kinds that the command takes, changes nothing. -/
theorem expireTimer_of_early {kinds : List TimerKind}
    (h : ∀ m, (call id s).timer = some m → m.count < m.limit ∨ m.kind ∉ kinds) : expireTimer kinds id s = s := by
  unfold expireTimer timerDue
  cases ht : (call id s).timer with
  | none => rfl
  | some m =>
    rcases h m ht with early | other
    · simp [Nat.not_le.mpr early]
    · by_cases due : m.limit ≤ m.count <;> simp [due, other]

/-- A grace timer that has reached its limit releases a call that has not been released. -/
theorem expireGrace_due {k : Coin} {limit count : Nat} (hr : (call id s).released = false)
    (hk : (call id s).coin = some k) (hg : k.grace = some (limit, count)) (hd : limit ≤ count) :
    expireGrace id s = takeRelease id .creditExhausted s := by
  simp [expireGrace, graceDue, hr, hk, hg, hd]

theorem expireGrace_of_early
    (h : ∀ k limit count, (call id s).coin = some k → k.grace = some (limit, count) → count < limit) :
    expireGrace id s = s := by
  refine if_neg fun due => ?_
  rw [graceDue, Bool.and_eq_true] at due
  cases hk : (call id s).coin with
  | none => simp [hk] at due
  | some k =>
    cases hg : k.grace with
    | none => simp [hk, hg] at due
    | some g =>
      have late : g.1 ≤ g.2 := by simpa [hk, hg] using due.2
      exact absurd late (Nat.not_le.mpr (h k g.1 g.2 hk hg))

/-- What a command makes of the part, where its meaning is a function on the part. -/
theorem makes_of_onPart {i : Instr} {s : State} {f : Part → Part} {q : Part} (hi : exec i s = onPart f s)
    (hf : f s.part = q) : Makes i s q := by rw [Makes, hi, onPart, hf]

/-- A command that comes to a release of a call for which a release can be taken. -/
theorem exec_takesRelease {i : Instr} {s : State} {f : Part → Part} {q : Part} {id : Nat} {why : Reason}
    (hi : exec i s = onPart f s) (hf : f s.part = takeRelease id why q) (h : TablesOk q) (hr : Releasable id q) :
    ∃ t, exec i s = .next t ∧ t.pending = s.pending ∧ TakesRelease id why q t.part :=
  ⟨{ s with part := takeRelease id why q }, makes_of_onPart hi hf, rfl, takesRelease_takeRelease h hr why⟩

/-- What O46 says of a command that takes the expiries of some kinds of call timer, all with one reason. -/
theorem timerExpiry {i : Instr} {s : State} {id : Nat} {why : Reason} {kinds : List TimerKind} (h : TablesOk s.part)
    (hi : exec i s = onPart (expireTimer kinds id) s) (hw : ∀ k ∈ kinds, k.reason = why) :
    ((∀ m, (call id s.part).timer = some m → m.count < m.limit ∨ m.kind ∉ kinds) → Makes i s s.part) ∧
      ∀ m, (call id s.part).timer = some m → m.limit ≤ m.count → m.kind ∈ kinds → Releasable id s.part →
        ∃ t, exec i s = .next t ∧ t.pending = s.pending ∧ TakesRelease id why s.part t.part := by
  refine ⟨fun early => ?_, fun m hm due hk hr => exec_takesRelease hi ?_ h hr⟩
  · exact makes_of_onPart hi (expireTimer_of_early early)
  · rw [expireTimer_due hm due hk, hw _ hk]

/-- Settles O46: each command takes the expiry of its own timer, and an expiry is a release. -/
theorem expiryReleases : Obligations.ExpiryReleases := by
  intro s id h
  refine ⟨fun i why kinds hi => ?_, fun early => ?_, fun k limit count hk hg due hr => ?_⟩
  · rcases hi with ⟨rfl, rfl, rfl⟩ | ⟨rfl, rfl, rfl⟩ | ⟨rfl, rfl, rfl⟩
    · exact timerExpiry h rfl (by decide)
    · exact timerExpiry h rfl (by decide)
    · exact timerExpiry h rfl (by decide)
  · exact makes_of_onPart (f := expireGrace id) rfl (expireGrace_of_early early)
  · exact exec_takesRelease (f := expireGrace id) rfl (expireGrace_due hr.2.1 hk hg due) h hr

/-! ## CALLER CLEAR and FAR-END CLEAR (R35, R36, R98) -/

/-- The pending event of a point has gone, as it does when it is produced (R22). -/
abbrev eventGone (p : Nat) (s : Part) : Part := modPoint p (fun e => { e with pending := none }) s

theorem releasable_eventGone {p : Nat} (h : Releasable id s) : Releasable id (eventGone p s) := h

/-- A command that produces an event of 50 scans, which has come. -/
theorem produceEvent_due {p : Nat} {ev : ScanEvent} (hp : (point p s).pending = some ev) (h50 : 50 ≤ (point p s).duration)
    (ht : ev.threshold ≤ 50) (hb : s.supply.battery ≠ .rideThrough) :
    produceEvent p ev s = takeEvent p ev (eventGone p s) := by
  have due : eventDue p s = some ev := by rw [eventDue_of_some hp hb, if_pos (ht.trans h50)]
  rw [produceEvent, if_pos due, produce_of_due due]

theorem takeEvent_callerClear_line {p : Nat} (hp : p < 2048) (hc : callOf (.line p) s = some id) :
    takeEvent p .callerClear s = takeRelease id .callerCleared s := by
  simp [takeEvent, pointKind_line hp, hc, clearCaller]

theorem takeEvent_callerClear_cord {cord : Nat} (hp : cord < 96) (hc : callOfElem (.cord cord) s = some id) :
    takeEvent (2048 + cord) .callerClear s = takeRelease id .callerCleared s := by
  simp [takeEvent, pointKind_oEnd hp, hc, clearCaller]

theorem takeEvent_farEndClear (j : Nat) (s : Part) : takeEvent (2336 + j) .farEndClear s = clearFarEnd j s := by
  simp [takeEvent, pointKind_junction]

/-- The far end of a junction that a call names as its calling party clears the call (R36). -/
theorem clearFarEnd_of_call {j : Nat}
    (h : (junction j s).sup = .inCall .incoming id ∨
      (junction j s).sup = .originating ∧ callOf (.junction j) s = some id) :
    clearFarEnd j s = takeRelease id .callerCleared s := by
  rcases h with h | ⟨h, hc⟩
  · simp [clearFarEnd, h, clearCaller]
  · simp [clearFarEnd, h, hc, clearCaller]

/-- The far end of a junction before service gives it up (R35). -/
theorem clearFarEnd_unserved {j : Nat}
    (h : (junction j s).sup = .heldUnserved ∨
      (junction j s).sup = .originating ∧ callOf (.junction j) s = none) :
    clearFarEnd j s = idleJunction j s := by
  rcases h with h | ⟨h, hc⟩
  · simp [clearFarEnd, h]
  · simp [clearFarEnd, h, hc]

/-- Settles O45: the event that is due is a release where a call names the point's party, and makes a junction before
service IDLE, as `idleJunction` does. -/
theorem callerClearReleases : Obligations.CallerClearReleases := by
  refine ⟨fun s id h hb hr => ⟨fun p hp hev h50 => ?_, fun j _ hj hev h50 => ?_⟩, fun s j h hb _ hj hev h50 => ?_⟩
  · refine exec_takesRelease (f := produceEvent p .callerClear) rfl ?_ (h.modPoint _ _) (releasable_eventGone hr)
    rw [produceEvent_due hev h50 (by decide) hb]
    rcases hp with ⟨hp, hc⟩ | ⟨cord, hp, rfl, hc⟩
    · exact takeEvent_callerClear_line hp hc
    · exact takeEvent_callerClear_cord hp hc
  · refine exec_takesRelease (f := produceEvent (2336 + j) .farEndClear) rfl ?_ (h.modPoint _ _) (releasable_eventGone hr)
    rw [produceEvent_due hev h50 (by decide) hb, takeEvent_farEndClear]
    exact clearFarEnd_of_call hj
  · obtain ⟨q, hq⟩ : ∃ q, q = eventGone (2336 + j) s.part := ⟨_, rfl⟩
    have tables : TablesOk q := hq ▸ h.modPoint _ _
    have entry : point (2336 + j) q = { point (2336 + j) s.part with pending := none } := hq ▸ point_modPoint h _ _
    have idled : produceEvent (2336 + j) .farEndClear s.part = idleJunction j q := by
      rw [produceEvent_due hev h50 (by decide) hb, takeEvent_farEndClear, ← hq]
      exact clearFarEnd_unserved (by subst hq; exact hj)
    refine ⟨{ s with part := idleJunction j q }, ?_, rfl, ?_, fun x hx => ?_, ?_, fun p hp => ?_, ?_, ?_⟩
    · exact makes_of_onPart (f := produceEvent (2336 + j) .farEndClear) rfl idled
    · rw [junction_idleJunction tables, if_pos rfl, hq, junction_modPoint]
    · rw [junction_idleJunction tables, if_neg hx, hq, junction_modPoint]
    · rw [point_idleJunction tables, if_pos rfl, entry]
    · rw [point_idleJunction tables, if_neg hp, hq, point_modPoint_of_ne hp]
    · rw [queue_idleJunction tables, hq]
      rfl
    · rw [idleJunction_frame tables, hq]
      rfl

end Sys2Proof.Machine
end

section
/-!
PROOFS. The requests RELEASE and RELEASE CALL (R100, R101).
-/

namespace Sys2Proof.Machine

variable {s t : Part} {id : Nat}

/-! ## What a reply leaves of a call and of what waits for it -/

theorem ctl_reply_extend (p : Port) (tag : Byte) (code : ResultCode) (data : List Byte) (c : Ctl) (s : Part) :
    (ctl c (reply p tag code data s)).extend = (ctl c s).extend := by
  rcases p with (_ | _) | _ <;> cases c <;> rfl

theorem ctl_alive_extend (c d : Ctl) (s : Part) : (ctl d (alive c s)).extend = (ctl d s).extend := by
  cases c <;> cases d <;> rfl

theorem orig_reply (p : Port) (tag : Byte) (code : ResultCode) (data : List Byte) (s : Part) :
    (reply p tag code data s).orig = s.orig := by
  rcases p with (_ | _) | _ <;> rfl

@[simp] theorem call_alive (c : Ctl) (x : Nat) (s : Part) : call x (alive c s) = call x s := by cases c <;> rfl

theorem TablesOk.alive (h : TablesOk s) (c : Ctl) : TablesOk (alive c s) := (low_modCtl (Low.refl s)).tablesOk h

theorem unawaited_reply (p : Port) (tag : Byte) (code : ResultCode) (data : List Byte) (h : Unawaited id s) :
    Unawaited id (reply p tag code data s) :=
  ⟨fun c r hr => h.1 c r (by rwa [ctl_reply_extend] at hr), by rw [orig_reply]; exact h.2⟩

theorem unawaited_alive (c : Ctl) (h : Unawaited id s) : Unawaited id (alive c s) :=
  ⟨fun d r hr => h.1 d r (by rwa [ctl_alive_extend] at hr), by cases c <;> exact h.2⟩

/-! ## When a release is taken (R85, R98) -/

theorem active_iff {r : Call} : r.active = true ↔ r.state ≠ .free ∧ r.state ≠ .closed := by simp [Call.active]

theorem active_eq_false {r : Call} : r.active = false ↔ r.state = .free ∨ r.state = .closed := by
  simp only [Call.active, decide_eq_false_iff_not]
  tauto

theorem takeRelease_of_released {why : Reason} (h : (call id s).released = true) : takeRelease id why s = s := by
  simp [takeRelease, h]

/-- A release taken behind the reply to the request for it. -/
theorem takesRelease_reply {p : Port} {tag : Byte} {why : Reason} (h : TablesOk s) (ha : (call id s).active = true)
    (hr : (call id s).released = false) (hu : Unawaited id s) :
    TakesRelease id why (reply p tag .done [] s) (takeRelease id why (reply p tag .done [] s)) := by
  refine takesRelease_takeRelease (h.reply _ _ _ _) ⟨?_, ?_, unawaited_reply _ _ _ _ hu⟩ why
  · rwa [call_reply]
  · rwa [call_reply]

/-! ## RELEASE (R100) -/

theorem callRefusal_noSuch {c : Ctl} {bad : Call → Bool} (h : 128 ≤ id) : callRefusal c id bad s = some .noSuch :=
  if_pos h

theorem callRefusal_badState {c : Ctl} {bad : Call → Bool} (h : id < 128) (hb : bad (call id s) = true) :
    callRefusal c id bad s = some .badState := by
  rw [callRefusal, if_neg (show ¬ Config.calls ≤ id from Nat.not_le.mpr h), if_pos hb]

theorem callRefusal_notOwner {c : Ctl} {bad : Call → Bool} (h : id < 128) (hb : bad (call id s) = false)
    (ho : (call id s).owner ≠ some c) : callRefusal c id bad s = some .notOwner := by
  rw [callRefusal, if_neg (show ¬ Config.calls ≤ id from Nat.not_le.mpr h), if_neg (by simp [hb]), if_pos ho]

theorem callRefusal_none {c : Ctl} {bad : Call → Bool} (h : id < 128) (hb : bad (call id s) = false)
    (ho : (call id s).owner = some c) : callRefusal c id bad s = none := by
  rw [callRefusal, if_neg (show ¬ Config.calls ≤ id from Nat.not_le.mpr h), if_neg (by simp [hb]), if_neg (by simp [ho])]

theorem releaseRequest_refused {c : Ctl} {tag id : Byte} {code : ResultCode}
    (h : callRefusal c id.toNat (fun r => !r.active) s = some code) :
    releaseRequest c tag id s = reply (.ctl c) tag code [] s := by
  simp [releaseRequest, h]

theorem releaseRequest_taken {c : Ctl} {tag id : Byte} (h : callRefusal c id.toNat (fun r => !r.active) s = none) :
    releaseRequest c tag id s = takeRelease id.toNat .controller (reply (.ctl c) tag .done [] s) := by
  simp [releaseRequest, h]

/-- Settles O28: the refusals in their order, and the release taken behind the reply. -/
theorem release : Obligations.Release := by
  intro s c tag id g h
  have refused : ∀ code, callRefusal c id.toNat (fun r => !r.active) (alive c s.part) = some code →
      Replies (.release c tag id) s (.ctl c) { tag := tag, code := code } (alive c s.part) := fun code hc =>
    replies_of_ctlReply rfl g (releaseRequest_refused hc)
  refine ⟨fun high => refused _ (callRefusal_noSuch high), fun low idle => refused _ (callRefusal_badState low ?_),
    fun low free closed => ?_⟩
  · rw [call_alive, active_eq_false.mpr idle]
    rfl
  · have active : (call id.toNat s.part).active = true := active_iff.mpr ⟨free, closed⟩
    have good : (fun r => !r.active) (call id.toNat (alive c s.part)) = false := by simp [active]
    refine ⟨fun other => refused _ (callRefusal_notOwner low good (by rwa [call_alive])), fun own => ?_⟩
    refine ⟨reply (.ctl c) tag .done [] (alive c s.part), answered_reply _ _ _ _ _, ?_, fun taken => ?_, fun fresh hu => ?_⟩
    · have owner : (call id.toNat (alive c s.part)).owner = some c := by rwa [call_alive]
      have allowed := callRefusal_none (bad := fun r => !r.active) low good owner
      show onPart (receiveCtl c tag (releaseRequest c tag id)) s = _
      rw [onPart, receiveCtl_of_takes s.part g, releaseRequest_taken allowed]
    · exact takeRelease_of_released (by rw [call_reply, call_alive]; exact taken)
    · exact takesRelease_reply (h.alive c) (by rwa [call_alive]) (by rwa [call_alive]) (unawaited_alive c hu)

/-! ## What waits for a call is withdrawn (R57, R66) -/

/-- The record of a call for which a release has been taken, before it is told (R98). -/
def Call.stopped (why : Reason) (r : Call) : Call := { r with reason := some why, timer := none, charging := false }

/-- A release taken: the record, what waits for the call, and then the release pending or begun. -/
theorem takeRelease_of_active {why : Reason} (ha : (call id s).active = true) (hr : (call id s).released = false) :
    takeRelease id why s =
      let u := dropRehunt id (withdrawExtend id .b (withdrawExtend id .a (modCall id (Call.stopped why) s)))
      if (ordersOf id u).isEmpty then enterReleasing id u
      else modCall id (fun c => { c with relPending := true }) u := by
  rw [takeRelease, ha, hr]
  rfl

/-- Two parts in which the same is left once what waits for a call has gone: a release comes to the same in both. -/
theorem takeRelease_congr {why : Reason} (ha : (call id s).active = true) (hr : (call id s).released = false)
    (hc : call id t = call id s)
    (hw : dropRehunt id (withdrawExtend id .b (withdrawExtend id .a (modCall id (Call.stopped why) s))) =
      dropRehunt id (withdrawExtend id .b (withdrawExtend id .a (modCall id (Call.stopped why) t)))) :
    takeRelease id why s = takeRelease id why t := by
  rw [takeRelease_of_active ha hr, takeRelease_of_active (by rwa [hc]) (by rwa [hc]), hw]

theorem withdrawExtend_of_waiting {c : Ctl} {r : ExtendRequest} (h : (ctl c s).extend = some r) (hr : r.call = id) :
    withdrawExtend id c s = reply (.ctl c) r.tag .badState [] (modCtl c (fun p => { p with extend := none }) s) := by
  simp [withdrawExtend, h, hr]

/-- The controller's EXTEND has been withdrawn and answered BAD STATE. -/
def extendWithdrawn (c : Ctl) (r : ExtendRequest) (s : Part) : Part :=
  reply (.ctl c) r.tag .badState [] (modCtl c (fun p => { p with extend := none }) s)

theorem modCall_extendWithdrawn (c : Ctl) (r : ExtendRequest) (f : Call → Call) (s : Part) :
    modCall id f (extendWithdrawn c r s) = extendWithdrawn c r (modCall id f s) := by cases c <;> rfl

theorem calls_extendWithdrawn (c : Ctl) (r : ExtendRequest) (s : Part) : (extendWithdrawn c r s).calls = s.calls := by
  cases c <;> rfl

theorem extend_extendWithdrawn (c : Ctl) (r : ExtendRequest) (s : Part) :
    (ctl c (extendWithdrawn c r s)).extend = none ∧
      (ctl (otherCtl c) (extendWithdrawn c r s)).extend = (ctl (otherCtl c) s).extend := by
  cases c <;> exact ⟨rfl, rfl⟩

/-- Where one controller's EXTEND alone waits for a call, it alone is withdrawn, whichever the controller is. -/
theorem withdrawExtends_one {c : Ctl} {r : ExtendRequest} (h : (ctl c s).extend = some r) (hr : r.call = id)
    (ho : ∀ x, (ctl (otherCtl c) s).extend = some x → x.call ≠ id) :
    withdrawExtend id .b (withdrawExtend id .a s) = extendWithdrawn c r s := by
  obtain ⟨-, other⟩ := extend_extendWithdrawn c r s
  cases c with
  | a =>
    rw [withdrawExtend_of_waiting h hr]
    exact withdrawExtend_of_unawaited .b (fun x hx => ho x (by rwa [← other]))
  | b =>
    rw [withdrawExtend_of_unawaited (s := s) .a ho]
    exact withdrawExtend_of_waiting h hr

/-- Nothing waits for the call once the one EXTEND that did has been withdrawn. -/
theorem unawaited_extendWithdrawn {c : Ctl} {r : ExtendRequest}
    (ho : ∀ x, (ctl (otherCtl c) s).extend = some x → x.call ≠ id)
    (hn : s.orig.rehunts.any (fun e => decide (e.call = id)) = false) : Unawaited id (extendWithdrawn c r s) := by
  obtain ⟨own, other⟩ := extend_extendWithdrawn c r s
  refine ⟨fun d x hx => ?_, by cases c <;> exact hn⟩
  by_cases hd : d = c
  · subst hd
    rw [own] at hx
    cases hx
  · have : d = otherCtl c := by revert hd; cases c <;> cases d <;> decide
    subst this
    exact ho x (by rwa [← other])

theorem withdrawExtends_of_unawaited (h : ∀ c r, (ctl c s).extend = some r → r.call ≠ id) :
    withdrawExtend id .b (withdrawExtend id .a s) = s := by
  rw [withdrawExtend_of_unawaited .a (h .a), withdrawExtend_of_unawaited .b (h .b)]

/-- A release of a call that one EXTEND waits for is the release that follows the EXTEND's withdrawal. -/
theorem takeRelease_withdraws {why : Reason} {c : Ctl} {r : ExtendRequest} (ha : (call id s).active = true)
    (hf : (call id s).released = false) (h : (ctl c s).extend = some r) (hr : r.call = id)
    (ho : ∀ x, (ctl (otherCtl c) s).extend = some x → x.call ≠ id)
    (hn : s.orig.rehunts.any (fun e => decide (e.call = id)) = false) :
    takeRelease id why s = takeRelease id why (extendWithdrawn c r s) := by
  obtain ⟨extends_, -⟩ := unawaited_extendWithdrawn (r := r) ho hn
  refine takeRelease_congr ha hf (call_congr (calls_extendWithdrawn c r s) id) ?_
  rw [withdrawExtends_one (s := modCall id (Call.stopped why) s) h hr ho, modCall_extendWithdrawn,
    ← modCall_extendWithdrawn, withdrawExtends_of_unawaited (s := modCall id (Call.stopped why) (extendWithdrawn c r s))
      extends_]

/-- The call's re-hunt entry has gone, and the server has made its request anew. -/
def rehuntDropped (id : Nat) (request : Option Nat) (s : Part) : Part :=
  { s with
    orig.rehunts := s.orig.rehunts.filter (fun e => decide (e.call ≠ id))
    orig.request := request }

theorem rehunts_rehuntDropped (id : Nat) (request : Option Nat) (s : Part) :
    (rehuntDropped id request s).orig.rehunts.any (fun e => decide (e.call = id)) = false := by
  simp [rehuntDropped]

theorem tablesOk_rehuntDropped (h : TablesOk s) (request : Option Nat) : TablesOk (rehuntDropped id request s) :=
  { h with }

theorem unawaited_rehuntDropped (hu : ∀ c r, (ctl c s).extend = some r → r.call ≠ id) (request : Option Nat) :
    Unawaited id (rehuntDropped id request s) := ⟨hu, rehunts_rehuntDropped id request s⟩

/-- A release of a call with a re-hunt entry is the release that follows the entry's removal. -/
theorem takeRelease_dropsRehunt {why : Reason} (ha : (call id s).active = true) (hf : (call id s).released = false)
    (hu : ∀ c r, (ctl c s).extend = some r → r.call ≠ id)
    (hn : s.orig.rehunts.any (fun e => decide (e.call = id)) = true) :
    takeRelease id why s =
      takeRelease id why (rehuntDropped id (dropRehunt id (modCall id (Call.stopped why) s)).orig.request s) := by
  obtain ⟨v, hv⟩ : ∃ v, v = modCall id (Call.stopped why) s := ⟨_, rfl⟩
  have listed : ∃ x ∈ (modCall id (Call.stopped why) s).orig.rehunts, x.call = id := by
    simpa using List.any_eq_true.mp hn
  have dropped : dropRehunt id v = rehuntDropped id (dropRehunt id v).orig.request v := by
    rw [← hv] at listed
    rw [dropRehunt_of_listed listed]
    rfl
  rw [← hv]
  generalize (dropRehunt id v).orig.request = request at dropped
  have same : modCall id (Call.stopped why) (rehuntDropped id request s) = rehuntDropped id request v := hv ▸ rfl
  refine takeRelease_congr ha hf rfl ?_
  rw [same, ← hv, withdrawExtends_of_unawaited (s := v) (hv ▸ hu), dropped,
    withdrawExtends_of_unawaited (s := rehuntDropped id request v) (hv ▸ hu),
    dropRehunt_of_none (rehunts_rehuntDropped id request v)]

/-! ## RELEASE CALL (R101) -/

theorem releaseCallRequest_taken {tag id : Byte} (hl : id.toNat < 128) (ha : (call id.toNat s).active = true) :
    releaseCallRequest tag id s = takeRelease id.toNat .maintenance (reply .maint tag .done [] s) := by
  rw [releaseCallRequest, if_neg (show ¬ Config.calls ≤ id.toNat from Nat.not_le.mpr hl), if_neg (by simp [ha])]

/-- A RELEASE CALL that is not refused makes what the release taken behind its reply makes. -/
theorem makes_releaseCall {s : State} {tag id : Byte} {t : Part} (g : MaintTakes s.part) (hl : id.toNat < 128)
    (ha : (call id.toNat s.part).active = true)
    (ht : takeRelease id.toNat .maintenance (reply .maint tag .done [] s.part) = t) :
    Makes (.releaseCall tag id) s t := by
  show onPart (receiveMaint tag (releaseCallRequest tag id)) s = _
  rw [onPart, receiveMaint_of_takes s.part g, releaseCallRequest_taken hl ha, ht]

/-- Settles O13: the refusals in their order, and the release taken behind the reply, with what waits for the call
withdrawn first. -/
theorem releaseCall : Obligations.ReleaseCall := by
  intro s tag id g h
  obtain ⟨q, hq⟩ : ∃ q, q = reply .maint tag .done [] s.part := ⟨_, rfl⟩
  have answered : Answered .maint { tag := tag, code := .done } s.part q := hq ▸ answered_reply _ _ _ _ _
  have tables : TablesOk q := hq ▸ h.reply _ _ _ _
  have record : call id.toNat q = call id.toNat s.part := by rw [hq, call_reply]
  have extend : ∀ c, (ctl c q).extend = (ctl c s.part).extend := fun c => by rw [hq, ctl_reply_extend]
  have rehunts : q.orig.rehunts = s.part.orig.rehunts := by rw [hq, orig_reply]
  refine ⟨fun high => ?_, fun low idle => ?_, fun low free closed => ?_, fun low active fresh => ⟨?_, ?_⟩⟩
  · exact replies_of_reply rfl g (if_pos high)
  · refine replies_of_reply rfl g ?_
    rw [releaseCallRequest, if_neg (show ¬ Config.calls ≤ id.toNat from Nat.not_le.mpr low),
      if_pos (active_eq_false.mpr idle)]
  · have active := active_iff.mpr ⟨free, closed⟩
    refine ⟨q, answered, makes_releaseCall g low active (by rw [hq]), fun taken => ?_, fun fresh hu => ?_⟩
    · exact takeRelease_of_released (by rw [record]; exact taken)
    · exact hq ▸ takesRelease_reply h active fresh hu
  · intro c r hr hc ho hn
    rw [← extend c] at hr
    rw [← extend (otherCtl c)] at ho
    rw [← rehunts] at hn
    rw [← record] at active fresh
    obtain ⟨u, hu⟩ : ∃ u, u = extendWithdrawn c r q := ⟨_, rfl⟩
    have same : call id.toNat u = call id.toNat q := by rw [hu]; exact call_congr (calls_extendWithdrawn c r q) _
    refine ⟨q, u, takeRelease id.toNat .maintenance u, answered, hu ▸ answered_reply _ _ _ _ _, ?_, ?_⟩
    · refine takesRelease_takeRelease (hu ▸ ?_) ⟨same ▸ active, same ▸ fresh, hu ▸ unawaited_extendWithdrawn ho hn⟩ _
      exact ((low_modCtl (Low.refl q)).tablesOk tables).reply _ _ _ _
    · refine makes_releaseCall g low (record ▸ active) ?_
      rw [← hq, takeRelease_withdraws active fresh hr hc ho hn, hu]
  · intro hu hn
    have hu' : ∀ c r, (ctl c q).extend = some r → r.call ≠ id.toNat := fun c r hr => hu c r (by rwa [← extend c])
    rw [← rehunts] at hn
    rw [← record] at active fresh
    have dropped := takeRelease_dropsRehunt (why := .maintenance) active fresh hu' hn
    generalize (dropRehunt id.toNat _).orig.request = request at dropped
    have released := takesRelease_takeRelease (s := rehuntDropped id.toNat request q)
      (tablesOk_rehuntDropped tables request) ⟨active, fresh, unawaited_rehuntDropped hu' request⟩ .maintenance
    refine ⟨q, rehuntDropped id.toNat request q, _, answered, rfl, released, ?_⟩
    refine makes_releaseCall g low (record ▸ active) ?_
    rw [← hq, dropped]

end Sys2Proof.Machine
end

section
/-!
PROOFS. READ CALL and READ LINE (R106, R173): the refusals, and the summaries field by field (section 10.3).
-/

namespace Sys2Proof.Machine

variable {s : Part}

/-! ## Fields as section 10.3 lays them out, each beside the model's (R176) -/

theorem b8_toNat (x : Byte) : b8 x.toNat = x := by simp [b8]

/-- An optional field of one byte. -/
def byteOf (x : Option Nat) : Byte := match x with | some v => b8 v | none => 255

/-- An optional field of two bytes. -/
def wordOf (x : Option Nat) : List Byte := match x with | some v => b16 v | none => [255, 255]

theorem o8_eq (x : Option Nat) : o8 x = byteOf x := by cases x <;> rfl

theorem o16_eq (x : Option Nat) : o16 x = wordOf x := by cases x <;> rfl

/-- The kind and number of an origin. -/
def originBytes (x : Party) : List Byte := match x with | .line lt => [0] ++ b16 lt | .junction j => [1] ++ b16 j

theorem originBytes_eq (x : Party) : originBytes x = [b8 (partyCode x)] ++ b16 (partyNumber x) := by cases x <;> rfl

/-- The kind and number of a terminating side. -/
def termBytes (x : Option Party) : List Byte :=
  match x with
  | none => [0, 255, 255]
  | some (.line lt) => [1] ++ b16 lt
  | some (.junction j) => [2] ++ b16 j

theorem termBytes_eq (x : Option Party) : termBytes x = [(termFields x).1] ++ (termFields x).2 := by
  rcases x with _ | (_ | _) <;> rfl

/-- The ticks that a call timer has left. -/
def timerBytes (x : Option CallTimer) : List Byte :=
  match x with | some m => b16 (m.limit - m.count) | none => [255, 255]

theorem timerBytes_eq (x : Option CallTimer) : timerBytes x = o16 (x.map (fun t => t.limit - t.count)) := by
  cases x <;> rfl

/-- The ticks that a grace timer has left. -/
def graceBytes (x : Option (Nat × Nat)) : List Byte := match x with | some g => b16 (g.1 - g.2) | none => [255, 255]

theorem graceBytes_eq (x : Option (Nat × Nat)) : graceBytes x = o16 (x.map (fun g => g.1 - g.2)) := by cases x <;> rfl

/-- The coin context of a record. -/
def coinBytes (x : Option Coin) : List Byte :=
  match x with
  | none => [0, 0, 0, 0, 0, 255, 255]
  | some k => [1, b8 k.credit, b8 k.owed] ++ b16 k.deposits ++ graceBytes k.grace

theorem coinBytes_eq (x : Option Coin) :
    coinBytes x = [flag x.isSome, b8 ((x.map Coin.credit).getD 0), b8 ((x.map Coin.owed).getD 0)] ++
      b16 ((x.map Coin.deposits).getD 0) ++ o16 ((x.bind Coin.grace).map (fun g => g.1 - g.2)) := by
  cases x with
  | none => rfl
  | some k =>
    simp only [coinBytes, graceBytes_eq]
    rfl

/-! ## The call summary (R106) -/

theorem shownSet_fl (r : Call) : r.shownSet.fl = if r.reswitch then r.old.fl else r.set.fl := apply_ite ..

theorem shownSet_cord (r : Call) : r.shownSet.cord = if r.reswitch then r.old.cord else r.set.cord := apply_ite ..

/-- The call summary of a record with an origin, field by field. -/
theorem callSummary_eq {id : Byte} {r : Call} {x : Party} (hr : call id.toNat s = r) (hx : r.origin = some x) :
    callSummary id.toNat s =
      [id, b8 r.state.code, b8 (ctlCode r.owner)] ++ originBytes x ++
        wordOf (if r.reswitch then r.old.fl else r.set.fl) ++
        [byteOf (if r.reswitch then r.old.cord else r.set.cord), (if r.reswitch then byteOf r.new.cord else 255),
          flag r.reswitch] ++
        termBytes r.term ++ wordOf (if r.reswitch then r.new.tfl else r.set.tfl) ++
        [byteOf r.band, b8 (timerCode r.timer)] ++ timerBytes r.timer ++ b16 r.units ++ b24 r.accum ++
        [flag r.degraded] ++ coinBytes r.coin ++
        [flag r.relPending, b8 (reasonCode r.reason), b8 r.digits.length] ++ r.digits.map b8 := by
  have newCord : (if r.reswitch then byteOf r.new.cord else 255) = o8 (if r.reswitch then r.new.cord else none) := by
    cases r.reswitch
    · rfl
    · exact (o8_eq _).symm
  rw [newCord]
  simp only [callSummary, hr, hx, Option.getD_some, shownSet_fl, shownSet_cord, Call.termFl, b8_toNat,
    originBytes_eq, termBytes_eq, timerBytes_eq, coinBytes_eq, ← o8_eq, ← o16_eq, List.append_assoc,
    List.cons_append, List.nil_append]

theorem length_callSummary (id : Nat) (s : Part) : (callSummary id s).length = 36 + (call id s).digits.length := by
  have two : ∀ x : Option Party, (termFields x).2.length = 2 := fun x => by cases x <;> rfl
  simp only [callSummary, b16, b24, o16, List.length_append, List.length_cons, List.length_nil, List.length_map, two]

theorem take_callSummary (id : Byte) (s : Part) :
    (callSummary id.toNat s).take 3 =
      [id, b8 (call id.toNat s).state.code, b8 (ctlCode (call id.toNat s).owner)] := by
  simp [callSummary, b8_toNat]

/-! ## The line summary (R173) -/

/-- The number of the point that speaks for a line (R23). -/
def speaker (lt : Nat) (s : Part) : Nat :=
  match (line lt s).sup with
  | .inCall id =>
    let c := call id s
    if c.lineSpeaks = true ∧ c.origin = some (.line lt) then lt
    else if c.term = some (.line lt) then
      match (if c.reswitch then c.new.cord else c.set.cord) with
      | some cord => 2144 + cord
      | none => lt
    else
      match c.set.cord with
      | some cord => 2048 + cord
      | none => lt
  | _ => lt

theorem speakingPoint_eq (lt : Nat) (s : Part) : speakingPoint lt s = speaker lt s := by
  unfold speakingPoint speaker
  cases hs : (line lt s).sup with
  | inCall id => simp only [linePointSpeaks, hs, Bool.and_eq_true, decide_eq_true_eq] <;> rfl
  | idle | originating | parked => rfl

/-- The call of a line that is in one. -/
def callByte (x : LineSup) : Byte := match x with | .inCall id => b8 id | _ => 255

/-- The class pending for a line. -/
def classByte (x : Option LineClass) : Byte := match x with | some k => b8 k.code | none => 255

theorem classByte_eq (x : Option LineClass) : classByte x = o8 (x.map LineClass.code) := by cases x <;> rfl

/-- The line summary, field by field. -/
theorem lineSummary_eq (lt : Nat) (s : Part) :
    lineSummary lt s =
      b16 lt ++
        [b8 (line lt s).cls.code, classByte (line lt s).pendCls,
          b8 (line lt s).admin.code, b8 (line lt s).sup.code, callByte (line lt s).sup, flag (line lt s).marked,
          flag (s.orig.queue.any (fun w => decide (w.origin = .line lt)))] ++
        b16 (speaker lt s) ++ [b8 (point (speaker lt s) s).accepted.code] ++ b16 (point (speaker lt s) s).duration ++
        [b8 (eventCode (point (speaker lt s) s).pending)] := by
  unfold lineSummary
  dsimp only
  rw [speakingPoint_eq, classByte_eq]
  cases (line lt s).sup <;> rfl

theorem length_lineSummary (lt : Nat) (s : Part) : (lineSummary lt s).length = 15 := by
  simp only [lineSummary, b16, List.length_append, List.length_cons, List.length_nil]

theorem take_lineSummary (lt : Nat) (s : Part) :
    (lineSummary lt s).take 6 =
      b16 lt ++ [b8 (line lt s).cls.code, o8 ((line lt s).pendCls.map LineClass.code), b8 (line lt s).admin.code,
        b8 (line lt s).sup.code] := rfl

/-! ## The requests -/

theorem callSummary_alive (id : Nat) (c : Ctl) (s : Part) : callSummary id (alive c s) = callSummary id s := by
  cases c <;> rfl

theorem lineSummary_alive (lt : Nat) (c : Ctl) (s : Part) : lineSummary lt (alive c s) = lineSummary lt s := by
  cases c <;> rfl

theorem readCallRequest_refused {c : Ctl} {tag id : Byte} {code : ResultCode}
    (h : callRefusal c id.toNat (fun r => decide (r.state = .free)) s = some code) :
    readCallRequest c tag id s = reply (.ctl c) tag code [] s := by
  simp [readCallRequest, h]

theorem readCallRequest_taken {c : Ctl} {tag id : Byte}
    (h : callRefusal c id.toNat (fun r => decide (r.state = .free)) s = none) :
    readCallRequest c tag id s = reply (.ctl c) tag .done (callSummary id.toNat s) s := by
  simp [readCallRequest, h]

/-- Settles O29: the requests answer with their refusals or the summaries, which `callSummary_eq` and `lineSummary_eq`
give field by field. -/
theorem readCallAndLine : Obligations.ReadCallAndLine := by
  intro s c tag id n g
  have refused : ∀ code, callRefusal c id.toNat (fun r => decide (r.state = .free)) (alive c s.part) = some code →
      Replies (.readCall c tag id) s (.ctl c) { tag := tag, code := code } (alive c s.part) := fun code hc =>
    replies_of_ctlReply rfl g (readCallRequest_refused hc)
  refine ⟨fun high => refused _ (callRefusal_noSuch high), fun low free => refused _ (callRefusal_badState low ?_),
    fun low used other => refused _ (callRefusal_notOwner low ?_ (by rwa [call_alive])), fun low used own => ?_,
    length_callSummary _ _, take_callSummary _ _, fun high => replies_of_ctlReply rfl g (if_pos high),
    fun low => ?_, length_lineSummary _ _, take_lineSummary _ _, fun x hx => callSummary_eq rfl hx, lineSummary_eq _ _,
    rfl, rfl, rfl, fun _ _ => rfl, fun _ => rfl, rfl, rfl⟩
  · rw [call_alive]
    exact decide_eq_true free
  · rw [call_alive]
    exact decide_eq_false used
  · have owner : (call id.toNat (alive c s.part)).owner = some c := by rwa [call_alive]
    have good : decide ((call id.toNat (alive c s.part)).state = .free) = false := by
      rw [call_alive]
      exact decide_eq_false used
    refine replies_of_ctlReply rfl g ?_
    rw [readCallRequest_taken (callRefusal_none (bad := fun r => decide (r.state = .free)) low good owner),
      callSummary_alive]
  · refine replies_of_ctlReply rfl g ?_
    rw [readLineRequest, if_neg (show ¬ Config.lines ≤ n.toNat from Nat.not_le.mpr low), lineSummary_alive]

end Sys2Proof.Machine
end

section
/-!
SUPPORT. The answer, the called clear and the re-answer (R94 to R96): a notice to the owner with the points of its call
armed afresh, and the answer units charged to a meter (R112, R115).
-/

namespace Sys2Proof.Machine

variable {s t : Part} {id : Nat} {c : Ctl}

/-! ## A notice to the owner, and the points of its call armed afresh (R22, R178) -/

theorem TablesOk.rearmCall (h : TablesOk s) (id : Nat) : TablesOk (rearmCall id s) :=
  (low_rearmCall (Low.refl s)).tablesOk h

/-- A junction's point that does not show OPEN and has no event pending is left as it is by an arming of any point. -/
theorem point_rearm_junction {j : Nat} (h : TablesOk s) (ha : (point (2336 + j) s).accepted ≠ .open_)
    (hp : (point (2336 + j) s).pending = none) (q : Nat) : point (2336 + j) (rearm q s) = point (2336 + j) s := by
  by_cases hq : 2336 + j = q
  · rw [← hq, rearm_self h.points ((armed_junction_of_ne ha).trans hp.symm)]
  · exact point_modPoint_of_ne hq _

theorem point_rearmCall_junction {j : Nat} (h : TablesOk s) (ha : (point (2336 + j) s).accepted ≠ .open_)
    (hp : (point (2336 + j) s).pending = none) (id : Nat) :
    point (2336 + j) (rearmCall id s) = point (2336 + j) s := by
  unfold rearmCall
  generalize callPoints (call id s) = ps
  induction ps generalizing s with
  | nil => rfl
  | cons q ps ih =>
    have e := point_rearm_junction h ha hp q
    rw [List.foldl_cons, ih (s := rearm q s) ((low_rearm (Low.refl s)).tablesOk h) (by rwa [e]) (by rwa [e]), e]

/-- A plain notice of a call has entered its owner's queue, and the events of the call's points have been armed
afresh. -/
structure Announced (id : Nat) (c : Ctl) (k : CallKind) (s t : Part) : Prop where
  tables : TablesOk t
  told : noticesDue (.ctl c) t = noticesDue (.ctl c) s ++ [.call k id [b8 id]]
  points : ∀ p, p ∉ callPoints (call id s) → point p t = point p s
  junctions : ∀ j, (point (2336 + j) s).accepted ≠ .open_ → (point (2336 + j) s).pending = none →
    point (2336 + j) t = point (2336 + j) s
  frame : t = { s with scan.points := t.scan.points, a := t.a, b := t.b }

theorem announced_rearmCall {k : CallKind} (h : TablesOk s) (g : OwnerTakes id c s) (hk : k ≠ .cleared)
    (hd : noticeData id k [b8 id] s = [b8 id]) : Announced id c k s (rearmCall id (raisePlain id k s)) := by
  obtain ⟨u, hu⟩ : ∃ u, u = enter (.ctl c) (.call k id [b8 id]) s := ⟨_, rfl⟩
  have tables : TablesOk u := hu ▸ h.enter _ _
  have raised : raisePlain id k s = u := by rw [raisePlain, raiseCall_enters g hk, hd, hu]
  have record : call id u = call id s := by rw [hu, call_enter]
  have entry : ∀ p, point p u = point p s := fun p => by rw [hu, point_enter]
  obtain ⟨only, kept⟩ := rearmCall_points id u
  rw [raised]
  refine ⟨tables.rearmCall id, ?_, fun p hp => ?_, fun j ha hn => ?_, ?_⟩
  · rw [noticesDue_congr (s := u) (by rw [only]; cases c <;> rfl), hu, noticesDue_enter]
  · rw [kept p (by rwa [record]), entry]
  · rw [point_rearmCall_junction tables (by rwa [entry]) (by rwa [entry]), entry]
  · have enters : u = { s with a := u.a, b := u.b } := by rw [hu]; cases c <;> rfl
    rw [only, enters]

/-- A change of a record's state that is told to its owner with a plain notice: the record, the others, the notice and
the points. -/
structure Turned (id : Nat) (c : Ctl) (k : CallKind) (f : Call → Call) (s t : Part) : Prop where
  tables : TablesOk t
  record : call id t = f (call id s)
  others : ∀ x, x ≠ id → call x t = call x s
  told : noticesDue (.ctl c) t = noticesDue (.ctl c) s ++ [.call k id [b8 id]]
  points : ∀ p, p ∉ callPoints (call id s) → point p t = point p s
  junctions : ∀ j, (point (2336 + j) s).accepted ≠ .open_ → (point (2336 + j) s).pending = none →
    point (2336 + j) t = point (2336 + j) s
  frame : t = { s with calls := t.calls, scan.points := t.scan.points, a := t.a, b := t.b }

theorem turned_of_announced {k : CallKind} {f : Call → Call} (h : TablesOk s)
    (hp : callPoints (f (call id s)) = callPoints (call id s)) (g : Announced id c k (modCall id f s) t) :
    Turned id c k f s t := by
  have record : call id (modCall id f s) = f (call id s) := call_modCall h id f
  have calls : ∀ x, call x t = call x (modCall id f s) := fun x => call_congr (by rw [g.frame]) x
  refine ⟨g.tables, (calls id).trans record, fun x hx => ?_, ?_, fun p hn => ?_, g.junctions, ?_⟩
  · rw [calls, call_modCall_of_ne hx]
  · rw [g.told, noticesDue_congr (s := s) (io_modCall _ _ _)]
  · exact g.points p (by rwa [record, hp])
  · rw [g.frame]
    rfl

/-- An owner takes the notices of a call whose record has changed, but for its owner and its pending notices. -/
theorem OwnerTakes.modCall {f : Call → Call} (g : OwnerTakes id c s) (h : TablesOk s)
    (ho : (f (call id s)).owner = (call id s).owner) (hp : (f (call id s)).pend = (call id s).pend) :
    OwnerTakes id c (modCall id f s) := by
  have record := call_modCall h id f
  exact ⟨by rw [record, ho, g.owner], by rw [record, hp, g.pend], by rw [io_modCall]; exact g.room⟩

/-! ## The called clear and the re-answer (R95, R96) -/

/-- The record of a call whose called party has cleared. -/
def Call.clearedCalled (limit : Nat) (r : Call) : Call :=
  { r with state := .calledCleared, timer := some { kind := .hold, limit := limit } }

/-- The record of a call whose called party has answered again. -/
def Call.reAnswered (r : Call) : Call := { r with state := .answered, timer := none }

theorem released_of_state {r : Call} (hr : r.relPending = false) (hs : r.state ≠ .releasing) (hc : r.state ≠ .closed) :
    r.released = false := by simp [Call.released, hr, hs, hc]

theorem calledClear_turned (h : TablesOk s) (g : OwnerTakes id c s) (hs : (call id s).state = .answered)
    (hr : (call id s).relPending = false) (hh : s.timers.hold ≠ 0) :
    Turned id c .calledCleared (Call.clearedCalled (10 * s.timers.hold)) s (calledClear id s) := by
  obtain ⟨u, hu⟩ : ∃ u, u = modCall id (Call.clearedCalled (10 * s.timers.hold)) s := ⟨_, rfl⟩
  have taken : calledClear id s = rearmCall id (raisePlain id .calledCleared u) := by
    have unreleased := released_of_state hr (by simp [hs]) (by simp [hs])
    unfold calledClear
    dsimp only
    rw [if_neg (by simp [hs, unreleased]), if_neg hh, startTimer, modCall_modCall _ _ _ h.calls, hu]
    rfl
  rw [taken, hu]
  exact turned_of_announced h rfl (announced_rearmCall (h.modCall _ _) (g.modCall h rfl rfl) (by decide) rfl)

theorem reAnswer_turned (h : TablesOk s) (g : OwnerTakes id c s) (hs : (call id s).state = .calledCleared)
    (hr : (call id s).relPending = false) : Turned id c .answered Call.reAnswered s (reAnswer id s) := by
  have taken : reAnswer id s = rearmCall id (raisePlain id .answered (modCall id Call.reAnswered s)) := by
    have unreleased := released_of_state hr (by simp [hs]) (by simp [hs])
    unfold reAnswer
    dsimp only
    rw [if_neg (by simp [hs, unreleased])]
    rfl
  rw [taken]
  exact turned_of_announced h rfl (announced_rearmCall (h.modCall _ _) (g.modCall h rfl rfl) (by decide) rfl)

theorem calledClear_releases (hs : (call id s).state = .answered) (hr : (call id s).released = false)
    (hh : s.timers.hold = 0) : calledClear id s = takeRelease id .calledCleared s := by
  simp [calledClear, hs, hr, hh]

/-! ## The answer units (R112, R115) -/

/-- The dirty list once a line's entry has been raised by `n` units (R140). -/
def dirtyWith (lt n : Nat) (s : Part) : List Nat :=
  if n = 0 ∨ lt ∈ s.meters.dirty ∨ (meter lt s).nvFault = true then s.meters.dirty else s.meters.dirty ++ [lt]

/-- One unit added to a meter that does not wrap, outside URGENT and with no save in progress. -/
theorem addUnits_one {lt : Nat} (h : TablesOk s) (hs : s.meters.save = none) (hb : s.supply.battery = .normal)
    (hn : (meter lt s).count + 1 < 10000000) :
    addUnits lt 1 s =
      modMeters (fun m => { m with dirty := dirtyWith lt 1 s }) (modMeter lt (fun e => { e with count := e.count + 1 }) s) := by
  obtain ⟨u, hu⟩ : ∃ u, u = modMeter lt (fun e => { e with count := e.count + 1 }) s := ⟨_, rfl⟩
  have entry : meter lt u = { meter lt s with count := (meter lt s).count + 1 } := hu ▸ meter_modMeter h lt _
  have dirty : u.meters.dirty = s.meters.dirty := by rw [hu]; rfl
  have pace : urgent u = false := by rw [hu]; simp [urgent, hb]
  have raised : addUnits lt 1 s = joinDirty lt u := by
    rw [addUnits, if_neg (by decide)]
    dsimp only
    rw [if_pos (show _ < Config.meterTop from hn), hu]
    exact congrArg (joinDirty lt) (modMeter_congr rfl)
  have joined : (if lt ∉ s.meters.dirty ∧ (meter lt s).nvFault = false then s.meters.dirty ++ [lt]
      else s.meters.dirty) = dirtyWith lt 1 s := by
    unfold dirtyWith
    by_cases listed : lt ∈ s.meters.dirty <;> cases (meter lt s).nvFault <;> simp [listed]
  rw [raised, joinDirty_eq (by rw [hu]; exact hs) pace, ← hu, dirty, entry, joined]

/-- A call that charges its units to the meter of a line: it has no coin context and has not been released, outside
URGENT and with no save in progress. -/
structure Charges (id lt : Nat) (s : Part) : Prop where
  tables : TablesOk s
  unreleased : (call id s).released = false
  noCoin : (call id s).coin = none
  line : (call id s).charged = some lt
  battery : s.supply.battery = .normal
  noSave : s.meters.save = none

/-- Units charged by a call to a meter. -/
structure Charged (id lt n : Nat) (s t : Part) : Prop where
  tables : TablesOk t
  record : call id t = { call id s with units := (call id s).units + n }
  others : ∀ x, x ≠ id → call x t = call x s
  meter : meter lt t = { meter lt s with count := (meter lt s).count + n }
  meters : ∀ x, x ≠ lt → Machine.meter x t = Machine.meter x s
  dirty : t.meters.dirty = dirtyWith lt n s
  frame : t = { s with calls := t.calls, meters.entries := t.meters.entries, meters.dirty := t.meters.dirty }

theorem charged_chargeUnit {lt : Nat} (g : Charges id lt s) (hu : (call id s).units + 1 ≤ 65535)
    (hm : (meter lt s).count + 1 < 10000000) : Charged id lt 1 s (chargeUnit id s) := by
  obtain ⟨u, hu'⟩ : ∃ u, u = modCall id (fun r => { r with units := min (r.units + 1) Config.unitsTop }) s := ⟨_, rfl⟩
  have tables : TablesOk u := hu' ▸ g.tables.modCall _ _
  have record : call id u = { call id s with units := (call id s).units + 1 } := by
    rw [hu', call_modCall g.tables, min_eq_left (show _ ≤ Config.unitsTop from hu)]
  have delivered : chargeUnit id s = addUnits lt 1 u := by
    unfold chargeUnit
    dsimp only
    rw [← hu', record]
    simp only [g.noCoin, g.line]
  have entry : ∀ x, Machine.meter x u = Machine.meter x s := fun x => by rw [hu', meter_modCall]
  rw [delivered, addUnits_one tables (by rw [hu']; exact g.noSave) (by rw [hu']; exact g.battery) (by rwa [entry])]
  have raised : ∀ x f, Machine.meter x (modMeters (fun m => { m with dirty := dirtyWith lt 1 u }) (modMeter lt f u)) =
      Machine.meter x (modMeter lt f u) := fun x f => meter_congr rfl x
  refine ⟨?_, ?_, fun x hx => ?_, ?_, fun x hx => ?_, ?_, ?_⟩
  · exact (base_modMeters_same (Base.refl _) rfl rfl rfl rfl rfl).tablesOk { tables with meters := Table.wf_put tables.meters }
  · exact record
  · show call x u = _
    rw [hu', call_modCall_of_ne hx]
  · rw [raised, meter_modMeter tables, entry]
  · rw [raised, meter_modMeter_of_ne hx, entry]
  · rw [dirtyWith, dirtyWith, entry, hu']
    rfl
  · rw [hu']
    rfl

theorem Charges.after {lt n : Nat} (g : Charges id lt s) (d : Charged id lt n s t) : Charges id lt t where
  tables := d.tables
  unreleased := by rw [d.record]; exact g.unreleased
  noCoin := by rw [d.record]; exact g.noCoin
  line := by rw [d.record]; exact g.line
  battery := by rw [d.frame]; exact g.battery
  noSave := by rw [d.frame]; exact g.noSave

theorem Charged.trans {lt n : Nat} {u : Part} (g : Charged id lt 1 s t) (d : Charged id lt n t u) :
    Charged id lt (n + 1) s u where
  tables := d.tables
  record := by rw [d.record, g.record]; simp only [Nat.add_assoc, Nat.add_comm 1]
  others x hx := by rw [d.others x hx, g.others x hx]
  meter := by rw [d.meter, g.meter]; simp only [Nat.add_assoc, Nat.add_comm 1]
  meters x hx := by rw [d.meters x hx, g.meters x hx]
  dirty := by
    rw [d.dirty, dirtyWith, dirtyWith, g.dirty, g.meter, dirtyWith]
    by_cases known : lt ∈ s.meters.dirty ∨ (Machine.meter lt s).nvFault = true
    · simp [known]
    · simp [known]
  frame := by rw [d.frame, g.frame]

theorem charged_chargeUnits {lt n : Nat} (g : Charges id lt s) (hu : (call id s).units + n ≤ 65535)
    (hm : (meter lt s).count + n < 10000000) : Charged id lt n s (chargeUnits id n s) := by
  induction n generalizing s with
  | zero => exact ⟨g.tables, rfl, fun _ _ => rfl, rfl, fun _ _ => rfl, (if_pos (Or.inl rfl)).symm, rfl⟩
  | succ n ih =>
    have first := charged_chargeUnit g (by omega) (by omega)
    have again := g.after first
    have rest := ih again (by rw [first.record]; dsimp only; omega) (by rw [first.meter]; dsimp only; omega)
    rw [chargeUnits, g.unreleased]
    exact first.trans rest

/-! ## An answer's charging and its notice (R94, R112) -/

/-- Charging has started at an answer, with `n` answer units and an increment, and ANSWERED has been queued. -/
structure AnswerTold (id lt n inc : Nat) (c : Ctl) (s t : Part) : Prop where
  tables : TablesOk t
  record : call id t =
    { call id s with accum := 0, incr := inc, units := (call id s).units + n, charging := true }
  others : ∀ x, x ≠ id → call x t = call x s
  meter : meter lt t = { meter lt s with count := (meter lt s).count + n }
  meters : ∀ x, x ≠ lt → Machine.meter x t = Machine.meter x s
  dirty : t.meters.dirty = dirtyWith lt n s
  told : noticesDue (.ctl c) t = noticesDue (.ctl c) s ++ [.call .answered id [b8 id]]
  points : ∀ p, p ∉ callPoints (call id s) → point p t = point p s
  junctions : ∀ j, (point (2336 + j) s).accepted ≠ .open_ → (point (2336 + j) s).pending = none →
    point (2336 + j) t = point (2336 + j) s
  frame : t = { s with
    calls := t.calls, scan.points := t.scan.points, meters.entries := t.meters.entries
    meters.dirty := t.meters.dirty, a := t.a, b := t.b }

theorem answerTold {lt n inc band : Nat} (g : Charges id lt s) (o : OwnerTakes id c s)
    (hb : (call id s).band = some band) (hn : (tariffOf band s).answerUnits = n) (hi : bandIncrement band s = inc)
    (hu : (call id s).units + n ≤ 65535) (hm : (meter lt s).count + n < 10000000) :
    AnswerTold id lt n inc c s (rearmCall id (raisePlain id .answered (startCharging id s))) := by
  obtain ⟨u, hu'⟩ : ∃ u, u = modCall id (fun r => { r with accum := 0, incr := inc }) s := ⟨_, rfl⟩
  have started : call id u = { call id s with accum := 0, incr := inc } := by rw [hu', call_modCall g.tables]
  have charges : Charges id lt u :=
    ⟨hu' ▸ g.tables.modCall _ _, by rw [started]; exact g.unreleased, by rw [started]; exact g.noCoin,
      by rw [started]; exact g.line, by rw [hu']; exact g.battery, by rw [hu']; exact g.noSave⟩
  have counts : ∀ x, Machine.meter x u = Machine.meter x s := fun x => by rw [hu', meter_modCall]
  have charged := charged_chargeUnits (n := n) charges (by rw [started]; exact hu) (by rw [counts]; exact hm)
  have still : (call id (chargeUnits id n u)).released = false := by
    rw [charged.record]
    exact charges.unreleased
  have joins : startCharging id s = modCall id (fun r => { r with charging := true }) (chargeUnits id n u) := by
    unfold startCharging
    dsimp only
    rw [hb, Option.getD_some, hi, ← hu', show (tariffOf band u).answerUnits = n by rw [hu']; exact hn, still]
    rfl
  generalize chargeUnits id n u = v at charged joins
  obtain ⟨w, hw⟩ : ∃ w, w = modCall id (fun r => { r with charging := true }) v := ⟨_, rfl⟩
  have record : call id w =
      { call id s with accum := 0, incr := inc, units := (call id s).units + n, charging := true } := by
    rw [hw, call_modCall charged.tables, charged.record, started]
  have frame : w = { s with
      calls := w.calls, meters.entries := w.meters.entries, meters.dirty := w.meters.dirty } := by
    rw [hw, charged.frame, hu']
    rfl
  have io : io (.ctl c) w = io (.ctl c) s := by rw [frame]; cases c <;> rfl
  have owner : OwnerTakes id c w :=
    ⟨by rw [record]; exact o.owner, by rw [record]; exact o.pend, by rw [io]; exact o.room⟩
  have told := announced_rearmCall (k := .answered) (hw ▸ charged.tables.modCall _ _) owner (by decide) rfl
  rw [joins, ← hw]
  generalize rearmCall id (raisePlain id .answered w) = t at told
  have calls : ∀ x, call x t = call x w := fun x => call_congr (by rw [told.frame]) x
  have entries : ∀ x, Machine.meter x t = Machine.meter x v := fun x =>
    (meter_congr (s := w) (by rw [told.frame]) x).trans (by rw [hw, meter_modCall])
  have points : ∀ p, point p w = point p s := fun p => point_congr (by rw [frame]) p
  have same : callPoints (call id w) = callPoints (call id s) := by rw [record]; rfl
  refine ⟨told.tables, (calls id).trans record, fun x hx => ?_, ?_, fun x hx => ?_, ?_, ?_, fun p hp => ?_,
    fun j ha hp => ?_, ?_⟩
  · rw [calls, hw, call_modCall_of_ne hx, charged.others x hx, hu', call_modCall_of_ne hx]
  · rw [entries, charged.meter, counts]
  · rw [entries, charged.meters x hx, counts]
  · rw [told.frame, hw]
    exact charged.dirty.trans (by rw [dirtyWith, dirtyWith, counts, hu']; rfl)
  · rw [told.told, noticesDue_congr io]
  · rw [told.points p (by rwa [same]), points]
  · rw [told.junctions j (by rwa [points]) (by rwa [points]), points]
  · rw [told.frame, frame]

/-! ## The two answers of a line's call (R71, R94) -/

/-- The record of a call whose called party has answered, with the answer orders that `op` waits for. -/
def Call.answeredBy (op : Operation) (claim : Nat) (ring : Bool) (r : Call) : Call :=
  { r with state := .answered, answered := true, timer := none, op := op, claim := claim, set.ring := ring }

/-- The answer of a call of a line places nothing but RING OFF (R71, R94). -/
theorem answerOrders_line {lt : Nat} (ho : (call id s).origin = some (.line lt)) :
    answerOrders id s = if (call id s).state = .ringing then ringOff id s else s := by
  have none : (call id s).answerPlaces = 0 := by simp [Call.answerPlaces, ho]
  unfold answerOrders
  dsimp only
  rw [none]
  split <;> rfl

theorem ringOff_rings {cord : Nat} (hc : (call id s).set.cord = some cord) (hg : (call id s).set.ring = true) :
    ringOff id s = place id (.ringOff cord) (modCall id (fun r => { r with set.ring := false }) s) := by
  simp [ringOff, hc, hg]

/-- The answer of a ringing call of a line, before its charging: RING OFF is placed (R71). -/
theorem answer_ringing {lt cord : Nat} (h : TablesOk s) (hs : (call id s).state = .ringing)
    (hr : (call id s).relPending = false) (ho : (call id s).origin = some (.line lt))
    (hc : (call id s).set.cord = some cord) (hg : (call id s).set.ring = true) :
    answer id s = rearmCall id (raisePlain id .answered (startCharging id
      (place id (.ringOff cord) (modCall id (Call.answeredBy .answer (call id s).claim false) s)))) := by
  obtain ⟨u, hu⟩ : ∃ u, u = modCall id (fun r => { r with timer := none, op := .answer }) s := ⟨_, rfl⟩
  have record : call id u = { call id s with timer := none, op := .answer } := by rw [hu, call_modCall h]
  have rung : answerOrders id u = place id (.ringOff cord) (modCall id (fun r => { r with set.ring := false }) u) := by
    rw [answerOrders_line (by rw [record]; exact ho), if_pos (by rw [record]; exact hs),
      ringOff_rings (by rw [record]; exact hc) (by rw [record]; exact hg)]
  have unreleased := released_of_state hr (by simp [hs]) (by simp [hs])
  have waits : ∀ t, (ordersOf id (place id (.ringOff cord) t)).isEmpty = false := fun t => by
    simp [ordersOf, place]
  unfold answer
  dsimp only
  rw [if_neg (by simp [hs, unreleased]), ← hu, rung, modCall_place, if_neg (by rw [waits]; decide), hu,
    modCall_modCall _ _ _ h.calls, modCall_modCall _ _ _ h.calls]
  rfl

/-- The answer of a call of a line that awaits the answer of its junction, before its charging: no order is placed. -/
theorem answer_awaiting {lt : Nat} (h : TablesOk s) (hs : (call id s).state = .awaitingAnswer)
    (hr : (call id s).relPending = false) (ho : (call id s).origin = some (.line lt)) (hn : ordersOf id s = []) :
    answer id s = rearmCall id (raisePlain id .answered (startCharging id
      (modCall id (Call.answeredBy .idle 0 (call id s).set.ring) s))) := by
  obtain ⟨u, hu⟩ : ∃ u, u = modCall id (fun r => { r with timer := none, op := .answer }) s := ⟨_, rfl⟩
  have record : call id u = { call id s with timer := none, op := .answer } := by rw [hu, call_modCall h]
  have quiet : answerOrders id u = u := by
    rw [answerOrders_line (by rw [record]; exact ho), if_neg (by rw [record]; simp [hs])]
  have unreleased := released_of_state hr (by simp [hs]) (by simp [hs])
  have unwaited : ∀ f g, (ordersOf id (modCall id f (modCall id g s))).isEmpty = true := fun f g => by
    show (ordersOf id s).isEmpty = true
    rw [hn, List.isEmpty_nil]
  unfold answer
  dsimp only
  rw [if_neg (by simp [hs, unreleased]), ← hu, quiet, hu, if_pos (unwaited _ _), setClaim,
    modCall_modCall _ _ _ h.calls, modCall_modCall _ _ _ h.calls, modCall_modCall _ _ _ h.calls]
  rfl

end Sys2Proof.Machine
end

section
/-!
PROOFS. The answer, the called clear and the re-answer (R37, R94 to R97).
-/

namespace Sys2Proof.Machine

variable {s t : Part} {id : Nat} {c : Ctl}

/-! ## CALLED_CLEAR (R95) -/

theorem OwnerTakes.modPoint (g : OwnerTakes id c s) (p : Nat) (f : ScanEntry → ScanEntry) :
    OwnerTakes id c (modPoint p f s) := ⟨g.owner, g.pend, by rw [io_modPoint]; exact g.room⟩

/-- A change told after the entry of one point has been written, said of the state before that write. -/
theorem Turned.afterPoint {k : CallKind} {f : Call → Call} {p : Nat} {e : ScanEntry → ScanEntry}
    (d : Turned id c k f (modPoint p e s) t) :
    call id t = f (call id s) ∧ (∀ x, x ≠ id → call x t = call x s) ∧
      noticesDue (.ctl c) t = noticesDue (.ctl c) s ++ [.call k id [b8 id]] ∧
      (∀ q, q ≠ p → q ∉ callPoints (call id s) → point q t = point q s) ∧
      t = { s with calls := t.calls, scan.points := t.scan.points, a := t.a, b := t.b } := by
  refine ⟨d.record, d.others, ?_, fun q hq hn => ?_, d.frame⟩
  · rw [d.told, noticesDue_congr (io_modPoint _ _ _)]
  · rw [d.points q hn, point_modPoint_of_ne hq]

theorem takeEvent_calledClear {cord : Nat} (hp : cord < 96) (hc : callOfElem (.cord cord) s = some id) :
    takeEvent (2144 + cord) .calledClear s = calledClear id s := by
  simp [takeEvent, pointKind_tEnd hp, hc]

/-- CALLED_CLEAR that is due is the called clear of the call that the cord's record names. -/
theorem produceEvent_calledClear {cord : Nat} (hp : cord < 96) (hb : s.supply.battery ≠ .rideThrough)
    (hc : callOfElem (.cord cord) s = some id) (hev : (point (2144 + cord) s).pending = some .calledClear)
    (h50 : 50 ≤ (point (2144 + cord) s).duration) :
    produceEvent (2144 + cord) .calledClear s = calledClear id (eventGone (2144 + cord) s) := by
  rw [produceEvent_due hev h50 (by decide) hb]
  exact takeEvent_calledClear hp hc

/-! ## The answer of a line's call (R71, R94, R112) -/

/-- A call of line `lt` whose answer charges `n` units of band `band`: its owner takes a notice, it has no coin context,
its meter does not wrap, the battery is NORMAL, and no save is in progress. -/
structure LineAnswers (id lt band n : Nat) (c : Ctl) (s : Part) : Prop where
  tables : TablesOk s
  quiet : (call id s).relPending = false
  owner : OwnerTakes id c s
  origin : (call id s).origin = some (.line lt)
  noCoin : (call id s).coin = none
  line : (call id s).charged = some lt
  inBand : (call id s).band = some band
  battery : s.supply.battery = .normal
  noSave : s.meters.save = none
  answerUnits : (tariffOf band s).answerUnits = n
  units : (call id s).units + n ≤ 65535
  count : (meter lt s).count + n < 10000000

/-- The record at an answer is `f` of the former one with its charging started, the orders `sent` have been placed, and
the answer has been charged and told. -/
structure LineAnswered (id lt n inc : Nat) (c : Ctl) (f : Call → Call) (sent : List Order) (s t : Part) : Prop where
  tables : TablesOk t
  record : call id t =
    { f (call id s) with accum := 0, incr := inc, units := (call id s).units + n, charging := true }
  others : ∀ x, x ≠ id → call x t = call x s
  meter : meter lt t = { meter lt s with count := (meter lt s).count + n }
  meters : ∀ x, x ≠ lt → Machine.meter x t = Machine.meter x s
  dirty : t.meters.dirty = dirtyWith lt n s
  told : noticesDue (.ctl c) t = noticesDue (.ctl c) s ++ [.call .answered id [b8 id]]
  points : ∀ p, p ∉ callPoints (call id s) → point p t = point p s
  junctions : ∀ j, (point (2336 + j) s).accepted ≠ .open_ → (point (2336 + j) s).pending = none →
    point (2336 + j) t = point (2336 + j) s
  frame : t = { s with
    calls := t.calls, scan.points := t.scan.points, orders := s.orders ++ sent, serial := s.serial + sent.length
    meters.entries := t.meters.entries, meters.dirty := t.meters.dirty, a := t.a, b := t.b }

theorem LineAnswers.answered {lt band n claim : Nat} {op : Operation} {ring : Bool} {sent : List Order} {u : Part}
    (g : LineAnswers id lt band n c s) (hu : u = { modCall id (Call.answeredBy op claim ring) s with
      orders := s.orders ++ sent, serial := s.serial + sent.length }) :
    LineAnswered id lt n (bandIncrement band s) c (Call.answeredBy op claim ring) sent s
      (rearmCall id (raisePlain id .answered (startCharging id u))) := by
  have record : call id u = Call.answeredBy op claim ring (call id s) := by
    rw [hu]
    exact call_modCall g.tables id _
  have others : ∀ x, x ≠ id → call x u = call x s := fun x hx => by
    rw [hu]
    exact call_modCall_of_ne hx _
  have io : io (.ctl c) u = io (.ctl c) s := by rw [hu]; cases c <;> rfl
  have entry : ∀ x, Machine.meter x u = Machine.meter x s := fun x => by rw [hu]; rfl
  have points : ∀ p, point p u = point p s := fun p => by rw [hu]; rfl
  have charges : Charges id lt u :=
    ⟨by rw [hu]; exact { g.tables.modCall id _ with }, by rw [record]; exact released_of_state g.quiet nofun nofun,
      by rw [record]; exact g.noCoin, by rw [record]; exact g.line, by rw [hu]; exact g.battery, by rw [hu]; exact g.noSave⟩
  have owner : OwnerTakes id c u :=
    ⟨by rw [record]; exact g.owner.owner, by rw [record]; exact g.owner.pend, by rw [io]; exact g.owner.room⟩
  have done := answerTold (n := n) (inc := bandIncrement band s) charges owner (by rw [record]; exact g.inBand)
    (by rw [hu]; exact g.answerUnits) (by rw [hu]; rfl) (by rw [record]; exact g.units) (by rw [entry]; exact g.count)
  generalize rearmCall id (raisePlain id .answered (startCharging id u)) = t at done
  refine ⟨done.tables, ?_, fun x hx => (done.others x hx).trans (others x hx), ?_, fun x hx => (done.meters x hx).trans (entry x), ?_, ?_,
    fun p hp => ?_, fun j ha hp => ?_, ?_⟩
  · rw [done.record, record]
    rfl
  · rw [done.meter, entry]
  · rw [done.dirty, dirtyWith, dirtyWith, entry, hu]
    rfl
  · rw [done.told, noticesDue_congr io]
  · rw [done.points p (by rw [record]; exact hp), points]
  · rw [done.junctions j (by rwa [points]) (by rwa [points]), points]
  · rw [done.frame, hu]
    rfl

/-- The answer of a ringing call of a line places RING OFF, which its operation waits for (R71). -/
theorem LineAnswers.ringing {lt band n cord : Nat} (g : LineAnswers id lt band n c s)
    (hs : (call id s).state = .ringing) (hc : (call id s).set.cord = some cord) (hr : (call id s).set.ring = true) :
    LineAnswered id lt n (bandIncrement band s) c (Call.answeredBy .answer (call id s).claim false)
      [{ id := s.serial, call := id, act := .ringOff cord }] s (answer id s) := by
  rw [answer_ringing g.tables hs g.quiet g.origin hc hr]
  exact g.answered rfl

/-- The answer of a call of a line that awaits it and has no order outstanding ends its operation (R94). -/
theorem LineAnswers.awaiting {lt band n : Nat} (g : LineAnswers id lt band n c s)
    (hs : (call id s).state = .awaitingAnswer) (hn : ordersOf id s = []) :
    LineAnswered id lt n (bandIncrement band s) c (Call.answeredBy .idle 0 (call id s).set.ring) [] s (answer id s) := by
  rw [answer_awaiting g.tables hs g.quiet g.origin hn]
  exact g.answered (by rw [List.append_nil]; rfl)

/-! ## The polarity of a junction in outgoing use (R21, R37, R97) -/

/-- The entry of a point once a change to state `v` has been accepted at its second scan. -/
def ScanEntry.turned (v : PointState) (e : ScanEntry) : ScanEntry :=
  { e with accepted := v, candidate := e.accepted, run := 0, duration := 2, pending := none }

/-- The polarity that a sample of a junction in outgoing use shows. -/
def polarity (bit : Bool) : PointState := if bit then .reversed else .normal

theorem polarity_shows (bit : Bool) : polarity bit ≠ .open_ := by cases bit <;> decide

/-- The entry of a junction's point has taken an accepted change to state `v`. -/
abbrev polarityTurned (j : Nat) (v : PointState) (s : Part) : Part := modPoint (2336 + j) (ScanEntry.turned v) s

theorem sampleState_junction_outgoing {j : Nat} (h : (junction j s).sup = .inCall .outgoing id) (bit : Bool) :
    sampleState (2336 + j) bit s = polarity bit := by
  simp [sampleState, sensesPolarity, pointKind_junction, h, polarity]

theorem junctionChange_reversed {j : Nat} (h : (junction j s).sup = .inCall .outgoing id) :
    junctionChange j .reversed s =
      if (call id s).state = .awaitingAnswer then answer id s
      else if (call id s).state = .calledCleared then reAnswer id s else s := by
  simp [junctionChange, h]

theorem junctionChange_normal {j : Nat} (h : (junction j s).sup = .inCall .outgoing id) :
    junctionChange j .normal s = if (call id s).state = .answered then calledClear id s else s := by
  simp [junctionChange, h]

/-- A junction's point that does not show OPEN, and has no event pending, is armed with none. -/
theorem rearm_junction_settled {j : Nat} (h : Table.wf {} s.scan.points = true)
    (ha : (point (2336 + j) s).accepted ≠ .open_) (hp : (point (2336 + j) s).pending = none) :
    rearm (2336 + j) s = s := rearm_self h ((armed_junction_of_ne ha).trans hp.symm)

theorem acceptChange_junction {j : Nat} (v : PointState) (s : Part) :
    acceptChange (2336 + j) v 2 s = rearm (2336 + j) (junctionChange j v (polarityTurned j v s)) := by
  rw [acceptChange, classify, pointKind_junction]
  rfl

/-- An outcome that leaves alone the junctions' points that are settled has the entry that an accepted change of polarity
made. -/
theorem entry_of_polarityTurned {j : Nat} {bit : Bool} {q : Part} (h : TablesOk s)
    (hq : q = polarityTurned j (polarity bit) s)
    (kept : (point (2336 + j) q).accepted ≠ .open_ → (point (2336 + j) q).pending = none →
      point (2336 + j) t = point (2336 + j) q) :
    point (2336 + j) t = ScanEntry.turned (polarity bit) (point (2336 + j) s) := by
  have entry : point (2336 + j) q = ScanEntry.turned (polarity bit) (point (2336 + j) s) := hq ▸ point_modPoint h _ _
  refine (kept ?_ (by rw [entry]; rfl)).trans entry
  rw [entry]
  exact polarity_shows bit

section
variable {j : Nat} {bit : Bool} (ha : (point (2336 + j) s).accepted = if bit then .normal else .reversed)
include ha

theorem polarity_ne_accepted : polarity bit ≠ (point (2336 + j) s).accepted := by
  rw [ha]
  cases bit <;> decide

theorem persistence_polarity : persistence (2336 + j) (point (2336 + j) s) s = 2 := by
  refine if_neg ?_
  rw [ha]
  cases bit <;> decide

variable (hj : (junction j s).sup = .inCall .outgoing id)
include hj

/-- The second sample of another polarity is accepted, and the change is classified (R21, R37): its outcome stands where
it leaves the point's entry as the change made it. -/
theorem samplePoint_polarity_second {u : Part} (hr : (point (2336 + j) s).run = 1)
    (hu : junctionChange j (polarity bit) (polarityTurned j (polarity bit) s) = u) (tables : TablesOk u)
    (entry : point (2336 + j) u = ScanEntry.turned (polarity bit) (point (2336 + j) s)) :
    samplePoint [] (2336 + j) bit s = u := by
  have shown := sampleState_junction_outgoing hj bit
  rw [samplePoint_accepts (later := []) (by rw [shown]; exact polarity_ne_accepted ha)
    (by rw [persistence_polarity ha, hr]) (by rw [hr]; decide), hr, shown, acceptChange_junction, hu]
  refine rearm_junction_settled tables.points ?_ (by rw [entry]; rfl)
  rw [entry]
  exact polarity_shows bit

/-- The first sample of another polarity is counted alone (R21). -/
theorem samplePoint_polarity_first (h : TablesOk s) (hp : (point (2336 + j) s).pending = none) (hr : (point (2336 + j) s).run = 0) :
    samplePoint [] (2336 + j) bit s = modPoint (2336 + j)
      (fun e => { e with
        candidate := polarity bit, run := 1
        duration := if e.duration < 1023 then e.duration + 1 else e.duration }) s := by
  have shown := sampleState_junction_outgoing hj bit
  have waits := samplePoint_waits (later := []) (bit := bit) h (by rw [shown]; exact polarity_ne_accepted ha) hp
    (by rw [persistence_polarity ha, hr]; decide) (by rw [hr]; decide)
  rwa [hr, shown] at waits

/-- A change of polarity that no state of the call waits for is recorded alone (R97). -/
theorem samplePoint_polarity_recorded (h : TablesOk s) (hr : (point (2336 + j) s).run = 1)
    (hrev : bit = true → (call id s).state ≠ .awaitingAnswer ∧ (call id s).state ≠ .calledCleared)
    (hnor : bit = false → (call id s).state ≠ .answered) :
    samplePoint [] (2336 + j) bit s = polarityTurned j (polarity bit) s := by
  refine samplePoint_polarity_second ha hj hr ?_ (h.modPoint _ _) (point_modPoint h _ _)
  cases bit with
  | false => exact (junctionChange_normal (s := polarityTurned j .normal s) hj).trans (if_neg (hnor rfl))
  | true => exact (junctionChange_reversed (s := polarityTurned j .reversed s) hj).trans ((if_neg (hrev rfl).1).trans (if_neg (hrev rfl).2))

/-- What an accepted change of polarity that tells the owner makes, said of the state before the sample (R97). -/
theorem Turned.sampled {k : CallKind} {f : Call → Call} {u : Part} (h : TablesOk s) (hr : (point (2336 + j) s).run = 1)
    (hu : junctionChange j (polarity bit) (polarityTurned j (polarity bit) s) = u)
    (d : Turned id c k f (polarityTurned j (polarity bit) s) u) (ht : t = samplePoint [] (2336 + j) bit s) :
    call id t = f (call id s) ∧
      ((∀ x, x ≠ id → call x t = call x s) ∧
        noticesDue (.ctl c) t = noticesDue (.ctl c) s ++ [.call k id [b8 id]] ∧
        point (2336 + j) t = ScanEntry.turned (polarity bit) (point (2336 + j) s) ∧
        ∀ p, p ≠ 2336 + j → p ∉ callPoints (call id s) → point p t = point p s) ∧
      t = { s with calls := t.calls, scan.points := t.scan.points, a := t.a, b := t.b } := by
  have entry := entry_of_polarityTurned h rfl (d.junctions j)
  rw [samplePoint_polarity_second ha hj hr hu d.tables entry] at ht
  subst ht
  obtain ⟨record, others, told, points, frame⟩ := d.afterPoint
  exact ⟨record, ⟨others, told, entry, points⟩, frame⟩

/-- What an answer by a change of polarity makes, said of the state before the sample (R94, R97). -/
theorem LineAnswered.sampled {lt n inc : Nat} {f : Call → Call} {u : Part} (h : TablesOk s)
    (hr : (point (2336 + j) s).run = 1) (hu : junctionChange j (polarity bit) (polarityTurned j (polarity bit) s) = u)
    (d : LineAnswered id lt n inc c f [] (polarityTurned j (polarity bit) s) u)
    (ht : t = samplePoint [] (2336 + j) bit s) :
    call id t = { f (call id s) with accum := 0, incr := inc, units := (call id s).units + n, charging := true } ∧
      ((∀ x, x ≠ id → call x t = call x s) ∧
        noticesDue (.ctl c) t = noticesDue (.ctl c) s ++ [.call .answered id [b8 id]] ∧
        point (2336 + j) t = ScanEntry.turned (polarity bit) (point (2336 + j) s) ∧
        ∀ p, p ≠ 2336 + j → p ∉ callPoints (call id s) → point p t = point p s) ∧
      Machine.meter lt t = { Machine.meter lt s with count := (Machine.meter lt s).count + n } ∧
      (∀ x, x ≠ lt → Machine.meter x t = Machine.meter x s) ∧
      t.meters.dirty = dirtyWith lt n s ∧
      t = { s with
        calls := t.calls, scan.points := t.scan.points
        meters.entries := t.meters.entries, meters.dirty := t.meters.dirty, a := t.a, b := t.b } := by
  have entry := entry_of_polarityTurned h rfl (d.junctions j)
  rw [samplePoint_polarity_second ha hj hr hu d.tables entry] at ht
  subst ht
  refine ⟨d.record, ⟨d.others, ?_, entry, fun p hp hn => ?_⟩, d.meter, d.meters, d.dirty, ?_⟩
  · rw [d.told, noticesDue_congr (io_modPoint _ _ _)]
  · rw [d.points p hn, point_modPoint_of_ne hp]
  · have frame := d.frame
    rw [List.append_nil] at frame
    exact frame

end

/-! ## O44 -/

/-- Settles O44: CALLED_CLEAR is the called clear; an answer and a re-answer make their record, charge their units and tell
the owner; a change of polarity is the one of these that the call's state waits for. -/
theorem calledClearAndAnswer : Obligations.CalledClear := by
  refine ⟨fun s cord id c hp h hb hc hs hr hh ho hn hq hev h50 => ?_, fun s cord id hp h hb hc hs hh hr hev h50 => ?_,
    fun s id c h hr ho hp hq => ⟨fun hs => ?_, fun lt cord band hs hl hc hg hk hm hd _ hv hw => ?_⟩,
    fun s j id c bit h _ hj hp => ?_⟩
  · have owner : OwnerTakes id c s.part := ⟨ho, hn, hq⟩
    have turned := calledClear_turned (h.modPoint (2144 + cord) fun e => { e with pending := none })
      (owner.modPoint _ _) hs hr hh
    refine ⟨{ s with part := calledClear id (eventGone (2144 + cord) s.part) }, ?_, rfl, turned.afterPoint⟩
    exact makes_of_onPart (f := produceEvent (2144 + cord) .calledClear) rfl
      (produceEvent_calledClear hp hb hc hev h50)
  · refine exec_takesRelease (f := produceEvent (2144 + cord) .calledClear) rfl ?_ (h.modPoint _ _)
      (releasable_eventGone hr)
    rw [produceEvent_calledClear hp hb hc hev h50]
    exact calledClear_releases hs hr.2.1 hh
  · have turned := reAnswer_turned h ⟨ho, hp, hq⟩ hs hr
    exact ⟨turned.record, turned.others, turned.told, turned.points, turned.frame⟩
  · intro n t hu ht
    have answered := LineAnswers.ringing (n := n) ⟨h, hr, ⟨ho, hp, hq⟩, hl, hk, hm, hd, hv, hw, rfl, hu, ht⟩ hs hc hg
    have frame : t = _ := answered.frame
    have orders : t.orders = s.orders ++ [{ id := s.serial, call := id, act := .ringOff cord }] := by rw [frame]
    refine ⟨answered.record, answered.others, orders, answered.meter, answered.meters, answered.dirty, answered.told,
      answered.points, ?_⟩
    rw [orders]
    exact frame
  · intro r e shown t changed told ha
    refine ⟨fun hr => ?_, fun hr hrev hnor => ?_, fun hr hq ho hn hroom => ⟨fun hbit hs hh => ?_, fun hbit hs => ?_,
      fun lt cord band hbit hs hl hc hk hm hd hord hv hw => ?_⟩⟩
    · exact samplePoint_polarity_first ha hj h hp hr
    · rw [show t = _ from samplePoint_polarity_recorded ha hj h hr hrev hnor]
      exact modPoint_congr rfl
    · subst hbit
      exact (calledClear_turned (h.modPoint _ _) (OwnerTakes.modPoint ⟨ho, hn, hroom⟩ _ _) hs hq hh).sampled ha hj h hr
        ((junctionChange_normal (s := polarityTurned j .normal s) hj).trans (if_pos hs)) rfl
    · subst hbit
      exact (reAnswer_turned (h.modPoint _ _) (OwnerTakes.modPoint ⟨ho, hn, hroom⟩ _ _) hs hq).sampled ha hj h hr
        ((junctionChange_reversed (s := polarityTurned j .reversed s) hj).trans
          ((if_neg (by rw [call_modPoint, hs]; decide)).trans (if_pos hs))) rfl
    · intro n hu ht
      subst hbit
      have answered := LineAnswers.awaiting (s := polarityTurned j .reversed s) (n := n)
        ⟨h.modPoint _ _, hq, OwnerTakes.modPoint ⟨ho, hn, hroom⟩ _ _, hl, hk, hm, hd, hv, hw, rfl, hu, ht⟩ hs hord
      exact answered.sampled ha hj h hr ((junctionChange_reversed (s := polarityTurned j .reversed s) hj).trans (if_pos hs))
        rfl

end Sys2Proof.Machine
end

section
/-!
PROOFS. A tick at a charging call (R113 to R119, R126, R127, R137, R140), and the sample that completes a coin pulse
(R33, R125, R127, R131).
-/

namespace Sys2Proof.Machine

variable {s t : Part} {id : Nat} {r : Call} {c : Ctl}

/-! ## A Call Table of one record -/

/-- A part whose Call Table holds one record. -/
def onlyCall (id : Nat) (r : Call) (s : Part) : Part := { s with calls := [(id, r)] }

theorem onlyCall_onlyCall (x : Call) : onlyCall id x (onlyCall id r s) = onlyCall id x s := rfl

theorem call_alone (h : s.calls = [(id, r)]) : call id s = r := by simp [call, h, Table.get]

theorem call_alone_of_ne (h : s.calls = [(id, r)]) {x : Nat} (hx : x ≠ id) : call x s = {} := by
  simp [call, h, Table.get, hx.symm]

theorem modCall_alone {f : Call → Call} (h : s.calls = [(id, r)]) (hf : f r ≠ {}) :
    modCall id f s = onlyCall id (f r) s := by
  simp [modCall, onlyCall, call_alone h, h, Table.put, hf]

theorem callsWith_alone {p : Call → Bool} (h : s.calls = [(id, r)]) (hp : p r = true) : callsWith p s = [id] := by
  simp [callsWith, h, hp]

theorem ne_empty_of_charging (h : r.charging = true) : r ≠ {} := fun e => by simp [e] at h

/-! ## A presence window at a tick (R183) -/

theorem expireWindow_of_quiet (h : (ctl c s).present = true → (ctl c s).window < 20) : expireWindow c s = s := by
  refine if_neg fun due => ?_
  obtain ⟨present, full⟩ := Bool.and_eq_true _ _ ▸ due
  exact absurd (of_decide_eq_true full) (Nat.not_le.mpr (h present))

theorem tickWindow_of_quiet (h : (ctl c s).present = true → (ctl c s).window < 20) :
    tickWindow c s = modCtl c CtlPort.ticked s := by
  unfold tickWindow
  split
  · next present =>
    have room : min ((ctl c s).window + 1) Config.window = (ctl c s).window + 1 := min_eq_left (h present)
    cases c <;> simp only [ctl] at present room <;> simp [modCtl, CtlPort.ticked, present, room]
  · next absent =>
    refine (modCtl_self s c _ ?_).symm
    rw [CtlPort.ticked, if_neg absent]

theorem ticked_of_absent {p : CtlPort} (h : p.present = false) : p.ticked = p := by
  rw [CtlPort.ticked, if_neg (by simp [h])]

/-! ## The tick up to the charge (R113, R119) -/

/-- The one record of the Call Table charges, and a tick finds no expiry to take and no grace timer RUNNING. -/
structure ChargesAlone (id : Nat) (r : Call) (s : Part) : Prop where
  alone : s.calls = [(id, r)]
  answered : r.state = .answered
  charging : r.charging = true
  kept : r.relPending = false
  timer : ∀ m, r.timer = some m → m.count < m.limit
  grace : ∀ k, r.coin = some k → k.grace = none
  queue : s.orig.queue = []
  evaluated : s.cal.due = false
  windows : ∀ c, (ctl c s).present = true → (ctl c s).window < 20

/-- A record whose call timer has taken a tick. -/
def Call.timed (r : Call) : Call := { r with timer := r.timer.map (fun m => { m with count := m.count + 1 }) }

/-- A charging record once its accumulator has taken the increment in force. -/
def Call.accrued (time : TimeBase) (r : Call) : Call :=
  { r with
    degraded := r.degraded || (decide (time.selection = .internal) || !time.valid)
    accum := if 1048576 ≤ r.accum + r.incr then r.accum + r.incr - 1048576 else r.accum + r.incr }

/-- A record with one more unit charged. -/
def Call.counted (r : Call) : Call := { r with units := min (r.units + 1) 65535 }

/-- Both presence windows have taken a tick. -/
def windowsTicked (s : Part) : Part := { s with a := s.a.ticked, b := s.b.ticked }

/-- A part after a tick of its clocks, with one call record. -/
def tickedWith (id : Nat) (r : Call) (s : Part) : Part := onlyCall id r (windowsTicked (tickTime s))

theorem windowsTicked_of_absent (h : ∀ c, (ctl c s).present = false) : windowsTicked s = s := by
  have a : s.a.ticked = s.a := ticked_of_absent (h .a)
  have b : s.b.ticked = s.b := ticked_of_absent (h .b)
  rw [windowsTicked, a, b]

/-- What the tick of the clocks and the one record leave alone. -/
theorem ticked_frame (id : Nat) (r : Call) (s : Part) :
    tickedWith id r s =
      { s with
        tb := (tickTime s).tb, cal := (tickTime s).cal, calls := [(id, r)], a := s.a.ticked, b := s.b.ticked } := rfl

theorem enter_ticked_frame (c : Ctl) (n : Notice) (id : Nat) (r : Call) (s : Part) :
    let t := enter (.ctl c) n (tickedWith id r s)
    t = { s with tb := t.tb, cal := t.cal, calls := t.calls, a := t.a, b := t.b } := by cases c <;> rfl

/-- The tick of the clocks leaves the links alone. -/
theorem io_ticked (p : Port) (id : Nat) (r : Call) (s : Part) :
    io p (tickedWith id r s) = io p s := by
  rcases p with (_ | _) | _ <;> rfl

theorem settleExpiries_of_alone (h : ChargesAlone id r s) : settleExpiries s = s := by
  have record := call_alone h.alone
  have timer : expireTimer allTimers id s = s :=
    expireTimer_of_early fun m hm => .inl (h.timer m (record ▸ hm))
  have grace : expireGrace id s = s := expireGrace_of_early fun k _ _ hk hg => by
    rw [h.grace k (record ▸ hk)] at hg
    exact nomatch hg
  have active : r.active = true := by simp [Call.active, h.answered]
  unfold settleExpiries
  simp only [callsWith_alone h.alone active, h.queue, List.foldl_cons, List.foldl_nil, List.map_nil, expireCall, timer,
    grace, expireWindow_of_quiet (h.windows _), evaluateBoundary, h.evaluated]
  rfl

/-- An empty wait queue takes a tick unchanged, and both presence windows count. -/
theorem tickWindows_of_quiet (hq : s.orig.queue = [])
    (hw : ∀ c, (ctl c s).present = true → (ctl c s).window < 20) :
    tickWindow .b (tickWindow .a (tickQueue s)) = windowsTicked s := by
  have queue : tickQueue s = s := by rw [tickQueue, hq, List.map_nil, ← hq]
  rw [queue, tickWindow_of_quiet (hw .a), tickWindow_of_quiet (s := modCtl .a CtlPort.ticked s) (hw .b)]
  rfl

/-- The tick leaves a grace timer that is IDLE alone. -/
theorem tickCall_of_idle_grace (h : ∀ k, r.coin = some k → k.grace = none) : tickCall r = r.timed := by
  cases hk : r.coin with
  | none => simp [tickCall, Call.timed, hk]
  | some k =>
    have idle : ({ k with grace := none } : Coin) = k := by rw [← h k hk]
    simp [tickCall, Call.timed, hk, h k hk, idle]

theorem tickCalls_alone (h : s.calls = [(id, r)]) (ha : r.active = true) (hc : r.charging = true)
    (hg : ∀ k, r.coin = some k → k.grace = none) : tickCalls s = onlyCall id r.timed s := by
  have ticked := tickCall_of_idle_grace hg
  rw [tickCalls, callsWith_alone h ha, ← ticked]
  exact modCall_alone h (ticked ▸ ne_empty_of_charging (r := r.timed) hc)

/-- A charging record takes its increment, and at Q is charged a unit (R113). -/
theorem accrue_of_charging (h : (call id s).charging = true) :
    accrue id s =
      if 1048576 ≤ (call id s).accum + (call id s).incr then chargeUnit id (modCall id (Call.accrued s.tb) s)
      else modCall id (Call.accrued s.tb) s := by
  have taken : modCall id (Call.accrued s.tb) s = modCall id (fun r => { r with
      degraded := r.degraded || (decide (s.tb.selection = .internal) || !s.tb.valid)
      accum := if Config.q ≤ (call id s).accum + (call id s).incr then
        (call id s).accum + (call id s).incr - Config.q else (call id s).accum + (call id s).incr }) s :=
    modCall_congr rfl
  rw [taken, accrue, h]
  rfl

theorem chargeTick_alone (h : s.calls = [(id, r)]) (hc : r.charging = true) :
    chargeTick s =
      if 1048576 ≤ r.accum + r.incr then chargeUnit id (onlyCall id (r.accrued s.tb) s)
      else onlyCall id (r.accrued s.tb) s := by
  have record := call_alone h
  rw [chargeTick, callsWith_alone h hc, List.foldl_cons, List.foldl_nil, accrue_of_charging (by rw [record]; exact hc),
    record, modCall_alone h (f := Call.accrued s.tb) (ne_empty_of_charging hc)]

/-- The time of week advances without a change of source or validity, which is all that a charge sees of it. -/
theorem accrued_advanceTime (x : TimeBase) (r : Call) : r.accrued (advanceTime x) = r.accrued x := by
  rw [advanceTime_eq]
  rfl

/-- A tick at the one charging record: the clocks and the accumulator take it, and at Q a unit is charged. -/
theorem takeTick_of_alone (h : ChargesAlone id r s) :
    takeTick [] s =
      if 1048576 ≤ r.accum + r.incr then
        chargeUnit id (tickedWith id (r.timed.accrued s.tb) s)
      else tickedWith id (r.timed.accrued s.tb) s := by
  have active : r.active = true := by simp [Call.active, h.answered]
  unfold takeTick
  dsimp only
  rw [settleExpiries_of_alone h, tickWindows_of_quiet (s := tickTime s) h.queue h.windows, List.foldl_nil,
    tickCalls_alone (s := windowsTicked (tickTime s)) h.alone active h.charging h.grace,
    chargeTick_alone (id := id) (r := r.timed) rfl h.charging]
  rw [show (onlyCall id r.timed (windowsTicked (tickTime s))).tb = advanceTime s.tb from rfl, accrued_advanceTime]
  rfl

theorem exec_tick {s : State} {q : Part} (h : s.part.tb.selection ≠ .station) (hq : takeTick [] s.part = q) :
    exec (.tick []) s = .next { s with part := q } := by
  subst hq
  exact congrArg (fun p => (Host.Outcome.next { s with part := p } : Host.Outcome State Fault Refusal)) (if_neg h)

/-! ## The unit of the one record (R115, R126, R127) -/

theorem chargeUnit_coin {k : Coin} (h : s.calls = [(id, r)]) (hc : r.charging = true) (hk : r.coin = some k) :
    chargeUnit id s = payUnit id (onlyCall id r.counted s) := by
  have counted : modCall id Call.counted s = onlyCall id r.counted s := modCall_alone h (ne_empty_of_charging hc)
  have record : (call id (onlyCall id r.counted s)).coin = some k := by rw [call_alone rfl]; exact hk
  rw [← counted] at record ⊢
  unfold chargeUnit
  extract_lets u x
  rw [show x.coin = some k from record]
  rfl

theorem chargeUnit_of_noCoin (h : s.calls = [(id, r)]) (hc : r.charging = true) (hk : r.coin = none) :
    chargeUnit id s =
      r.charged.elim (onlyCall id r.counted s) (fun lt => addUnits lt 1 (onlyCall id r.counted s)) := by
  have counted : modCall id Call.counted s = onlyCall id r.counted s := modCall_alone h (ne_empty_of_charging hc)
  have record : call id (onlyCall id r.counted s) = r.counted := call_alone rfl
  rw [← counted] at record ⊢
  unfold chargeUnit
  extract_lets u x
  rw [show x = r.counted from record, show r.counted.coin = none from hk, show r.counted.charged = r.charged from rfl]
  cases r.charged <;> rfl

theorem payUnit_credit {k : Coin} (h : s.calls = [(id, r)]) (hc : r.charging = true) (hk : r.coin = some k)
    (hp : 1 ≤ k.credit) :
    payUnit id s = onlyCall id { r with coin := some { k with credit := k.credit - 1 } } s := by
  unfold payUnit
  simp only [call_alone h, hk, if_pos hp]
  exact modCall_alone h (ne_empty_of_charging hc)

/-- The first unit owed starts the grace timer, and DEPOSIT DUE tells its ticks to the owner. -/
theorem payUnit_owed {k : Coin} {limit : Nat} (h : s.calls = [(id, r)]) (hc : r.charging = true) (hk : r.coin = some k)
    (hp : k.credit = 0) (hw : k.owed = 0) (hl : 10 * s.timers.grace = limit) (hg : limit ≠ 0)
    (ho : r.owner = some c) (hn : r.pend = []) (hr : (io (.ctl c) s).queue.length < 64) :
    payUnit id s =
      enter (.ctl c) (.call .depositDue id ([b8 id, 0, 1] ++ b16 limit))
        (onlyCall id { r with coin := some { k with owed := 1, grace := some (limit, 0) } } s) := by
  obtain ⟨u, hu⟩ : ∃ u, u =
      onlyCall id { r with coin := some { k with owed := 1, grace := some (limit, 0) } } s := ⟨_, rfl⟩
  have record : call id u = { r with coin := some { k with owed := 1, grace := some (limit, 0) } } :=
    call_alone (by rw [hu]; rfl)
  have started : startGrace id (modCall id (fun r => { r with coin := some { k with owed := k.owed + 1 } }) s) = u := by
    rw [modCall_alone h (ne_empty_of_charging hc), startGrace]
    rw [modCall_alone (id := id) rfl (ne_empty_of_charging hc), hu, hw, onlyCall_onlyCall, ← hl]
    rfl
  have takes : OwnerTakes id c u := ⟨by rw [record]; exact ho, by rw [record]; exact hn, by rw [hu]; exact hr⟩
  have data : noticeData id .depositDue [] u = [b8 id, 0, 1] ++ b16 limit := by
    simp [noticeData, record, hp, b8]
  have lasts : (enter (.ctl c) (.call .depositDue id ([b8 id, 0, 1] ++ b16 limit)) u).timers.grace ≠ 0 := by
    rw [timers_enter, hu]
    exact fun none => hg (hl ▸ Nat.mul_eq_zero.mpr (.inr none))
  unfold payUnit
  simp only [call_alone h, hk, if_neg (show ¬ 1 ≤ k.credit by omega)]
  unfold oweUnit
  dsimp only
  rw [if_pos hw, started, raiseCall_enters takes (by decide), data, if_neg (fun g => lasts g.2), hw,
    if_neg (by decide), hu]

/-! ## The meter of a unit (R115, R137, R140) -/

/-- What the Meter Store and the maintenance port show of a unit charged to a line, or of no unit. -/
structure Metered (unit : Bool) (charged : Option Nat) (s t : Part) : Prop where
  meters : ∀ x, meter x t =
    if unit ∧ charged = some x ∧ (meter x s).count = 9999999 then { meter x s with count := 0, rollover := true }
    else if unit ∧ charged = some x then { meter x s with count := (meter x s).count + 1 }
    else meter x s
  dirty : ∀ lt, charged = some lt → t.meters.dirty =
    if unit ∧ lt ∉ s.meters.dirty ∧ (meter lt s).nvFault = false then s.meters.dirty ++ [lt] else s.meters.dirty
  undirtied : charged = none → t.meters.dirty = s.meters.dirty
  told : ∀ lt, unit ∧ charged = some lt ∧ (meter lt s).count = 9999999 →
    Noticed .rollover (b16 lt) { t with m := s.m } t
  untold : (∀ lt, ¬ (unit ∧ charged = some lt ∧ (meter lt s).count = 9999999)) → t.m = s.m
  frame : t = { s with
    m := t.m, meters.entries := t.meters.entries, meters.dirty := t.meters.dirty }

theorem Metered.none {unit : Bool} {charged : Option Nat} (h : unit = false ∨ charged = none) (s : Part) :
    Metered unit charged s s := by
  have no : ∀ lt (p : Prop), ¬ (unit ∧ charged = some lt ∧ p) := by
    rintro lt p ⟨yes, line, -⟩
    rcases h with rfl | rfl
    · exact nomatch yes
    · exact nomatch line
  have off : ∀ x, ¬ (unit ∧ charged = some x) := fun x g => no x True ⟨g.1, g.2, trivial⟩
  refine ⟨fun x => ?_, fun lt line => ?_, fun _ => rfl, fun lt g => absurd g (no lt _), fun _ => rfl, rfl⟩
  · rw [if_neg (no x _), if_neg (off x)]
  · rw [if_neg fun g => off lt ⟨g.1, line⟩]

theorem raised_one {e : MeterEntry} (h : e.count ≤ 9999999) :
    e.raised 1 =
      if e.count = 9999999 then { e with count := 0, rollover := true }
      else { e with count := e.count + 1 } := by
  unfold MeterEntry.raised
  split
  · next top => simp [top]
  · next below =>
    have room : e.count < 9999999 := by omega
    simp [Nat.mod_eq_of_lt (Nat.succ_lt_succ room), room]

theorem metered_addUnits {lt : Nat} (h : TablesOk s) (hm : MaintRoom s) (hs : s.meters.save = none)
    (hb : s.supply.battery = .normal) (hn : (meter lt s).count ≤ 9999999) :
    Metered true (some lt) s (addUnits lt 1 s) := by
  have pace : urgent s = false := by simp [urgent, hb]
  have added := added_addUnits (lt := lt) h hm hs pace one_ne_zero
  have top : 10000000 ≤ (meter lt s).count + 1 ↔ (meter lt s).count = 9999999 := by omega
  have quiet : (meter lt s).count ≠ 9999999 → (addUnits lt 1 s).m = s.m := fun below => by
    rw [addUnits_one h hs hb (by omega)]
    rfl
  generalize addUnits lt 1 s = t at added quiet
  refine ⟨fun x => ?_, fun x hx => ?_, nofun, fun x hx => ?_, fun hx => quiet fun e => hx lt ⟨rfl, rfl, e⟩, ?_⟩
  · by_cases hx : x = lt
    · subst hx
      rw [added.raised, raised_one hn]
      simp
    · rw [added.others x hx]
      simp [Ne.symm hx]
  · obtain rfl := Option.some.inj hx
    rw [added.store]
    simp
  · obtain ⟨-, line, count⟩ := hx
    obtain rfl := Option.some.inj line
    refine ⟨?_, ?_⟩
    · rw [added.maint, if_pos (top.mpr count)]
      rfl
    · rw [added.frame]
      rfl
  · rw [added.frame, added.store]

/-! ## The coin point (R33, R125, R127, R131) -/

theorem pointKind_coin {cord : Nat} (h : cord < 96) : pointKind (2240 + cord) = .coin cord := by
  rw [pointKind, if_neg (by omega), if_neg (by omega), if_neg (by omega), if_pos (by omega), Nat.add_sub_cancel_left]

/-- A coin context with one more deposit. -/
def Coin.deposited (k : Coin) : Coin := { k with deposits := min (k.deposits + 1) 999 }

/-- A record with the coin context `k` after a coin pulse. -/
def Call.coinTaken (k : Coin) (r : Call) : Call :=
  if r.released then { r with coin := some k.deposited }
  else if k.owed = 0 then
    if k.deposits < 999 then { r with coin := some { k.deposited with credit := min (k.credit + 1) 99 } } else r
  else if k.owed = 1 then
    { r with
      coin := some { k.deposited with owed := 0, grace := none }
      pend := r.pend.filter (fun x => decide (x.1 ≠ .depositDue)) }
  else { r with coin := some { k.deposited with owed := k.owed - 1 } }

theorem modCall_self {f : Call → Call} (h : TablesOk s) (g : f (call id s) = call id s) : modCall id f s = s := by
  unfold modCall
  rw [g, call, Table.put_get h.calls]

/-- A coin pulse is a change of the one record. -/
theorem coinPulse_eq {k : Coin} (h : TablesOk s) (hk : (call id s).coin = some k) :
    coinPulse id s = modCall id (Call.coinTaken k) s := by
  unfold coinPulse
  simp only [hk]
  split
  · next released => exact modCall_congr (if_pos released).symm
  · next kept =>
    have later : (call id s).coinTaken k = _ := if_neg kept
    split
    · next paid =>
      rw [if_pos paid] at later
      split
      · next room => exact modCall_congr (later.trans (if_pos room)).symm
      · next full => exact (modCall_self h (later.trans (if_neg full))).symm
    · next owing =>
      rw [if_neg owing] at later
      split
      · next last => exact modCall_congr (later.trans (if_pos last)).symm
      · next more => exact modCall_congr (later.trans (if_neg more)).symm

/-- The second LOOP sampled at the coin point of a coin call's cord is a coin pulse (R21, R33). -/
theorem samplePoint_coin {cord : Nat} {k : Coin} (h : TablesOk s) (hc : cord < 96)
    (hn : callOfElem (.cord cord) s = some id) (hk : (call id s).coin = some k)
    (ha : (point (2240 + cord) s).accepted = .open_) (hr : (point (2240 + cord) s).run = 1) :
    samplePoint [] (2240 + cord) true s =
      modPoint (2240 + cord) (ScanEntry.looped 2) (modCall id (Call.coinTaken k) s) := by
  have kind := pointKind_coin hc
  have sample : sampleState (2240 + cord) true s = .loop := by simp [sampleState, sensesPolarity, kind]
  have two : persistence (2240 + cord) (point (2240 + cord) s) s = 2 := by simp [persistence, ha, kind]
  have looped : TablesOk (modPoint (2240 + cord) (ScanEntry.looped 2) s) := h.modPoint _ _
  have pulse : classify (2240 + cord) .loop ((point (2240 + cord) s).duration - 2 + 1)
      (modPoint (2240 + cord) (ScanEntry.looped 2) s) =
      modPoint (2240 + cord) (ScanEntry.looped 2) (modCall id (Call.coinTaken k) s) := by
    simp only [classify, kind, coinChange, callOfElem_modPoint, hn]
    exact coinPulse_eq looped hk
  rw [samplePoint_accepts (by rw [sample, ha]; decide) (by rw [two, hr]) (by rw [hr]; decide), sample,
    acceptChange_loop ha, hr, pulse]
  refine rearm_self ((h.modCall _ _).modPoint _ _).points ?_
  rw [point_modPoint (h.modCall _ _)]
  simp [armed, kind, ScanEntry.looped]

/-! ## The statement -/

/-- A tick at a call that charges a line's meter, or the units alone (R113, R115, R116, R119, R137). -/
theorem takeTick_metered (h : ChargesAlone id r s) (hk : r.coin = none) (ht : TablesOk s) (hm : MaintRoom s)
    (hs : s.meters.save = none) (hb : s.supply.battery = .normal)
    (hn : ∀ lt, r.charged = some lt → (meter lt s).count ≤ 9999999) {unit : Bool}
    (hu : unit = decide (1048576 ≤ r.accum + r.incr)) :
    Metered unit r.charged
      (tickedWith id (if unit then (r.timed.accrued s.tb).counted else r.timed.accrued s.tb) s)
      (takeTick [] s) := by
  rw [takeTick_of_alone h]
  by_cases due : 1048576 ≤ r.accum + r.incr
  · obtain rfl : unit = true := hu.trans (decide_eq_true due)
    rw [if_pos due, if_pos rfl, chargeUnit_of_noCoin (r := r.timed.accrued s.tb) rfl h.charging hk,
      show (r.timed.accrued s.tb).charged = r.charged from rfl]
    cases line : r.charged with
    | none => exact Metered.none (.inr rfl) _
    | some lt =>
      refine metered_addUnits ?_ hm hs hb (hn lt line)
      have single : Table.wf {} [(id, (r.timed.accrued s.tb).counted)] = true := by
        simp [Table.wf, ne_empty_of_charging (r := (r.timed.accrued s.tb).counted) h.charging]
      exact { ht with calls := single }
  · obtain rfl : unit = false := hu.trans (decide_eq_false due)
    rw [if_neg due, if_neg Bool.false_ne_true]
    exact Metered.none (.inl rfl) _

/-- A tick that brings a coin call to a unit hands it to the coin context (R126). -/
theorem takeTick_coin {k : Coin} (h : ChargesAlone id r s) (hk : r.coin = some k)
    (hq : 1048576 ≤ r.accum + r.incr) :
    takeTick [] s = payUnit id (tickedWith id (r.timed.accrued s.tb).counted s) := by
  rw [takeTick_of_alone h, if_pos hq]
  exact chargeUnit_coin rfl h.charging hk

theorem takeTick_credit {k : Coin} (h : ChargesAlone id r s) (hk : r.coin = some k)
    (hq : 1048576 ≤ r.accum + r.incr) (hp : 1 ≤ k.credit) :
    takeTick [] s =
      tickedWith id { (r.timed.accrued s.tb).counted with coin := some { k with credit := k.credit - 1 } } s :=
  (takeTick_coin h hk hq).trans
    (payUnit_credit (s := tickedWith id (r.timed.accrued s.tb).counted s) rfl h.charging hk hp)

theorem takeTick_owed {k : Coin} {limit : Nat} (h : ChargesAlone id r s) (hk : r.coin = some k)
    (hq : 1048576 ≤ r.accum + r.incr) (hp : k.credit = 0) (hw : k.owed = 0) (hl : 10 * s.timers.grace = limit)
    (hg : limit ≠ 0) (ho : r.owner = some c) (hn : r.pend = []) (hr : (io (.ctl c) s).queue.length < 64) :
    takeTick [] s =
      enter (.ctl c) (.call .depositDue id ([b8 id, 0, 1] ++ b16 limit))
        (tickedWith id
          { (r.timed.accrued s.tb).counted with coin := some { k with owed := 1, grace := some (limit, 0) } } s) :=
  (takeTick_coin h hk hq).trans
    (payUnit_owed (s := tickedWith id (r.timed.accrued s.tb).counted s) rfl h.charging hk hp hw
      hl hg ho hn (by rw [io_ticked]; exact hr))

/-- Settles O49: the tick is taken apart into the clocks, the accumulator and the unit; the unit goes to the meter or
to the coin context. -/
theorem tickCharges : Obligations.TickCharges := by
  refine ⟨?_, ?_, ?_⟩
  · intro s id r alone answered charging coin kept timer _ _ source ht queue evaluated absent hb hs hn hm unit wraps
    have h : ChargesAlone id r s.part :=
      ⟨alone, answered, charging, kept, timer, fun k hk => by simp [coin] at hk, queue, evaluated,
        fun c hc => by simp [absent c] at hc⟩
    have metered := takeTick_metered h coin ht hm hs hb hn (unit := unit) rfl
    refine ⟨_, exec_tick source rfl, rfl, ?_⟩
    dsimp only
    generalize takeTick [] s.part = t at metered ⊢
    have calls : t.calls = [(id, if unit then (r.timed.accrued s.part.tb).counted else r.timed.accrued s.part.tb)] := by
      rw [metered.frame]
      rfl
    refine ⟨?_, fun x hx => ?_, metered.meters, ?_, metered.told, metered.untold, ?_⟩
    · rw [call_alone calls]
      by_cases due : 1048576 ≤ r.accum + r.incr <;>
        simp [Call.counted, Call.accrued, Call.timed, unit, due, Bool.or_assoc]
    · rw [call_alone_of_ne calls hx, call_alone_of_ne alone hx]
    · cases line : r.charged with
      | none => exact metered.undirtied line
      | some lt => exact metered.dirty lt line
    · have clocks : windowsTicked (tickTime s.part) = tickTime s.part := windowsTicked_of_absent absent
      rw [metered.frame, tickedWith, clocks]
      rfl
  · intro s id r k alone answered charging coin grace owed kept timer due source queue evaluated windows charged
    have h : ChargesAlone id r s.part :=
      ⟨alone, answered, charging, kept, timer, fun k' hk => by rwa [← Option.some.inj (coin.symm.trans hk)], queue,
        evaluated, windows⟩
    have record : ∀ x, { (r.timed.accrued s.part.tb).counted with coin := some x } = charged x := fun x => by
      simp [Call.counted, Call.accrued, Call.timed, charged, due, Bool.or_assoc]
    refine ⟨fun credit => ?_, fun c credit hg owner pend room => ?_⟩
    · have ticks := takeTick_credit h coin due credit
      rw [record] at ticks
      exact ⟨_, exec_tick source ticks, rfl, call_alone rfl, ticked_frame _ _ _⟩
    · intro limit
      have ticks := takeTick_owed h coin due credit owed (limit := limit) rfl (Nat.mul_ne_zero (by decide) hg) owner
        pend room
      rw [record] at ticks
      refine ⟨_, exec_tick source ticks, rfl, (call_enter _ _ _).trans (call_alone rfl), ?_,
        enter_ticked_frame _ _ _ _ _⟩
      dsimp only
      rw [noticesDue_enter, noticesDue_congr (io_ticked _ _ _ _)]
  · intro s cord id k hc ht named coin opened run t deposited
    have taken : t = _ := samplePoint_coin ht hc named coin opened run
    rw [taken]
    refine ⟨?_, fun x hx => ?_, ?_, fun p hp => ?_, rfl⟩
    · rw [call_modPoint, call_modCall ht]
      rfl
    · rw [call_modPoint, call_modCall_of_ne hx]
    · exact point_modPoint (ht.modCall _ _) _ _
    · rw [point_modPoint_of_ne hp, point_modCall]

end Sys2Proof.Machine
end

section
/-!
SUPPORT. Tables taken from other tables: a map of the records, and the records that differ from the default.
-/

namespace Sys2Proof.Machine

/-- A map that takes no record to the default keeps the canonical form. -/
theorem Table.wf_map {α β : Type} [DecidableEq α] [DecidableEq β] {d : α} {e : β} {f : α → β} {t : Table α}
    (h : Table.wf d t = true) (hf : ∀ v, v ≠ d → f v ≠ e) :
    Table.wf e (t.map (fun x => (x.1, f x.2))) = true := by
  induction t with
  | nil => exact Table.wf_nil
  | cons x t ih =>
    obtain ⟨hx, below, ht⟩ := Table.wf_cons.mp h
    refine Table.wf_cons.mpr ⟨hf _ hx, fun y hy => ?_, ih ht⟩
    obtain ⟨z, hz, rfl⟩ := List.mem_map.mp hy
    exact below z hz

/-- The records listed in rising order that differ from the default are a canonical table. -/
theorem Table.wf_filter {β : Type} [DecidableEq β] {e : β} {t : Table β} (h : t.Pairwise (fun x y => x.1 < y.1)) :
    Table.wf e (t.filter (fun x => decide (x.2 ≠ e))) = true := by
  simp only [Table.wf, Bool.and_eq_true, decide_eq_true_eq, List.all_eq_true]
  exact ⟨h.filter _, fun x hx => by simpa using (List.mem_filter.mp hx).2⟩

/-- Leaving out the records equal to the default changes no read of a list in rising order. -/
theorem Table.get_filter {β : Type} [DecidableEq β] {e : β} {t : Table β} (h : t.Pairwise (fun x y => x.1 < y.1))
    (k : Nat) : Table.get e (t.filter (fun x => decide (x.2 ≠ e))) k = Table.get e t k := by
  induction t with
  | nil => rfl
  | cons x t ih =>
    obtain ⟨below, rising⟩ := List.pairwise_cons.mp h
    by_cases hx : x.2 = e
    · rw [List.filter_cons_of_neg (by simpa using hx), ih rising]
      by_cases hk : x.1 = k
      · subst hk
        simp [Table.get, hx, Table.get_of_lt below]
      · simp [Table.get, hk]
    · rw [List.filter_cons_of_pos (by simpa using hx)]
      simp only [Table.get, ih rising]

theorem Table.rising_of_wf {α : Type} [DecidableEq α] {d : α} {t : Table α} (h : Table.wf d t = true) :
    t.Pairwise (fun x y => x.1 < y.1) := by
  simp only [Table.wf, Bool.and_eq_true, decide_eq_true_eq] at h
  exact h.1

/-- A map of the records keeps their rising order. -/
theorem Table.rising_map {α β : Type} [DecidableEq α] {d : α} {t : Table α} (f : α → β) (h : Table.wf d t = true) :
    (t.map (fun x => (x.1, f x.2))).Pairwise (fun x y => x.1 < y.1) :=
  List.pairwise_map.mpr (Table.rising_of_wf h)

end Sys2Proof.Machine
end

section
/-!
SUPPORT. The laws of the meters and of the call records over one command (O5): every change of the part, from the
operations below the clock to the tick, the sources, the tables and the start-ups, keeps them.
-/

namespace Sys2Proof.Machine

variable {q r s t : Part}

/-! ## What every command keeps -/

/-- A change of the part keeps the laws of the meters and of the call records, and the canonical form of the
tables; the laws of the dirty list and of the calls from canonical tables. -/
structure Keeps (r s : Part) : Prop where
  metersOk : MetersOk r → MetersOk s
  tablesOk : TablesOk r → TablesOk s
  listedOk : TablesOk r → ListedOk r → ListedOk s
  callsOk : TablesOk r → CallsOk r → CallsOk s

theorem Keeps.refl (s : Part) : Keeps s s := ⟨id, id, fun _ g => g, fun _ g => g⟩

theorem Keeps.trans (h : Keeps q r) (g : Keeps r s) : Keeps q s :=
  ⟨g.metersOk ∘ h.metersOk, g.tablesOk ∘ h.tablesOk, fun t l => g.listedOk (h.tablesOk t) (h.listedOk t l),
    fun t c => g.callsOk (h.tablesOk t) (h.callsOk t c)⟩

/-- An operation below the clock keeps them (Laws/Frame.lean). -/
theorem Low.keeps (h : Low r s) : Keeps r s := ⟨h.metersOk, h.tablesOk, fun _ => h.listedOk, h.callsOk⟩

/-- A change that leaves the Meter Store and the calls, and keeps the tables canonical. -/
theorem keeps_of_meters_calls (hm : s.meters = r.meters) (hc : s.calls = r.calls) (ht : TablesOk r → TablesOk s) :
    Keeps r s :=
  ⟨fun g => by simpa only [MetersOk, hm] using g, ht, fun _ => listed_congr hm,
    fun _ g => by simpa only [CallsOk, hc] using g⟩

theorem Keeps.reply {p : Port} {tag : Byte} {code : ResultCode} {data : List Byte} (h : Keeps r s) :
    Keeps r (reply p tag code data s) := h.trans (low_reply (Low.refl s)).keeps

theorem Keeps.raiseMaint {k : MaintKind} {d : List Byte} (h : Keeps r s) : Keeps r (raiseMaint k d s) :=
  h.trans (low_raiseMaint (Low.refl s)).keeps

theorem Keeps.modTb {f : TimeBase → TimeBase} (h : Keeps r s) : Keeps r (modTb f s) :=
  h.trans (keeps_of_meters_calls rfl rfl (fun g => { g with }))

theorem Keeps.ite {p : Prop} [Decidable p] (h : Keeps r s) (g : Keeps r t) : Keeps r (if p then s else t) := by
  split
  · exact h
  · exact g

theorem Keeps.foldl {α : Type} {f : Part → α → Part} (hf : ∀ s x, Keeps s (f s x)) (l : List α) (s : Part) :
    Keeps s (l.foldl f s) := by
  induction l generalizing s with
  | nil => exact Keeps.refl s
  | cons x l ih => exact (hf s x).trans (ih _)

/-! ## The calendar (R117, R164, R165) -/

theorem keeps_charge (x : ChargeUnit) (hx : x.tariff = s.charge.tariff) : Keeps s { s with charge := x } :=
  keeps_of_meters_calls rfl rfl (fun g => { g with tariff := hx ▸ g.tariff })

theorem keeps_takePeriod (p : Period) (s : Part) : Keeps s (takePeriod p s) :=
  (keeps_charge { s.charge with period := p, incs := bandIncrements p s } rfl).trans
    (low_takeIncrements (Low.refl _)).keeps

theorem keeps_evaluate (s : Part) : Keeps s (evaluate s) := by
  have calendar : ∀ i p q f,
      Keeps s { s with cal.entry := i, cal.calPeriod := p, cal.period := q, cal.profile := f } := fun _ _ _ _ =>
    keeps_of_meters_calls rfl rfl (fun g => { g with })
  have taken : ∀ i p q f, Keeps s (takePeriod q
      { s with cal.entry := i, cal.calPeriod := p, cal.period := q, cal.profile := f }) := fun _ _ _ _ =>
    (calendar _ _ _ _).trans (keeps_takePeriod _ _)
  unfold evaluate
  dsimp only
  exact Keeps.ite
    ((Keeps.ite (taken _ _ _ _) (calendar _ _ _ _)).trans (low_retry (Low.refl _)).keeps)
    (Keeps.ite (taken _ _ _ _) (calendar _ _ _ _))

theorem keeps_evaluateBoundary (s : Part) : Keeps s (evaluateBoundary s) := by
  unfold evaluateBoundary
  split
  · exact (keeps_of_meters_calls rfl rfl (fun g => { g with }) : Keeps s { s with cal.due := false }).trans
      (keeps_evaluate _)
  · exact Keeps.refl s

/-! ## The tick and the sources (R154 to R160) -/

theorem keeps_settleExpiries (s : Part) : Keeps s (settleExpiries s) := by
  have calls := low_foldl (f := fun s id => expireCall id s) (fun _ _ => low_expireCall)
    (callsWith (fun c => c.active) s) (Low.refl s)
  have waits := low_foldl (f := fun s o => expireWait o s) (fun _ _ => low_expireWait)
    (((callsWith (fun c => c.active) s).foldl (fun s id => expireCall id s) s).orig.queue.map WaitEntry.origin) calls
  exact (low_expireWindow (low_expireWindow waits)).keeps.trans (keeps_evaluateBoundary _)

theorem keeps_tickTime (s : Part) : Keeps s (tickTime s) := keeps_of_meters_calls rfl rfl (fun g => { g with })

theorem keeps_takeTick (early : List Nat) (s : Part) : Keeps s (takeTick early s) := by
  have clocked := (keeps_settleExpiries s).trans (keeps_tickTime _)
  have timed := low_tickCalls (low_tickWindow (c := .b) (low_tickWindow (c := .a)
    (low_tickQueue (Low.refl (tickTime (settleExpiries s))))))
  exact clocked.trans (low_chargeTick
    (low_foldl (f := fun s id => expireCall id s) (fun _ _ => low_expireCall) early timed)).keeps

theorem keeps_dividerTick (early : List Nat) (s : Part) : Keeps s (dividerTick early s) := by
  unfold dividerTick
  split
  · exact Keeps.refl s
  · exact keeps_takeTick early s

theorem keeps_selectNow (m : Moment) (src : Source) (s : Part) : Keeps s (selectNow m src s) := by
  unfold selectNow placeTick
  split
  · exact (Keeps.refl s).modTb.trans (keeps_takeTick _ _)
  · exact (Keeps.refl s).modTb

theorem keeps_policy (m : Moment) (s : Part) : Keeps s (policy m s) := by
  unfold policy
  split
  · exact Keeps.refl s
  · split
    · split
      · exact (Keeps.refl s).modTb
      · exact Keeps.refl s
    · dsimp only
      split
      · exact (keeps_selectNow m _ s).raiseMaint
      · exact keeps_selectNow m _ s

theorem keeps_loseSource (m : Moment) (lost : Source) (s : Part) : Keeps s (loseSource m lost s) :=
  ((Keeps.refl s).modTb.trans (keeps_selectNow m _ _)).raiseMaint

theorem keeps_countPulse (m : Moment) (s : Part) : Keeps s (countPulse m s) := by
  unfold countPulse
  split
  · exact Keeps.refl s
  · exact (Keeps.refl s).modTb
  · split
    · exact (Keeps.refl s).modTb.trans (keeps_policy m _)
    · exact (Keeps.refl s).modTb

theorem keeps_pulse (m : Moment) (s : Part) : Keeps s (pulse m s) := by
  unfold pulse
  dsimp only
  split
  · exact (keeps_countPulse m s).trans (keeps_takeTick _ _)
  · exact keeps_countPulse m s

theorem keeps_gap (m : Moment) (s : Part) : Keeps s (gap m s) := by
  unfold gap
  split
  · exact Keeps.refl s
  · exact (Keeps.refl s).modTb
  · dsimp only
    split
    · exact (Keeps.refl s).modTb.trans (keeps_loseSource m _ _)
    · exact (Keeps.refl s).modTb

theorem keeps_crystalReady (m : Moment) (s : Part) : Keeps s (crystalReady m s) := by
  unfold crystalReady
  split
  · exact (Keeps.refl s).modTb.trans (keeps_policy m _)
  · exact Keeps.refl s

theorem keeps_crystalFailure (m : Moment) (s : Part) : Keeps s (crystalFailure m s) := by
  unfold crystalFailure
  split
  · exact Keeps.refl s
  · dsimp only
    split
    · exact (Keeps.refl s).modTb.trans (keeps_loseSource m _ _)
    · exact (Keeps.refl s).modTb

/-! ## The Meter Store (chapter 8) -/

theorem keeps_writeEnd (verified : Bool) (s : Part) : Keeps s (writeEnd verified s) :=
  have base := base_writeEnd (verified := verified) (Base.refl s)
  ⟨base.metersOk, base.tablesOk, fun ht g => listed_writeEnd g ht, base.callsOk⟩

theorem tablesOk_snapshot {x : Option Snapshot} (h : TablesOk s)
    (hx : ∀ t, x = some t → Table.wf {} t.items = true) : TablesOk (modMeters (fun m => { m with snapshot := x }) s) :=
  { h with snapshot := hx }

theorem wf_snapshotNow (h : TablesOk s) : Table.wf {} (snapshotNow s).items = true :=
  Table.wf_filter (Table.rising_map MeterEntry.value h.meters)

/-- The snapshot table takes no part in the laws of the meters. -/
theorem keeps_snapshot {x : Option Snapshot} (hx : TablesOk s → ∀ t, x = some t → Table.wf {} t.items = true) :
    Keeps s (modMeters (fun m => { m with snapshot := x }) s) :=
  ⟨id, fun h => tablesOk_snapshot h (hx h),
    fun _ => listed_modMeters (f := fun m => { m with snapshot := x }) rfl rfl rfl (fun _ => id), fun _ g => g⟩

theorem keeps_takeSnapshotRequest (tag : Byte) (s : Part) : Keeps s (takeSnapshotRequest tag s) := by
  unfold takeSnapshotRequest
  split
  · exact (Keeps.refl s).reply
  · exact (keeps_snapshot (fun h t ht => Option.some.inj ht ▸ wf_snapshotNow h)).reply

theorem keeps_dropSnapshotRequest (tag : Byte) (s : Part) : Keeps s (dropSnapshotRequest tag s) :=
  (keeps_snapshot (fun _ _ h => by cases h)).reply

theorem low_setSave (x : Option Save) (s : Part) : Low s (modMeters (fun m => { m with save := x }) s) :=
  ⟨base_modMeters_same (Base.refl s) rfl rfl rfl rfl rfl,
    listed_modMeters (f := fun m => { m with save := x }) rfl rfl rfl (fun _ => id)⟩

theorem keeps_saveRequest (tag : Byte) (s : Part) : Keeps s (saveRequest tag s) := by
  unfold saveRequest
  split
  · exact (Keeps.refl s).reply
  · exact (low_nextWrite (low_reply (low_setSave _ s))).keeps

/-! ## The other requests of the maintenance port -/

theorem keeps_startServiceRequest (tag : Byte) (s : Part) : Keeps s (startServiceRequest tag s) := by
  unfold startServiceRequest
  split
  · exact (Keeps.refl s).reply
  · exact ((keeps_of_meters_calls rfl rfl (fun g => { g with }) :
      Keeps s { s with supply.inService := true }).trans
        (low_setPresent (low_setPresent (Low.refl _))).keeps).reply

theorem keeps_setTimeRequest (tag day : Byte) (minute : Word16) (second tenth : Byte) (s : Part) :
    Keeps s (setTimeRequest tag day minute second tenth s) :=
  ((Keeps.refl s).modTb.trans (keeps_evaluate _)).reply

theorem keeps_selectRequest (tag source : Byte) (m : Moment) (s : Part) : Keeps s (selectRequest tag source m s) := by
  unfold selectRequest
  split
  · exact (Keeps.refl s).reply
  · repeat' split
    · exact (Keeps.refl s).reply
    · exact (Keeps.refl s).reply
    · exact (keeps_selectNow m _ s).reply

theorem keeps_startCrystalRequest (tag : Byte) (s : Part) : Keeps s (startCrystalRequest tag s) := by
  unfold startCrystalRequest
  split
  · exact (Keeps.refl s).modTb.reply
  · exact (Keeps.refl s).reply

theorem keeps_stopCrystalRequest (tag : Byte) (s : Part) : Keeps s (stopCrystalRequest tag s) := by
  unfold stopCrystalRequest
  split
  · exact (Keeps.refl s).reply
  · exact (Keeps.refl s).modTb.reply

/-- A force is taken, or ended, and the calendar evaluated (R166). -/
theorem keeps_force (f : Option Period) (s : Part) : Keeps s (evaluate { s with cal.force := f }) :=
  (keeps_of_meters_calls rfl rfl (fun g => { g with }) : Keeps s { s with cal.force := f }).trans (keeps_evaluate _)

theorem keeps_forceRequest (tag period : Byte) (s : Part) : Keeps s (forceRequest tag period s) := by
  unfold forceRequest
  split
  · exact (Keeps.refl s).reply
  · exact (keeps_force _ s).reply

theorem keeps_forceClearRequest (tag : Byte) (s : Part) : Keeps s (forceClearRequest tag s) := (keeps_force _ s).reply

theorem keeps_receiveMaint {f : Part → Part} (tag : Byte) (hf : ∀ s, Keeps s (f s)) (s : Part) :
    Keeps s (receiveMaint tag f s) := by
  unfold receiveMaint
  repeat' split
  · exact (low_immediate (Low.refl s)).keeps
  · exact (low_immediate (Low.refl s)).keeps
  · exact hf s

/-! ## WRITE TABLE (R16) -/

theorem keeps_writeTariff (i : Nat) (b : List Byte) (s : Part) : Keeps s (writeTariff i b s) := by
  have written : ∀ v x, Keeps s { s with charge.tariff := Table.put {} s.charge.tariff i v, charge.incs := x } :=
    fun _ _ => keeps_of_meters_calls rfl rfl (fun g => { g with tariff := Table.wf_put g.tariff })
  unfold writeTariff
  dsimp only
  split
  · exact (written _ _).trans (low_takeIncrements (Low.refl _)).keeps
  · exact written _ _

theorem keeps_writeCalendar (i : Nat) (b : List Byte) (s : Part) : Keeps s (writeCalendar i b s) :=
  keeps_of_meters_calls rfl rfl (fun g => { g with calendar := Table.wf_put g.calendar })

theorem keeps_writeRecord (table i : Nat) (b : List Byte) (s : Part) : Keeps s (writeRecord table i b s) := by
  unfold writeRecord
  split
  · exact (low_writeLine (Low.refl s)).keeps
  · exact (low_modFrame (Low.refl s)).keeps
  · exact (low_modRoute (Low.refl s)).keeps
  · exact (low_writeJunction (Low.refl s)).keeps
  · exact (low_writeElem (Low.refl s)).keeps
  · exact (low_writeElem (Low.refl s)).keeps
  · exact keeps_writeTariff i b s
  · exact keeps_writeCalendar i b s
  · exact keeps_of_meters_calls rfl rfl (fun g => { g with })
  · exact (Keeps.refl s).modTb
  · exact Keeps.refl s

theorem keeps_afterWrite (m : Moment) (table : Nat) (s : Part) : Keeps s (afterWrite m table s) := by
  unfold afterWrite
  split
  · exact (low_retry (Low.refl s)).keeps
  · exact (low_retry (Low.refl s)).keeps
  · exact (low_retry (Low.refl s)).keeps
  · exact keeps_evaluate s
  · exact keeps_policy m s
  · exact Keeps.refl s

theorem keeps_writeTableRequest (tag table : Byte) (first : Word16) (count : Byte) (bytes : List Byte) (m : Moment)
    (s : Part) : Keeps s (writeTableRequest tag table first count bytes m s) := by
  unfold writeTableRequest
  split
  · exact (Keeps.refl s).reply
  · exact ((Keeps.foldl (fun s i => keeps_writeRecord _ _ _ s) _ s).trans (keeps_afterWrite m _ _)).reply

/-! ## The battery and the start-ups (R186 to R189, R148, R152) -/

theorem keeps_supply (x : Supply) (s : Part) : Keeps s { s with supply := x } :=
  keeps_of_meters_calls rfl rfl (fun g => { g with })

theorem Keeps.setBattery {b : Battery} {n : Nat} (h : Keeps r s) : Keeps r (setBattery b n s) :=
  h.trans (keeps_supply _ s)

theorem keeps_takeSample (v : Nat) (s : Part) : Keeps s (takeSample v s) := by
  have sampled : Keeps s { s with supply.sample := v } := keeps_supply _ s
  unfold takeSample
  split
  · exact Keeps.refl s
  dsimp only
  split
  · split
    · exact sampled.setBattery
    · refine Keeps.trans (Keeps.raiseMaint ?_) (low_nextWrite (Low.refl _)).keeps
      split
      · exact sampled.setBattery
      · exact sampled.setBattery
  · repeat' split
    · exact sampled.setBattery.raiseMaint
    · exact sampled.setBattery
    · exact sampled.setBattery
  · repeat' split
    · exact sampled.setBattery.trans (low_freezeEnd (Low.refl _)).keeps
    · exact sampled.setBattery.trans (keeps_supply _ _)
    · exact sampled.setBattery

/-- The entries loaded from their records agree with them (R152). -/
theorem meter_loadingPart (cause : Cause) (mode : ModeInput) (s : Part) (lt : Nat) :
    (meter lt (loadingPart cause mode s)).value = Table.get {} (loadingPart cause mode s).meters.records lt :=
  congrArg MeterEntry.value (Table.get_map (d := ({} : MeterValue)) (e := ({} : MeterEntry))
    (fun v => { count := v.count, rollover := v.rollover }) rfl s.meters.records lt)

theorem tablesOk_loadingPart (cause : Cause) (mode : ModeInput) (h : TablesOk s) :
    TablesOk (loadingPart cause mode s) :=
  have empty : ∀ {α : Type} [DecidableEq α] {d : α}, Table.wf d ([] : Table α) = true := Table.wf_nil
  have entries : Table.wf ({} : MeterEntry) (loadMeters s.meters).entries = true :=
    Table.wf_map (e := ({} : MeterEntry)) (f := fun v : MeterValue => { count := v.count, rollover := v.rollover })
      h.records
      (fun _ hv e => hv (congrArg MeterEntry.value e))
  { h with
    lines := empty, frames := empty, routes := empty, junctions := empty, fls := empty, cords := empty
    points := empty, calls := empty, tariff := empty, calendar := empty
    meters := entries, snapshot := fun _ g => by cases g }

/-- The law of R140 holds after a start-up, whatever held before: the entries are the records, and no write is in
progress. -/
theorem listedOk_loadingPart (cause : Cause) (mode : ModeInput) (s : Part) : ListedOk (loadingPart cause mode s) :=
  ⟨fun lt g => absurd (meter_loadingPart cause mode s lt) g, fun _ _ _ g => by cases g⟩

/-- A start-up that stays LOADING keeps the laws: the entries are the records, no write is in progress, and no call
record is allocated. -/
theorem keeps_loadingPart (cause : Cause) (mode : ModeInput) (s : Part) : Keeps s (loadingPart cause mode s) where
  metersOk h := by
    refine ⟨fun x hx => ?_, h.2.1, fun _ _ _ g => by cases g⟩
    obtain ⟨y, hy, rfl⟩ := List.mem_map.mp hx
    exact h.2.1 y hy
  tablesOk := tablesOk_loadingPart cause mode
  listedOk _ _ := listedOk_loadingPart cause mode s
  callsOk _ _ := fun _ hx => by cases hx

theorem keeps_loadImage (s : Part) : Keeps s (loadImage s) :=
  keeps_of_meters_calls rfl rfl (fun h =>
    { h with
      lines := h.imageLines, frames := h.imageFrames, routes := h.imageRoutes, junctions := h.imageJunctions
      fls := h.imageFls, cords := h.imageCords, tariff := h.imageTariff, calendar := h.imageCalendar })

theorem keeps_startUp (cause : Cause) (mode : ModeInput) (s : Part) : Keeps s (startUp cause mode s) := by
  unfold startUp
  dsimp only
  split
  · exact (keeps_loadingPart cause mode s).trans (keeps_loadImage _)
  · exact keeps_loadingPart cause mode s

theorem listedOk_startUp (cause : Cause) (mode : ModeInput) (s : Part) : ListedOk (startUp cause mode s) := by
  unfold startUp
  dsimp only
  split
  · exact listed_congr rfl (listedOk_loadingPart cause mode s)
  · exact listedOk_loadingPart cause mode s

theorem base_cutWrite (s : Part) : Base s (cutWrite s) := by
  unfold cutWrite
  split
  · exact Base.refl s
  · exact base_spoilRecord (Base.refl s)
  · exact base_spoilMarker (Base.refl s)
  · exact base_storeImage (w := .marker false) (Base.refl s)
  · exact Base.refl s

/-- A power-on keeps the laws, though the record of a write it cuts short holds a free value (R148): the entries are
loaded from the records as they then stand. -/
theorem keeps_powerOn (mode : ModeInput) (s : Part) : Keeps s (startUp .powerOn mode (cutWrite s)) where
  metersOk h := (keeps_startUp _ mode _).metersOk ((base_cutWrite s).metersOk h)
  tablesOk h := (keeps_startUp _ mode _).tablesOk ((base_cutWrite s).tablesOk h)
  callsOk h g := (keeps_startUp _ mode _).callsOk ((base_cutWrite s).tablesOk h) ((base_cutWrite s).callsOk h g)
  listedOk _ _ := listedOk_startUp .powerOn mode _

theorem keeps_batteryResetNow (mode : ModeInput) (s : Part) : Keeps s (batteryResetNow mode s) := by
  unfold batteryResetNow
  split
  · exact keeps_startUp .battery mode s
  · exact Keeps.refl s

/-! ## Every command -/

theorem keeps_of_onPart {f : Part → Part} {s t : State} (hf : ∀ p, Keeps p (f p)) (h : onPart f s = .next t) :
    Keeps s.part t.part := by
  obtain rfl := Host.Outcome.next.inj h
  exact hf s.part

theorem keeps_of_low {f : Part → Part} (hf : ∀ {r s}, Low r s → Low r (f s)) (p : Part) : Keeps p (f p) :=
  (hf (Low.refl p)).keeps

/-- A request of a controller port keeps the laws where its taking is an operation below the clock. -/
theorem keeps_receiveCtl {f : Part → Part} (c : Ctl) (tag : Byte) (hf : ∀ {r s}, Low r s → Low r (f s)) (p : Part) :
    Keeps p (receiveCtl c tag f p) :=
  (low_receiveCtl (fun _ => hf) (Low.refl p)).keeps

theorem keeps_receiveMaint_of_low {f : Part → Part} (tag : Byte) (hf : ∀ {r s}, Low r s → Low r (f s)) (p : Part) :
    Keeps p (receiveMaint tag f p) :=
  keeps_receiveMaint tag (keeps_of_low hf) p

theorem keeps_writeTable (tag table : Byte) (first : Word16) (count : Byte) (bytes : List Byte) (m : Moment)
    (p : Part) :
    Keeps p ((if recordsFit table count bytes then receiveMaint tag (writeTableRequest tag table first count bytes m)
      else immediate .maint tag .format) p) := by
  split
  · exact keeps_receiveMaint tag (keeps_writeTableRequest tag table first count bytes m) p
  · exact keeps_of_low low_immediate p

/-- Every command keeps the laws of the meters and of the call records. -/
theorem keeps_exec {i : Instr} {s t : State} (h : exec i s = .next t) : Keeps s.part t.part := by
  cases i with
  | powerOn mode => exact keeps_of_onPart (keeps_powerOn mode) h
  | batteryReset mode => exact keeps_of_onPart (keeps_batteryResetNow mode) h
  | batterySample v => exact keeps_of_onPart (keeps_takeSample v) h
  | scan inputs later => exact keeps_of_onPart (keeps_of_low low_scanInstant) h
  | digitEnd cord => exact keeps_of_onPart (keeps_of_low low_produceEvent) h
  | callerClear p => exact keeps_of_onPart (keeps_of_low low_produceEvent) h
  | calledClear cord => exact keeps_of_onPart (keeps_of_low low_produceEvent) h
  | farEndClear j => exact keeps_of_onPart (keeps_of_low low_produceEvent) h
  | parkEnd lt => exact keeps_of_onPart (keeps_of_low low_produceEvent) h
  | tick early => exact keeps_of_onPart (keeps_dividerTick early) h
  | dialTimeout id => exact keeps_of_onPart (keeps_of_low low_expireTimer) h
  | noAnswer id => exact keeps_of_onPart (keeps_of_low low_expireTimer) h
  | holdExpiry id => exact keeps_of_onPart (keeps_of_low low_expireTimer) h
  | graceExpiry id => exact keeps_of_onPart (keeps_of_low low_expireGrace) h
  | waitLimitExpiry o => exact keeps_of_onPart (keeps_of_low low_expireWait) h
  | presenceWindowExpiry c => exact keeps_of_onPart (keeps_of_low low_expireWindow) h
  | minuteBoundary => exact keeps_of_onPart keeps_evaluateBoundary h
  | stationPulse m => exact keeps_of_onPart (keeps_pulse m) h
  | stationGap m => exact keeps_of_onPart (keeps_gap m) h
  | crystalReady m => exact keeps_of_onPart (keeps_crystalReady m) h
  | crystalFailure m => exact keeps_of_onPart (keeps_crystalFailure m) h
  | driveConfirmation u n positive => exact keeps_of_onPart (keeps_of_low low_unitOutcome) h
  | driveTimeout u n => exact keeps_of_onPart (keeps_of_low low_unitOutcome) h
  | arbiterGrant => exact keeps_of_onPart (keeps_of_low low_grant) h
  | nvWriteEnd verified => exact keeps_of_onPart (keeps_writeEnd verified) h
  | trickleSlot => exact keeps_of_onPart (keeps_of_low low_trickle) h
  | outboundFrameEnd p => exact keeps_of_onPart (keeps_of_low low_frameEnd) h
  | pendingNoticeEntry c => exact keeps_of_onPart (keeps_of_low low_drainCtl) h
  | maintenancePendingEntry => exact keeps_of_onPart (keeps_of_low low_drainMaint) h
  | malformedFrame p frame => exact keeps_of_onPart (keeps_of_low low_malformed) h
  | extend c tag id kind dest band permission => exact keeps_of_onPart (keeps_receiveCtl c tag low_extendRequest) h
  | release c tag id => exact keeps_of_onPart (keeps_receiveCtl c tag low_releaseRequest) h
  | readCall c tag id => exact keeps_of_onPart (keeps_receiveCtl c tag low_readCallRequest) h
  | readLine c tag lt => exact keeps_of_onPart (keeps_receiveCtl c tag low_readLineRequest) h
  | presence c tag => exact keeps_of_onPart (keeps_receiveCtl c tag low_presenceRequest) h
  | writeTable tag table first count bytes m =>
    exact keeps_of_onPart (keeps_writeTable tag table first count bytes m) h
  | readTable tag table first count => exact keeps_of_onPart (keeps_receiveMaint_of_low tag low_readTableRequest) h
  | startService tag => exact keeps_of_onPart (keeps_receiveMaint tag (keeps_startServiceRequest tag)) h
  | saveConfiguration tag => exact keeps_of_onPart (keeps_receiveMaint tag (keeps_saveRequest tag)) h
  | busyOut tag kind n => exact keeps_of_onPart (keeps_receiveMaint_of_low tag low_busyOutRequest) h
  | returnToService tag kind n => exact keeps_of_onPart (keeps_receiveMaint_of_low tag low_returnRequest) h
  | releaseCall tag id => exact keeps_of_onPart (keeps_receiveMaint_of_low tag low_releaseCallRequest) h
  | readMeters tag first count => exact keeps_of_onPart (keeps_receiveMaint_of_low tag low_readMetersRequest) h
  | takeSnapshot tag => exact keeps_of_onPart (keeps_receiveMaint tag (keeps_takeSnapshotRequest tag)) h
  | readSnapshot tag first count => exact keeps_of_onPart (keeps_receiveMaint_of_low tag low_readSnapshotRequest) h
  | dropSnapshot tag => exact keeps_of_onPart (keeps_receiveMaint tag (keeps_dropSnapshotRequest tag)) h
  | clearRollover tag lt =>
    exact keeps_of_onPart (keeps_receiveMaint_of_low tag
      (low_meterRequest (f := clearRolloverFlag) (fun _ _ => low_clearRolloverFlag))) h
  | clearNvFault tag lt =>
    exact keeps_of_onPart (keeps_receiveMaint_of_low tag
      (low_meterRequest (f := clearFaultFlag) (fun _ _ => low_clearFaultFlag))) h
  | setTime tag day minute second tenth =>
    exact keeps_of_onPart (keeps_receiveMaint tag (keeps_setTimeRequest tag day minute second tenth)) h
  | readTime tag => exact keeps_of_onPart (keeps_receiveMaint_of_low tag low_readTimeRequest) h
  | selectSource tag source m => exact keeps_of_onPart (keeps_receiveMaint tag (keeps_selectRequest tag source m)) h
  | startCrystal tag => exact keeps_of_onPart (keeps_receiveMaint tag (keeps_startCrystalRequest tag)) h
  | stopCrystal tag => exact keeps_of_onPart (keeps_receiveMaint tag (keeps_stopCrystalRequest tag)) h
  | forcePeriod tag period => exact keeps_of_onPart (keeps_receiveMaint tag (keeps_forceRequest tag period)) h
  | forceClear tag => exact keeps_of_onPart (keeps_receiveMaint tag (keeps_forceClearRequest tag)) h
  | restart tag => exact keeps_of_onPart (keeps_receiveMaint_of_low tag low_restartRequest) h
  | readStatus tag => exact keeps_of_onPart (keeps_receiveMaint_of_low tag low_readStatusRequest) h

/-- Every step keeps them: an idle step changes nothing, any other takes the command at the front. -/
theorem keeps_step {s t : State} (h : step s = .next t) : Keeps s.part t.part := by
  unfold step at h
  split at h
  · obtain rfl := Host.Outcome.next.inj h
    exact Keeps.refl _
  · next rest _ => exact keeps_exec (s := { s with pending := rest }) h

/-- Settles O5: every command keeps the laws (`keeps_exec`), so every step does. -/
theorem meterRangeKept : Obligations.MeterRangeKept :=
  ⟨fun _ _ ok h => (keeps_step h).metersOk ok, fun _ _ tables h =>
    ⟨(keeps_step h).listedOk tables, (keeps_step h).callsOk tables⟩⟩

end Sys2Proof.Machine
end

section
/-!
PROOFS. The readout of the meters, the clearing of their flags and the snapshot table (R138, R144, R149 to R151).
-/

namespace Sys2Proof.Machine

variable {s : Part}

/-! ## READ METERS (R149) -/

theorem rangeRefusal_format {first count : Nat} (h : count = 0 ∨ 64 < count) :
    rangeRefusal first count = some .format := by
  simp [rangeRefusal, h]

theorem rangeRefusal_noSuch {first count : Nat} (h1 : 0 < count) (h2 : count ≤ 64) (h3 : 2048 < first + count) :
    rangeRefusal first count = some .noSuch := by
  unfold rangeRefusal Config.lines
  rw [if_neg (by omega), if_pos (Or.inr h3)]

theorem rangeRefusal_none {first count : Nat} (h1 : 0 < count) (h2 : count ≤ 64) (h3 : first + count ≤ 2048) :
    rangeRefusal first count = none := by
  unfold rangeRefusal Config.lines
  rw [if_neg (by omega), if_neg (by omega)]

/-- The save state of a line while no meter write is in progress: LISTED or CLEAN (R136). -/
theorem saveState_code_of_none (h : writingLine s = none) (lt : Nat) :
    (saveState lt s).code = if lt ∈ s.meters.dirty then 1 else 0 := by
  by_cases listed : lt ∈ s.meters.dirty <;> simp [saveState, h, listed, SaveState.code]

/-- The save state of a line during a meter write: WRITING comes before LISTED (R136, log entry 16). -/
theorem saveState_code_of_some {x : Nat} (h : writingLine s = some x) (lt : Nat) :
    (saveState lt s).code = if x = lt then 2 else if lt ∈ s.meters.dirty then 1 else 0 := by
  by_cases writing : x = lt
  · simp [saveState, h, writing, SaveState.code]
  · by_cases listed : lt ∈ s.meters.dirty <;> simp [saveState, h, writing, listed, SaveState.code]

/-- A meter item, with the code of its save state (R149). -/
theorem meterItem_of_code {lt code : Nat} (h : (saveState lt s).code = code) :
    meterItem lt s = b24 (meter lt s).count ++
      [b8 ((if (meter lt s).rollover then 1 else 0) + (if (meter lt s).nvFault then 2 else 0) + 4 * code)] := by
  subst h
  rfl

/-- Settles O14: the refusals are those of `rangeRefusal`, and each item gives its save state by the write in
progress. -/
theorem readMeters : Obligations.ReadMeters := by
  intro s tag count first takes
  have refused : ∀ code, rangeRefusal first.toNat count.toNat = some code →
      Replies (.readMeters tag first count) s .maint { tag := tag, code := code } s.part := fun code h =>
    replies_of_reply (f := readMetersRequest tag first count) rfl takes (by simp only [readMetersRequest, h])
  refine ⟨fun h => refused _ (rangeRefusal_format h), fun h1 h2 h3 => refused _ (rangeRefusal_noSuch h1 h2 h3),
    fun h1 h2 h3 => replies_of_reply (f := readMetersRequest tag first count) rfl takes ?_⟩
  simp only [readMetersRequest, rangeRefusal_none h1 h2 h3]
  refine congrArg (fun data => reply .maint tag .done data s.part)
    (List.flatMap_congr (fun i _ => meterItem_of_code ?_))
  cases engine : s.part.meters.engine with
  | idle => exact saveState_code_of_none (by simp only [writingLine, engine]) _
  | config w again => exact saveState_code_of_none (by simp only [writingLine, engine]) _
  | meter x v again => exact saveState_code_of_some (by simp only [writingLine, engine]) _

/-! ## The snapshot table (R150, R151) -/

/-- A snapshot holds every line's count and rollover flag (R150). -/
theorem get_snapshotNow (h : TablesOk s) (lt : Nat) :
    Table.get {} (snapshotNow s).items lt = { count := (meter lt s).count, rollover := (meter lt s).rollover } :=
  (Table.get_filter (Table.rising_map MeterEntry.value h.meters) lt).trans
    (Table.get_map (d := ({} : MeterEntry)) MeterEntry.value rfl s.meters.entries lt)

theorem takeSnapshot_held {s : State} {tag : Byte} (takes : MaintTakes s.part)
    (h : s.part.meters.snapshot ≠ none) :
    Replies (.takeSnapshot tag) s .maint { tag := tag, code := .held } s.part := by
  obtain ⟨snap, held⟩ := Option.ne_none_iff_exists'.mp h
  exact replies_of_reply (f := takeSnapshotRequest tag) rfl takes (by simp only [takeSnapshotRequest, held])

theorem takeSnapshot_taken {s : State} {tag : Byte} (takes : MaintTakes s.part)
    (h : s.part.meters.snapshot = none) :
    Replies (.takeSnapshot tag) s .maint { tag := tag, code := .done, data := (timeStamp s.part).bytes }
      { s.part with meters.snapshot := some (snapshotNow s.part) } :=
  replies_of_reply (f := takeSnapshotRequest tag) rfl takes (by
    simp only [takeSnapshotRequest, h]
    rfl)

theorem readSnapshot_refused {s : State} {tag count : Byte} {first : Word16} {code : ResultCode}
    (takes : MaintTakes s.part) (h : rangeRefusal first.toNat count.toNat = some code) :
    Replies (.readSnapshot tag first count) s .maint { tag := tag, code := code } s.part :=
  replies_of_reply (f := readSnapshotRequest tag first count) rfl takes (by simp only [readSnapshotRequest, h])

theorem readSnapshot_empty {s : State} {tag count : Byte} {first : Word16} (takes : MaintTakes s.part)
    (h : rangeRefusal first.toNat count.toNat = none) (empty : s.part.meters.snapshot = none) :
    Replies (.readSnapshot tag first count) s .maint { tag := tag, code := .badState } s.part :=
  replies_of_reply (f := readSnapshotRequest tag first count) rfl takes (by simp only [readSnapshotRequest, h, empty])

theorem readSnapshot_read {s : State} {tag count : Byte} {first : Word16} {snap : Snapshot}
    (takes : MaintTakes s.part) (h : rangeRefusal first.toNat count.toNat = none)
    (held : s.part.meters.snapshot = some snap) :
    Replies (.readSnapshot tag first count) s .maint
      { tag := tag, code := .done
        data := snap.stamp.bytes ++
          (List.range count.toNat).flatMap (fun i => snapshotItem (first.toNat + i) snap) } s.part :=
  replies_of_reply (f := readSnapshotRequest tag first count) rfl takes (by simp only [readSnapshotRequest, h, held])

/-- The part after DROP SNAPSHOT takes the next maintenance request, and holds no snapshot (R151). -/
theorem dropSnapshot_next {s t : State} {tag : Byte} (takes : MaintTakes s.part)
    (h : exec (.dropSnapshot tag) s = .next t) : MaintTakes t.part ∧ t.part.meters.snapshot = none := by
  have taken : t = { s with part := dropSnapshotRequest tag s.part } := by
    rw [← receiveMaint_of_takes (tag := tag) (f := dropSnapshotRequest tag) s.part takes]
    exact (Host.Outcome.next.inj h).symm
  subst taken
  exact ⟨takes, rfl⟩

/-- Settles O15: the three requests, each by its refusals and its effect. -/
theorem snapshots : Obligations.Snapshots := by
  refine ⟨fun s tag takes => ⟨takeSnapshot_held takes, fun empty =>
    ⟨snapshotNow s.part, takeSnapshot_taken takes empty, rfl, get_snapshotNow⟩⟩, fun s tag count first takes => ?_⟩
  refine ⟨fun h => readSnapshot_refused takes (rangeRefusal_format h),
    fun h1 h2 h3 => readSnapshot_refused takes (rangeRefusal_noSuch h1 h2 h3), fun h1 h2 h3 => ?_, ?_, fun t h => ?_⟩
  · have inRange := rangeRefusal_none h1 h2 h3
    exact ⟨readSnapshot_empty takes inRange, fun snap held => readSnapshot_read takes inRange held⟩
  · exact replies_of_reply (f := dropSnapshotRequest tag) rfl takes rfl
  · obtain ⟨takesNext, empty⟩ := dropSnapshot_next takes h
    exact ⟨_, takeSnapshot_taken takesNext empty⟩

/-! ## CLEAR ROLLOVER and CLEAR NV FAULT (R138, R140, R144) -/

/-- One meter entry has been changed, and its line has joined the dirty list if it may (R140). -/
structure EntryChanged (lt : Nat) (e : MeterEntry) (s t : Part) : Prop where
  frame : t = { s with meters.entries := t.meters.entries, meters.dirty := t.meters.dirty }
  entry : meter lt t = e
  others : ∀ x, x ≠ lt → meter x t = meter x s
  dirty : t.meters.dirty =
    if lt ∈ s.meters.dirty ∨ e.nvFault = true then s.meters.dirty else s.meters.dirty ++ [lt]

/-- A change of an entry at the TRICKLE pace outside a save, as a change that R140 speaks of. -/
theorem entryChanged_joinDirty (h : TablesOk s) (hs : s.meters.save = none) (hb : urgent s = false) (lt : Nat)
    (f : MeterEntry → MeterEntry) :
    EntryChanged lt (f (meter lt s)) s (joinDirty lt (modMeter lt f s)) := by
  have entry : meter lt (modMeter lt f s) = f (meter lt s) := meter_modMeter h lt f
  rw [joinDirty_eq (s := modMeter lt f s) hs hb]
  refine ⟨rfl, entry, fun x hx => meter_modMeter_of_ne hx f, ?_⟩
  rw [entry]
  by_cases listed : lt ∈ s.meters.dirty <;> by_cases fault : (f (meter lt s)).nvFault = true <;>
    simp [listed, fault]

theorem clearRollover_replies {s : State} {tag : Byte} {n : Word16} (takes : MaintTakes s.part)
    (h : n.toNat < 2048) :
    Replies (.clearRollover tag n) s .maint { tag := tag, code := .done } (clearRolloverFlag n.toNat s.part) :=
  replies_of_reply (f := meterRequest tag n clearRolloverFlag) rfl takes (if_neg (Nat.not_le.mpr h))

theorem clearNvFault_replies {s : State} {tag : Byte} {n : Word16} (takes : MaintTakes s.part)
    (h : n.toNat < 2048) :
    Replies (.clearNvFault tag n) s .maint { tag := tag, code := .done } (clearFaultFlag n.toNat s.part) :=
  replies_of_reply (f := meterRequest tag n clearFaultFlag) rfl takes (if_neg (Nat.not_le.mpr h))

/-- Settles O16: a set flag is cleared as a change of the entry that R140 speaks of (`entryChanged_joinDirty`). -/
theorem clearMeterFlags : Obligations.ClearMeterFlags := by
  intro s tag n takes tables
  refine ⟨fun outside => ⟨?_, ?_⟩, fun inside => ⟨fun clear => ?_, fun clear => ?_, fun normal noSave => ⟨fun set => ?_,
    fun set => ?_⟩⟩⟩
  · exact replies_of_reply (f := meterRequest tag n clearRolloverFlag) rfl takes (if_pos outside)
  · exact replies_of_reply (f := meterRequest tag n clearFaultFlag) rfl takes (if_pos outside)
  · simpa [clearRolloverFlag, clear] using clearRollover_replies (tag := tag) takes inside
  · simpa [clearFaultFlag, clear] using clearNvFault_replies (tag := tag) takes inside
  · have changed := entryChanged_joinDirty tables noSave (by simp [urgent, normal]) n.toNat
      (fun e => { e with rollover := false })
    have cleared : clearRolloverFlag n.toNat s.part = _ := if_pos set
    exact ⟨_, cleared ▸ clearRollover_replies takes inside, changed.frame, changed.entry, changed.others, changed.dirty⟩
  · have changed := entryChanged_joinDirty tables noSave (by simp [urgent, normal]) n.toNat
      (fun e => { e with nvFault := false })
    have cleared : clearFaultFlag n.toNat s.part = _ := if_pos set
    exact ⟨_, cleared ▸ clearNvFault_replies takes inside, changed.frame, changed.entry, changed.others, by
      simpa using changed.dirty⟩

end Sys2Proof.Machine
end

section
/-!
PROOFS. The nonvolatile write engine (R141 to R148, R191): a trickle slot, the ends of meter and configuration
writes, and the write that follows.
-/

namespace Sys2Proof.Machine

variable {s t : Part}

/-! ## The write that follows (R145 to R148) -/

theorem startMeterWrite_eq {lt : Nat} {rest : List Nat} (h : s.meters.dirty = lt :: rest) :
    startMeterWrite s = { s with
      meters.dirty := rest
      meters.engine :=
        .meter lt { count := (meter lt s).count, rollover := (meter lt s).rollover } false } := by
  simp only [startMeterWrite, h]
  rfl

theorem meterWriteStarts_startMeterWrite (h : s.meters.dirty ≠ []) : MeterWriteStarts s (startMeterWrite s) := by
  obtain ⟨lt, rest, listed⟩ := List.exists_cons_of_ne_nil h
  exact ⟨lt, rest, listed, startMeterWrite_eq listed⟩

theorem urgent_iff : urgent s = true ↔ s.supply.battery ≠ .normal := decide_eq_true_iff

theorem nextWrite_of_decided (h : s.supply.decided = true) : nextWrite s = s := if_pos (Or.inr h)

section Idle

variable (idle : s.meters.engine = .idle) (free : s.supply.decided = false)

include idle free

theorem nextWrite_of_noSave (h : s.meters.save = none) :
    nextWrite s = if urgent s = true ∧ s.meters.dirty ≠ [] then startMeterWrite s else s := by
  simp [nextWrite, idle, free, h]

theorem nextWrite_of_save {v : Save} (h : s.meters.save = some v) :
    nextWrite s = if v.next = 0 then startConfigWrite v s
      else if s.meters.dirty ≠ [] ∧ (urgent s = true ∨ v.configLast = true) then
        startMeterWrite (modMeters (fun m => { m with save := some { v with configLast := false } }) s)
      else startConfigWrite v s := by
  simp [nextWrite, idle, free, h]

end Idle

/-- The choice of an engine that has become IDLE, in every case of R145 to R148. -/
theorem writesNext_nextWrite (idle : s.meters.engine = .idle) : WritesNext s (nextWrite s) := by
  refine ⟨nextWrite_of_decided, fun free noSave => ?_, fun v free save => ?_⟩
  · rw [nextWrite_of_noSave idle free noSave]
    refine ⟨fun waits => if_neg ?_, fun pace listed => ?_⟩
    · rintro ⟨pace, listed⟩
      exact waits.elim (urgent_iff.mp pace) listed
    · rw [if_pos ⟨urgent_iff.mpr pace, listed⟩]
      exact meterWriteStarts_startMeterWrite listed
  · rw [nextWrite_of_save idle free save]
    refine ⟨fun config => ?_, fun later listed pace => ?_⟩
    · have started : startConfigWrite v s = { s with
          meters.save := some { v with configLast := true }
          meters.engine := .config (configValue v.next s) false } := rfl
      split
      · exact started
      · next later =>
        rw [if_neg, started]
        rintro ⟨listed, pace⟩
        obtain first | empty | ⟨normal, meterLast⟩ := config
        · exact later first
        · exact listed empty
        · exact pace.elim (fun g => urgent_iff.mp g normal) (fun g => by simp [meterLast] at g)
    · rw [if_neg later, if_pos ⟨listed, pace.imp_left urgent_iff.mpr⟩]
      exact meterWriteStarts_startMeterWrite
        (s := modMeters (fun m => { m with save := some { v with configLast := false } }) s) listed

/-- The engine of `s` becomes IDLE, which makes it `q`, and chooses its next write. -/
theorem writesNext_of_engineIdle {q : Part} (ht : t = engineIdle s)
    (hq : q = modMeters (fun m => { m with engine := .idle }) s) : WritesNext q t := by
  subst ht hq
  exact writesNext_nextWrite rfl

/-! ## A trickle slot (R145) -/

theorem trickle_unused (h : s.meters.engine ≠ .idle ∨ s.meters.dirty = [] ∨ s.meters.save ≠ none ∨
    s.supply.battery ≠ .normal) : trickle s = s := by
  unfold trickle
  split
  · next slot =>
    obtain ⟨idle, noSave, pace, -⟩ := slot
    obtain busy | empty | save | battery := h
    · exact absurd idle busy
    · simp only [startMeterWrite, empty]
    · exact absurd noSave save
    · rw [urgent_iff.mpr battery] at pace
      cases pace
  · rfl

theorem trickle_writes (idle : s.meters.engine = .idle) (noSave : s.meters.save = none)
    (normal : s.supply.battery = .normal) (free : s.supply.decided = false) : trickle s = startMeterWrite s :=
  if_pos ⟨idle, noSave, by simp [urgent, normal], free⟩

/-- Settles O60: a slot passes unused, or starts the write of the head of the dirty list. -/
theorem trickleSlot : Obligations.TrickleSlot := by
  intro s
  refine ⟨fun unused => ?_, fun lt rest idle listed noSave normal free => ?_⟩
  · exact congrArg (fun p => Host.Outcome.next { s with part := p }) (trickle_unused unused)
  · exact congrArg (fun p => Host.Outcome.next { s with part := p })
      ((trickle_writes idle noSave normal free).trans (startMeterWrite_eq listed))

/-! ## The end of a meter write (R141 to R143) -/

theorem exec_nvWriteEnd (verified : Bool) (s : State) :
    exec (.nvWriteEnd verified) s = .next { s with part := writeEnd verified s.part } := rfl

theorem writeEnd_meter_verified {lt : Nat} {v : MeterValue} {again : Bool} (h : s.meters.engine = .meter lt v again) :
    writeEnd true s = engineIdle (modMeters (fun m => { m with records := Table.put {} m.records lt v }) s) := by
  simp only [writeEnd, h]
  rfl

theorem writeEnd_meter_retried {lt : Nat} {v : MeterValue} (h : s.meters.engine = .meter lt v false) :
    writeEnd false s = { s with meters.engine := .meter lt v true } := by
  simp only [writeEnd, h]
  rfl

/-- The part in which NV FAULT is queued (R143): the record spoilt by some value, the flag set, and the line out of the
dirty list. -/
def faulted (lt : Nat) (f : MeterValue) (s : Part) : Part :=
  { s with
    meters.entries := Table.put {} s.meters.entries lt { meter lt s with nvFault := true }
    meters.records := Table.put {} s.meters.records lt f
    meters.dirty := s.meters.dirty.filter (fun x => decide (x ≠ lt))
    fresh := s.fresh + 1 }

theorem writeEnd_meter_failed {lt : Nat} {v : MeterValue} (h : s.meters.engine = .meter lt v true)
    (room : MaintRoom s) :
    ∃ f, writeEnd false s =
      engineIdle (enter .maint (.maint .nvFault 0 (b16 lt ++ b24 v.count)) (faulted lt f s)) := by
  refine ⟨failedValue s.fresh, ?_⟩
  rw [← raiseMaint_enters (maintRoom_congr (t := faulted lt _ s) rfl room)]
  simp only [writeEnd, h]
  rfl

/-- Settles O58: the three ends of a meter write, each with the choice that follows it. -/
theorem meterWriteEnds : Obligations.MeterWriteEnds := by
  intro s lt v again tables engine
  refine ⟨?_, fun first => ?_, fun second room => ?_⟩
  · exact ⟨modMeters (fun m => { m with records := Table.put {} m.records lt v, engine := .idle }) s.part, _,
      exec_nvWriteEnd true s, rfl, Table.get_put_same tables.records, fun x hx => Table.get_put_ne hx, rfl,
      writesNext_of_engineIdle (writeEnd_meter_verified engine) rfl⟩
  · subst first
    exact congrArg (fun p => Host.Outcome.next { s with part := p }) (writeEnd_meter_retried engine)
  · subst second
    obtain ⟨f, ended⟩ := writeEnd_meter_failed engine room
    refine ⟨_, _, exec_nvWriteEnd false s, rfl, ?_, fun x hx => ?_, fun x hx => ?_, ?_, ?_,
      writesNext_of_engineIdle ended rfl⟩
    · exact Table.get_put_same tables.meters
    · exact Table.get_put_ne hx
    · exact Table.get_put_ne hx
    · exact (noticesDue_congr rfl).trans (noticesDue_enter (faulted lt f s.part) .maint _)
    · rfl

/-! ## The end of a configuration write (R147, R191) -/

section Configuration

variable {w : ConfigValue}

theorem writeEnd_config_verified {again : Bool} (h : s.meters.engine = .config w again) :
    writeEnd true s = configWritten w s := by
  simp only [writeEnd, h, if_true]

theorem writeEnd_config_retried (h : s.meters.engine = .config w false) :
    writeEnd false s = { s with meters.engine := .config w true } := by
  simp only [writeEnd, h]
  rfl

theorem writeEnd_config_failed (h : s.meters.engine = .config w true) : writeEnd false s = configFault w s := by
  simp [writeEnd, h]

end Configuration

/-- A notice queued before the engine becomes IDLE is queued as after it. -/
theorem noticed_idle {k : MaintKind} {d : List Byte} (room : MaintRoom s) :
    Noticed k d (modMeters (fun m => { m with engine := .idle }) s)
      (modMeters (fun m => { m with engine := .idle }) (raiseMaint k d s)) := by
  have roomIdle : MaintRoom (modMeters (fun m => { m with engine := .idle }) s) := room
  have told := noticed_raiseMaint (k := k) (d := d) roomIdle
  rw [raiseMaint_enters roomIdle] at told
  rw [raiseMaint_enters room]
  exact told

/-- A save ends, with its notice and the choice that follows (R191). -/
theorem endSave_ends (complete : Bool) (n : Nat) (room : MaintRoom s) :
    ∃ q, Noticed .configurationSaved ([b8 (if complete then 0 else 1)] ++ b16 n)
        { s with meters.save := none, meters.engine := .idle } q ∧ WritesNext q (endSave complete n s) :=
  ⟨_, noticed_idle (s := modMeters (fun m => { m with save := none }) s) (maintRoom_congr (s := s) rfl room),
    writesNext_of_engineIdle rfl rfl⟩

theorem configWritten_last {w : ConfigValue} {v : Save} (save : s.meters.save = some v) (last : 2699 ≤ v.next) :
    configWritten w s = endSave true (v.verified + w.counts)
      (modMeters (fun m => { m with image := m.image.store w }) s) := by
  simp only [configWritten, modMeters_meters, save]
  exact if_pos (Nat.succ_le_succ last)

theorem configWritten_more {w : ConfigValue} {v : Save} (save : s.meters.save = some v) (more : v.next < 2699) :
    configWritten w s = engineIdle (modMeters
      (fun m => { m with
        image := m.image.store w
        save := some { v with next := v.next + 1, verified := v.verified + w.counts } }) s) := by
  simp only [configWritten, modMeters_meters, save]
  exact if_neg (by simp only [Config.saveWrites]; omega)

/-- A record other than the marker stands in the image as it was (log entry 14). -/
theorem configFault_record {w : ConfigValue} {v : Save} (save : s.meters.save = some v) (h : ∀ b, w ≠ .marker b) :
    configFault w s = endSave false v.verified s := by
  cases w with
  | marker b => exact absurd rfl (h b)
  | _ => simp only [configFault, save, Option.map_some, Option.getD_some]

/-- The marker holds a free value after a failed write of its own (log entry 13). -/
theorem configFault_marker {b : Bool} {v : Save} (save : s.meters.save = some v) :
    configFault (.marker b) s = endSave false v.verified (spoilMarker s) := by
  have kept : (spoilMarker s).meters.save = some v := save
  simp only [configFault, kept, Option.map_some, Option.getD_some]

/-- Settles O59: each end of a configuration write, with `endSave_ends` where it ends the save. -/
theorem configurationWriteEnds : Obligations.ConfigurationWriteEnds := by
  intro s w again v tables engine save n idle failed
  have verified : writeEnd true s.part = configWritten w s.part := writeEnd_config_verified engine
  have counted : v.verified + w.counts = n := by cases w <;> rfl
  refine ⟨fun more => ?_, fun last room => ?_, fun first => ?_, fun second room => ?_⟩
  · rw [← counted]
    exact ⟨_, exec_nvWriteEnd true s, rfl,
      writesNext_of_engineIdle (verified.trans (configWritten_more save more)) rfl⟩
  · have stored : MaintRoom (modMeters (fun m => { m with image := m.image.store w }) s.part) := room
    obtain ⟨q, told, next⟩ := endSave_ends true n stored
    rw [← counted, ← configWritten_last save last, ← verified] at next
    exact ⟨q, _, exec_nvWriteEnd true s, rfl, told, next⟩
  · subst first
    exact congrArg (fun p => Host.Outcome.next { s with part := p }) (writeEnd_config_retried engine)
  · subst second
    refine ⟨fun record => ?_, fun b marker => ?_⟩
    · obtain ⟨q, told, next⟩ := endSave_ends false v.verified room
      rw [← configFault_record save record, ← writeEnd_config_failed engine] at next
      exact ⟨q, _, exec_nvWriteEnd false s, rfl, told, next⟩
    · subst marker
      have spoiled : MaintRoom (spoilMarker s.part) := room
      obtain ⟨q, told, next⟩ := endSave_ends false v.verified spoiled
      rw [← configFault_marker save, ← writeEnd_config_failed engine] at next
      exact ⟨_, q, _, exec_nvWriteEnd false s, rfl, told, next⟩

end Sys2Proof.Machine
end
